-- ==== Sys2Proof/Word.lean ====
section
/-! DEFINITION. The word and byte types of the SK7216 (R11): every register is 32 bits wide, memory is addressed in
bytes. Everything that computes with them stands under `Machine/`. -/
namespace Sys2Proof

/-- A register value (R11). -/
abbrev Word := BitVec 32

/-- One byte of an addressed memory. -/
abbrev Byte := BitVec 8

/-- A 16-bit half word: a stitch instruction word, a short core instruction, a log count. -/
abbrev Half := BitVec 16

end Sys2Proof
end

