-- ==== Sys2Proof/Syntax.lean ====
section
/-! DEFINITION. The commands of the device: the rows of the opcode table with their operands. Index operands are
`Fin`, so an index outside the device cannot be written; what an operand's type leaves open is checked in WellFormed. -/
namespace Sys2Proof

/-- The two application cores (R363, R422). -/
inductive CoreId where
  | a
  | b
  deriving DecidableEq, Repr, Inhabited

/-- The masters of the system interconnect (R35, R39): a core in supervisor or user state, the DMA controller, the
security block and the JTAG debug port. -/
inductive Master where
  | core (c : CoreId) (user : Bool)
  | dma
  | security
  | jtag
  deriving DecidableEq, Repr, Inhabited


/-- The packet error code of a host transaction: none, matching, or not matching (R488, R490). -/
inductive Pec where
  | none
  | good
  | bad
  deriving DecidableEq, Repr, Inhabited

/-- One SMBus transaction addressed to this device (R488, R490): the data bytes of its write part, none for a command that
is only read; whether it has a read part; its packet error code. A process call has both parts. A send byte writes no
data byte. -/
structure HostXact where
  data : Option (List Byte)
  read : Bool
  pec : Pec
  deriving DecidableEq, Repr, Inhabited


/-- The commands the SK7216 takes: one constructor per row of the opcode table, in the table's order. Each line cites
the rule that gives the row its effect. -/
inductive Instr where
  /-- REGISTER_WRITE (R27). A bus write to a register that has no row of its own stores its value, or stages it, by the access code and the expert-page rules. -/
  | registerWrite (m : Master) (addr : Word) (size : Nat) (v : Word)
  /-- DECISION (R81). At each ADC rising edge a rail's loop evaluates one decision from the samples of that hold edge, from D1 to D4. -/
  | decision (n : Fin 8) (vs : Int) (raws : List (BitVec 12)) (cf : Word)
  /-- HOUSEKEEPING_SLOT (R52). A housekeeping slot completes its 128 conversions and delivers a new channel sample. -/
  | housekeepingSlot (ch : Fin 24) (code : Half)
  /-- RAIL_VTARGET_WRITE (R54). A write of the output voltage target is checked and the slew continues toward the new destination. -/
  | railVtargetWrite (n : Fin 8) (v : Word)
  /-- RAIL_SLEW_WRITE (R87). A write of the slew rate is checked and sets the staged and in-force XSLEWSTEP. -/
  | railSlewWrite (n : Fin 8) (v : Word)
  /-- RAIL_LOADLINE_WRITE (R56). A write of the load-line resistance is checked and sets XLLGAIN. -/
  | railLoadlineWrite (n : Fin 8) (v : Word)
  /-- RAIL_ILIMIT_WRITE (R55). A write of the current command limits is stored or refused when IMIN exceeds IMAX. -/
  | railIlimitWrite (n : Fin 8) (v : Word)
  /-- RAIL_SOFTSTART_WRITE (R55). A write of the soft-start settings is stored or refused when PG_WIN is 0. -/
  | railSoftstartWrite (n : Fin 8) (v : Word)
  /-- RAIL_TE_COUT_WRITE (R134). A write of the output capacitance sets KSL and GSL for the DSPAN in force. -/
  | railTeCoutWrite (n : Fin 8) (v : Word)
  /-- RAIL_PWM_WRITE (R147). A write of the switching period is checked and takes effect at the rail's next boundary. -/
  | railPwmWrite (n : Fin 8) (v : Word)
  /-- RAIL_ADDSHED_WRITE (R147). A write of the add and shed thresholds is stored or refused. -/
  | railAddshedWrite (n : Fin 8) (v : Word)
  /-- RAIL_ENABLE (R84). Writing 1 to RAIL_CTRL.EN requests a rail enable through the girth check. -/
  | railEnable (n : Fin 8)
  /-- RAIL_DISABLE (R62). Writing 0 to RAIL_CTRL.EN starts the rail's configured shutdown without asserting FAULT_N. -/
  | railDisable (n : Fin 8)
  /-- TON_DELAY_EXPIRY (R59). The soft-start delay ends and the pre-bias measurement begins. -/
  | tonDelayExpiry (n : Fin 8)
  /-- PREBIAS_MEASUREMENT (R59). The four pre-bias windows complete, giving VPRE and VSLEW, or end the start with START_FAIL.
  `vs` holds the rail samples of the windows that no DECISION has brought. -/
  | prebiasMeasurement (n : Fin 8) (vs : List Int)
  /-- POWER_GOOD_QUALIFIED (R61). The error has stayed within PG_WIN for PG_DELAY, so POWER_GOOD becomes 1 and the spec guard begins supervising. -/
  | powerGoodQualified (n : Fin 8)
  /-- EXPERT_COMMIT (R90). Writing RAIL_XCTL.COMMIT checks the staged expert set and either refuses it or sets COMMIT_BUSY. -/
  | expertCommit (n : Fin 8)
  /-- COMMIT_TAKE_FORCE (R90). A waiting commit brings the staged set into force at the next level-2 update or when the loop stops. -/
  | commitTakeForce (n : Fin 8)
  /-- EXPERT_REVERT (R89). Writing RAIL_XCTL.REVERT restores every parameter to its image value and drops a waiting commit. -/
  | expertRevert (n : Fin 8)
  /-- SLICE_PERIOD_BOUNDARY (R78). At its own period boundary an active slice makes its on-edge and updates its balance term. -/
  | slicePeriodBoundary (i : Fin 32)
  /-- INTENT_FRAME (R110). A complete load-intent frame is checked and distributed to every rail whose tag matches. -/
  | intentFrame (frame : BitVec 40)
  /-- INTENT_FRAME_TRUNCATED (R111). A partial frame is followed by GAP idle cycles and is discarded as TRUNC. -/
  | intentFrameTruncated (edges : Nat)
  /-- INTENT_FRAME_LONG (R111). An edge after edge 19 before the gap is ignored and counted as LONG. -/
  | intentFrameLong
  /-- INTENT_PORT_STUCK (R112). A data line low or INT_CK high for 512 cycles without an edge makes the port stuck. -/
  | intentPortStuck (ck d0 d1 : Bool)
  /-- INTENT_PORT_UNSTUCK (R112). All lines idle for 512 cycles ends the stuck state. -/
  | intentPortUnstuck
  /-- HM_RELAY_LO_WRITE (R113). A write of HM_RELAY_LO delivers a relayed frame to Hawkmoth. -/
  | hmRelayLoWrite (v : Word)
  /-- HM_PORT_EN_WRITE (R136). A change of HM_CTRL.PORT_EN starts or stops the intent port. -/
  | hmPortEnWrite (en : Bool)
  /-- PREDICTION_BIAS_START (R117). At TS minus T_BIAS the ACTIVE prediction starts moving HMBIAS toward its target. -/
  | predictionBiasStart (n : Fin 8)
  /-- SCHEDULE_SEGMENT (R118). A segment of the prediction's schedule falls due and is placed as a transient placement. -/
  | scheduleSegment (n : Fin 8)
  /-- PREDICTION_MISS (R120). A prediction reaches W_END without a hit and is marked a miss. -/
  | predictionMiss (n : Fin 8)
  /-- REVERSAL (R121). In the decision after a miss, CANCEL or preemption, the prediction's schedule is cancelled and its placed charge and bias are undone. -/
  | reversal (n : Fin 8)
  /-- PREDICTION_END (R116). The ACTIVE prediction ends and NEXT, if held, becomes ACTIVE. -/
  | predictionEnd (n : Fin 8)
  /-- OBSERVATION_EXPIRY (R127). A pending observation expires unconsumed and lowers its entry's confidence. -/
  | observationExpiry (n : Fin 8)
  /-- SIGNATURE_LEARN (R125). At the end of a step event or hit, Hawkmoth consumes an observation and updates the signature entry. -/
  | signatureLearn (n : Fin 8)
  /-- SIGNATURE_AGE_TICK (R127). Every 2^AGE_DIV ms each valid entry ages, and one at AGE 15 loses confidence. -/
  | signatureAgeTick (n : Fin 8)
  /-- HMRAIL_CLEAR (R128). Writing HMRAILn_CTRL.CLEAR clears the rail's signature table, observations and score. -/
  | hmrailClear (n : Fin 8)
  /-- SIGNATURE_READ (R136). HM_SIGSEL.RD copies the selected entry into HM_SIGDATA0 and HM_SIGDATA1. -/
  | signatureRead (n : Fin 8) (e : Fin 64)
  /-- SIGNATURE_WRITE (R137). HM_SIGSEL.WR copies HM_SIGDATA0 and HM_SIGDATA1 into the entry, invalidating any duplicate key. -/
  | signatureWrite (n : Fin 8) (e : Fin 64)
  /-- SIGNATURE_EXCHANGE (R136). RD and WR written together exchange the entry with the data registers in one cycle. -/
  | signatureExchange (n : Fin 8) (e : Fin 64)
  /-- RAIL_TE_COUNT_READ (R131). A read of RAIL_TE_COUNT returns the event counts and clears them. -/
  | railTeCountRead (n : Fin 8)
  /-- PERIOD_BOUNDARY (R162). At the start of position 0's period the rail runs its boundary steps from the cut to the new active set. -/
  | periodBoundary (n : Fin 8)
  /-- SLICE_FORCE_FAULT (R185). Writing SLICE_CTRL.FORCE_FAULT makes a member or spare slice FAULTED with cause FORCED. -/
  | sliceForceFault (i : Fin 32)
  /-- STAGE_FAULT_SAMPLE (R158). STGFLTk_N sampled low opens the cluster's attribution window. -/
  | stageFaultSample (k : Fin 8) (low : Bool)
  /-- ATTRIBUTION_WINDOW_CLOSE (R158). The attribution window closes, faulting the whole cluster or recording a glitch when no slice was attributed. -/
  | attributionWindowClose (k : Fin 8) (low : Bool)
  /-- ENPIN_LOW (R166). ENn falls while ENPIN_USE is 1 and starts a shutdown with cause ENPIN. -/
  | enpinLow (n : Fin 8)
  /-- DISCHARGE_TIMEOUT (R168). DIS_TMAX passes and the discharge ends with every slice at tri-state. -/
  | dischargeTimeout (n : Fin 8)
  /-- CAL_OFFSET_DONE (R174). 256 raw codes have been averaged and the offset candidate is formed. -/
  | calOffsetDone (i : Fin 32)
  /-- CAL_PULSE_END (R174). A calibration pulse ends after its HIGH time and the slice returns to tri-state. -/
  | calPulseEnd (i : Fin 32)
  /-- CAL_RESULT (R176). After the last pulse the calibration results are formed and checked, faulting the slice on a failure. -/
  | calResult (i : Fin 32)
  /-- CAL_ZMAX_EXPIRY (R174). The ZERO condition does not hold within ZMAX, giving the result NO_ZERO. -/
  | calZmaxExpiry (i : Fin 32)
  /-- SLICE_READMIT (R179). Writing SLICE_CTRL.READMIT puts a FAULTED slice in READMIT and starts its open-wire test. -/
  | sliceReadmit (i : Fin 32)
  /-- SLICE_CAL_NOW (R172). Writing SLICE_CTRL.CAL_NOW puts the slice first in the calibration rotation. -/
  | sliceCalNow (i : Fin 32)
  /-- RING_CELL (R201). A 32-bit cell is received on a lane and forwarded with the owned fields written. -/
  | ringCell (lane : Fin 2) (cell : Word) (late : Nat)
  /-- LANE_RUN (R190). 64 consecutive valid cells bring a receive lane to RUN. -/
  | laneRun (lane : Fin 2)
  /-- LANE_FAILED (R190). 16 cell periods without a valid cell take a lane to FAILED and make the device head that stream. -/
  | laneFailed (lane : Fin 2)
  /-- CLOCK_VALID (R192). 256 well-spaced chain-clock periods make a clock input valid. -/
  | clockValid (port : Fin 2)
  /-- REF_CLOCK_LOST (R194). 16 missing REF edges put the PLL in holdover and move REF to the other port if possible. -/
  | refClockLost
  /-- RELOCK_DONE (R194). The PLL locks to the new REF and the clock state becomes LOCKED. -/
  | relockDone
  /-- CLOCK_LISTEN_DONE (R193). A non-REF clock pair quiet for the listen time starts driving the forwarded clock. -/
  | clockListenDone
  /-- HOLDOVER_EXPIRED (R196). Holdover reaches 2 ms and every rail of the device shuts down with cause HOLDOVER. -/
  | holdoverExpired
  /-- RT_SET (R197). An RT_SET message sets the device's ring time and ring size. -/
  | rtSet (payload : BitVec 40) (latency : Nat)
  /-- POSITION_WAIT_TIMEOUT (R209). 256 superframes without a valid RT_SET leave the device without a position and set ENUM_FAIL. -/
  | positionWaitTimeout
  /-- SPAN_START (R214). A SPAN_START message gives the ARMED members VPRE and the boundary 0 time. -/
  | spanStart (src : Fin 16) (ch : Fin 2) (payload : BitVec 40)
  /-- SPAN_PLAN (R213). A SPAN_PLAN message announces a rail-wide NR change for a named boundary. -/
  | spanPlan (src : Fin 16) (ch : Fin 2) (payload : BitVec 40)
  /-- SPAN_TARGET (R214). A SPAN_TARGET message sets a follower's VTARGET at the named ring time. -/
  | spanTarget (src : Fin 16) (ch : Fin 2) (payload : BitVec 40)
  /-- SPAN_XFER (R219). A SPAN_XFER message assigns a plan position to another member at a named boundary. -/
  | spanXfer (src : Fin 16) (ch : Fin 2) (payload : BitVec 40)
  /-- SIG_RELAY (R215). A SIG_RELAY message raises a source-3 prediction on a follower. -/
  | sigRelay (src : Fin 16) (ch : Fin 2) (payload : BitVec 40) (latency : Nat)
  /-- LEAD_MOVE (R217). A LEAD_MOVE message makes every member follow the new lead's shares. -/
  | leadMove (src : Fin 16) (ch : Fin 2) (payload : BitVec 40)
  /-- SPAN_READY (R206). A SPAN_READY message reports a member's FREE spares, admission state and staffed positions. -/
  | spanReady (src : Fin 16) (ch : Fin 2) (payload : BitVec 40)
  /-- SPAN_CAUSE (R218). A SPAN_CAUSE message reports the cause of a member's shutdown and is logged. -/
  | spanCause (src : Fin 16) (ch : Fin 2) (payload : BitVec 40)
  /-- WITHDRAWN (R219). A WITHDRAWN message tells the members that a device has left the channel. -/
  | withdrawn (src : Fin 16) (ch : Fin 2) (payload : BitVec 40)
  /-- ENUM_START (R207). Writing CHAIN_CTRL.ENUM_START on the root starts an enumeration. -/
  | enumStart
  /-- ENUM_TIMEOUT (R207). Lane 0 does not return within 10 µs, so the root enumerates in reverse from its hint or fails. -/
  | enumTimeout
  /-- SPAN_BEGIN (R214). At BT0 the lead and every ARMED member begin switching the spanning rail together. -/
  | spanBegin (ch : Fin 2)
  /-- SPAN_AUTO_ENTER (R216). MISS_LIM cell periods without a share put a follower in AUTO. -/
  | spanAutoEnter (ch : Fin 2)
  /-- SPAN_AUTO_EXIT (R216). After 16 periods with shares, a member in AUTO returns to following at the next boundary. -/
  | spanAutoExit (ch : Fin 2)
  /-- LEAD_TAKEOVER (R217). The deputy in AUTO for LEAD_LIM superframes becomes the lead and sends LEAD_MOVE. -/
  | leadTakeover (ch : Fin 2)
  /-- SPANCMD_WITHDRAW (R219). The WITHDRAW command at the lead starts moving a device's positions to other members. -/
  | spancmdWithdraw (ch : Fin 2) (pos : Fin 16)
  /-- SPANCMD_ADMIT (R220). The ADMIT command at the lead starts transferring a device's plan positions to it. -/
  | spancmdAdmit (ch : Fin 2) (pos : Fin 16)
  /-- SPANCMD_MOVE_LEAD (R219). The MOVE_LEAD command hands the lead to the deputy. -/
  | spancmdMoveLead (ch : Fin 2)
  /-- SPANCMD_ABORT (R221). The ABORT command cancels a withdraw or admit before its boundary's cut, or sets ABORT_LATE. -/
  | spancmdAbort (ch : Fin 2)
  /-- CHAIN_SPAN_CNT_READ (R222). A read of CHAIN_SPANc_CNT returns the miss and AUTO counts and clears them. -/
  | chainSpanCntRead (ch : Fin 2)
  /-- SCRUB_STEP (R225). The scrubber rewrites one plane word with its bitwise majority. -/
  | scrubStep
  /-- PLANE_WRITE (R38). A write to a plane window is stored in three cells or refused when the byte is in force. -/
  | planeWrite (m : Master) (addr : Word) (v : Word)
  /-- FABRIC_ENABLE (R244). Writing CFG_CTRL.FABRIC_EN 1 requests a fabric enable of the plane DEV_SEL names. -/
  | fabricEnable (sel : Fin 2)
  /-- FABRIC_DISABLE (R248). Writing FABRIC_EN 0 with no rail enabled takes every section out of force and returns to CONFIGURE. -/
  | fabricDisable
  /-- DEVICE_SWAP (R249). A device-scope CFG_SWAP requests moving the device and every rail to a plane. -/
  | deviceSwap (plane : Fin 2)
  /-- RAIL_SWAP (R249). A rail-scope CFG_SWAP requests moving one rail to a plane. -/
  | railSwap (n : Fin 8) (plane : Fin 2)
  /-- DEVICE_DRY_RUN (R247). A device-scope CFG_CHECK checks a plane without changing anything. -/
  | deviceDryRun (plane : Fin 2)
  /-- RAIL_DRY_RUN (R247). A rail-scope CFG_CHECK checks one rail's sections without changing anything. -/
  | railDryRun (n : Fin 8) (plane : Fin 2)
  /-- GIRTH_CHECK (R246). The girth check runs the next waiting request and accepts it with its effect or refuses it with a reason code. -/
  | girthCheck (en : BitVec 8)
  /-- SWAP_SECTIONS_TAKE_FORCE (R250). Device sections, and rails that are not enabled, change plane 4 cycles after a swap's acceptance. -/
  | swapSectionsTakeForce
  /-- ACCUM_RESTART (R263). Writing ACCUMu_CTRL.RESTART clears a unit's block and window tracking. -/
  | accumRestart (u : Fin 64)
  /-- ACCUM_AVG_READ (R264). A read of ACCUMu_AVG copies WMIN, WMAX and STAT into the read shadow. -/
  | accumAvgRead (u : Fin 64)
  /-- ACCUM_XROUTE_WRITE (R265). An expert routing write is checked and, if taken, overrides the unit's routing and restarts it. -/
  | accumXrouteWrite (u : Fin 64) (v : Word)
  /-- OPEN_WIRE_TEST (R267). ACCUM_OWCMD.GO starts a static open-wire test of a slice or rail, or reports REFUSED. -/
  | openWireTest (kind : Fin 2) (index : Fin 32)
  /-- OPEN_WIRE_TEST_END (R268). After four phases the static test classifies the input as connected, open or marginal. -/
  | openWireTestEnd
  /-- CAPTURE_START (R273). ACCUM_LOPCMD starts a step-response capture on a rail. -/
  | captureStart (n : Fin 8)
  /-- SWEEP_START (R275). ACCUM_LOPCMD starts an impedance sweep on a rail. -/
  | sweepStart (n : Fin 8)
  /-- CAL_PASS_START (R277). ACCUM_LOPCMD starts a full-rail calibration pass. -/
  | calPassStart (n : Fin 8)
  /-- LOP_ABORT (R272). ACCUM_LOPCMD.ABORT ends the running long operation as ABORTED or sets ABORT_LATE. -/
  | lopAbort
  /-- CAPTURE_TIMEOUT (R272). TMO passes without a trigger and the capture ends FAILED. -/
  | captureTimeout
  /-- PASS_WAIT_TIMEOUT (R272). A calibration pass waits longer than WAIT for a take-out and ends FAILED. -/
  | passWaitTimeout
  /-- LOG_WRITE (R285). The log writes the next queued entry into a slot, coalescing, spilling or overwriting as required. -/
  | logWrite
  /-- INCIDENT_CLOSE (R283). QUIET ms pass without a class-0 or class-1 arrival and the incident closes. -/
  | incidentClose
  /-- LOG_SWPOST (R282). Writing LOG_SWPOST posts a software entry or refuses it. -/
  | logSwpost (v : Word)
  /-- LOG_NEXT_READ (R288). A read of LOG_NEXT returns and pins the oldest unread slot for the reading master. -/
  | logNextRead
  /-- LOG_ACK (R288). Writing LOG_ACK marks the pinned entry read and releases the pin, or sets ACK_REJ. -/
  | logAck (v : Word)
  /-- LOG_RELEASE (R283). LOG_CTRL.RELEASE frees the freeze groups of closed incidents. -/
  | logRelease
  /-- LOG_CLRLOSS (R287). LOG_CTRL.CLRLOSS clears the four loss counters. -/
  | logClrloss
  /-- POR_ASSERT (R295). A main supply falls below its POR threshold and the device enters DORMANT with its outputs held. -/
  | porAssert (supply : Fin 4)
  /-- POR_RELEASE (R295). 1 ms after all POR supplies are valid, power-on reset releases and the device enters BOOT. -/
  | porRelease (strap : Fin 8) (root : Bool)
  /-- BROWNOUT_WARNING (R297). A brown-out warning comparator fires and the device enters SAFE. -/
  | brownoutWarning (w : Fin 7)
  /-- BAT_RESET (R299). The battery-domain supply falls below 1.45 V and the battery domain is reset. -/
  | batReset
  /-- MODECMD_STANDBY (R309). SYSCTL_MODECMD with MODE STANDBY puts the cores to sleep or is refused. -/
  | modecmdStandby
  /-- MODECMD_SAFE (R301). SYSCTL_MODECMD with MODE SAFE and the key makes the device enter SAFE. -/
  | modecmdSafe (key : Half)
  /-- MODECMD_BOOT (R304). SYSCTL_MODECMD with MODE BOOT and the key requests the controlled return from SAFE. -/
  | modecmdBoot (key : Half)
  /-- SAFE_RETURN (R304). Once every rail shutdown has ended, the requested return takes place as a SYS reset. -/
  | safeReturn
  /-- RESET_N_LOW (R305). RESET_N held low for 1 µs requests a SYS reset. -/
  | resetNLow
  /-- SOFTWARE_RESET (R305). SYSCTL_RESET with GO and the key requests a SYS reset. -/
  | softwareReset (v : Word)
  /-- DEBUG_RESET (R305). A JTAG reset request allowed by the debug state requests a SYS reset. -/
  | debugReset
  /-- SYS_RESET (R307). The SYS reset takes effect, once any deferring shutdowns have ended, clearing the state of R307. -/
  | sysReset
  /-- WAKE (R311). An enabled wake source returns the device from STANDBY to CONFIGURE and resumes the cores. -/
  | wake (source : Fin 6)
  /-- SLEEP_S0 (R309). At the first slow edge after the sleep the timers stop and the wake comparator is set. -/
  | sleepS0
  /-- SLEEP_S1_MAKEUP (R313). At the first slow edge at or after the wake the timers restart with the elapsed-time makeup. -/
  | sleepS1Makeup
  /-- TIMER_WAKE (R315). The wake comparator reaches its slow edge and wakes the device with source TIMER. -/
  | timerWake
  /-- ALARM_MATCH (R310). BD_TIME reaches BD_ALARM with ALARM_EN set, a wake source. -/
  | alarmMatch
  /-- SLOW_CLOCK_FAIL (R316). No slow edge for 250 µs clears OSC_OK and wakes a sleeping device. -/
  | slowClockFail
  /-- SLOW_CLOCK_OK (R316). 1,024 good slow edges set OSC_OK again. -/
  | slowClockOk
  /-- WATCHDOG_HALF (R325). Half the watchdog timeout passes and WDOG_WARN is set. -/
  | watchdogHalf
  /-- WATCHDOG_EXPIRY (R325). The full watchdog timeout passes and the device enters SAFE with cause WATCHDOG. -/
  | watchdogExpiry
  /-- WATCHDOG_KICK (R325). Writing SYSCTL_WDOGKICK with the key restarts the count; any other value counts as expiry. -/
  | watchdogKick (v : Word)
  /-- BD_TIME_LO_WRITE (R322). A write of BD_TIME_LO requests loading both halves of BD_TIME at the next slow edge. -/
  | bdTimeLoWrite (v : Word)
  /-- BD_TIME_LOAD (R322). At the next slow edge the held BD_TIME halves are loaded. -/
  | bdTimeLoad
  /-- BD_TIME_LO_READ (R322). A read of BD_TIME_LO copies BD_TIME_HI into its read shadow. -/
  | bdTimeLoRead
  /-- BD_CLEAR (R322). BD_CTRL.CLEAR with the key asserts BAT reset for one slow-clock period. -/
  | bdClear (key : Half)
  /-- PLL_LOCK (R334). The PLL reports lock and the ROM continues from step 3. -/
  | pllLock
  /-- BOOT_PLL_TIMEOUT (R334). A root's PLL has not locked 10 ms after step 1, so the device enters SAFE with BOOT_FAIL. -/
  | bootPllTimeout
  /-- KMAC (R361). The KMAC operation computes a keyed hash into the result window. -/
  | kmac
  /-- KDF (R339). The KDF operation derives a key into slot 7. -/
  | kdf
  /-- VERIFY (R329). The VERIFY operation checks a Falcon-1024 signature. -/
  | verify
  /-- VERIFY_SLOT (R331). The VERIFY_SLOT operation applies the slot checks to a bank or an SRAM copy and may set the seal. -/
  | verifySlot
  /-- ATTEST (R357). The ATTEST operation writes a signed attestation report. -/
  | attest
  /-- MINVER_RAISE (R340). The MINVER_RAISE operation programs minimum-version fuse steps up to SVN_NEXT. -/
  | minverRaise
  /-- LC_ADVANCE (R345). The LC_ADVANCE operation programs a life-cycle fuse group. -/
  | lcAdvance
  /-- PROVISION (R344). The PROVISION operation generates and stores the device roots and identity key. -/
  | provision
  /-- OWNER_KEY (R454). The OWNER_KEY operation writes, revokes or sets DEBUG on an owner key entry. -/
  | ownerKey
  /-- SECURE_OP_END (R362). A running SECURE operation completes as DONE or FAILED. -/
  | secureOpEnd (why : Fin 3)
  /-- SECURE_OP_ABORT (R362). SECURE_OPCMD.ABORT aborts the running operation, between fuse steps where needed. -/
  | secureOpAbort
  /-- DEBUG_UNLOCK (R347). A signed response through the debug mailbox opens debug or counts a failed try. -/
  | debugUnlock (keyidx : Byte) (pk sig : List Byte)
  /-- JTAG_PIN_DRIVE (R346). A pin-driving JTAG instruction acts, or acts as BYPASS while a rail is enabled. -/
  | jtagPinDrive (levels : BitVec 112)
  /-- TAMPER (R349). A tamper detection clears keys and seals, logs, and makes the device enter SAFE. -/
  | tamper (source : Fin 4)
  /-- MOV16 (R370). ALU16 f3 0 copies rs into rd. -/
  | mov16 (c : CoreId) (rd rs : Fin 16)
  /-- ADD16 (R370). ALU16 f3 1 adds rs to rd. -/
  | add16 (c : CoreId) (rd rs : Fin 16)
  /-- SUB16 (R370). ALU16 f3 2 subtracts rs from rd. -/
  | sub16 (c : CoreId) (rd rs : Fin 16)
  /-- AND16 (R370). ALU16 f3 3 ANDs rs into rd. -/
  | and16 (c : CoreId) (rd rs : Fin 16)
  /-- OR16 (R370). ALU16 f3 4 ORs rs into rd. -/
  | or16 (c : CoreId) (rd rs : Fin 16)
  /-- XOR16 (R370). ALU16 f3 5 XORs rs into rd. -/
  | xor16 (c : CoreId) (rd rs : Fin 16)
  /-- CMP16 (R374). ALU16 f3 6 sets the flags from rd minus rs. -/
  | cmp16 (c : CoreId) (rd rs : Fin 16)
  /-- TST16 (R374). ALU16 f3 7 sets N and Z from rd AND rs. -/
  | tst16 (c : CoreId) (rd rs : Fin 16)
  /-- LSL16 (R375). UN16 f3 0 shifts rd left by g[rs]. -/
  | lsl16 (c : CoreId) (rd rs : Fin 16)
  /-- LSR16 (R375). UN16 f3 1 shifts rd right logically by g[rs]. -/
  | lsr16 (c : CoreId) (rd rs : Fin 16)
  /-- ASR16 (R375). UN16 f3 2 shifts rd right arithmetically by g[rs]. -/
  | asr16 (c : CoreId) (rd rs : Fin 16)
  /-- ROR16 (R375). UN16 f3 3 rotates rd right by g[rs]. -/
  | ror16 (c : CoreId) (rd rs : Fin 16)
  /-- NEG16 (R370). UN16 f3 4 sets rd to 0 minus rs. -/
  | neg16 (c : CoreId) (rd rs : Fin 16)
  /-- NOT16 (R370). UN16 f3 5 sets rd to NOT rs. -/
  | not16 (c : CoreId) (rd rs : Fin 16)
  /-- CLZ16 (R370). UN16 f3 6 counts the leading zeros of rs. -/
  | clz16 (c : CoreId) (rd rs : Fin 16)
  /-- REV16 (R370). UN16 f3 7 reverses the bytes of rs into rd. -/
  | rev16 (c : CoreId) (rd rs : Fin 16)
  /-- MOVI16 (R370). rd takes the sign-extended 7-bit immediate. -/
  | movi16 (c : CoreId) (rd : Fin 16) (imm : BitVec 7)
  /-- ADDI16 (R370). rd takes rd plus the sign-extended 7-bit immediate. -/
  | addi16 (c : CoreId) (rd : Fin 16) (imm : BitVec 7)
  /-- CMPI16 (R370). The flags take rd minus the sign-extended 7-bit immediate. -/
  | cmpi16 (c : CoreId) (rd : Fin 16) (imm : BitVec 7)
  /-- SHI16 (R370). rd is shifted or rotated by an immediate amount. -/
  | shi16 (c : CoreId) (rd : Fin 16) (kind : Fin 4) (sh : Fin 32)
  /-- LDW16 (R370). rd is loaded from a word at g[rs] plus a scaled offset. -/
  | ldw16 (c : CoreId) (rd rs : Fin 16) (u : Fin 8)
  /-- STW16 (R370). rd is stored as a word at g[rs] plus a scaled offset. -/
  | stw16 (c : CoreId) (rd rs : Fin 16) (u : Fin 8)
  /-- LDHU16 (R370). rd is loaded from an unsigned halfword. -/
  | ldhu16 (c : CoreId) (rd rs : Fin 16) (u : Fin 8)
  /-- STH16 (R370). The low halfword of rd is stored. -/
  | sth16 (c : CoreId) (rd rs : Fin 16) (u : Fin 8)
  /-- LDBU16 (R370). rd is loaded from an unsigned byte. -/
  | ldbu16 (c : CoreId) (rd rs : Fin 16) (u : Fin 8)
  /-- STB16 (R370). The low byte of rd is stored. -/
  | stb16 (c : CoreId) (rd rs : Fin 16) (u : Fin 8)
  /-- LDWSP (R370). rd is loaded from a word at g15 plus a scaled offset. -/
  | ldwsp (c : CoreId) (rd : Fin 16) (u : Fin 128)
  /-- STWSP (R370). rd is stored as a word at g15 plus a scaled offset. -/
  | stwsp (c : CoreId) (rd : Fin 16) (u : Fin 128)
  /-- BCC16 (R370). A short conditional branch is taken when its condition holds. -/
  | bcc16 (c : CoreId) (cond : Fin 16) (off : BitVec 7)
  /-- BR16 (R370). A short unconditional branch. -/
  | br16 (c : CoreId) (off : BitVec 11)
  /-- CALL16 (R370). A short call that writes the return address into g14. -/
  | call16 (c : CoreId) (off : BitVec 11)
  /-- JR (R371). PC takes g[rs], or ALIGN is raised for an odd target. -/
  | jr (c : CoreId) (rs : Fin 16) (z : BitVec 4)
  /-- CALLR (R371). A call to g[rs] that writes the return address into g14. -/
  | callr (c : CoreId) (rs : Fin 16) (z : BitVec 4)
  /-- RET (R371). PC takes g14. -/
  | ret (c : CoreId) (z : BitVec 8)
  /-- PUSH (R371). g15 is lowered by 4 and rd is stored at it. -/
  | push (c : CoreId) (rd : Fin 16) (z : BitVec 4)
  /-- POP (R371). rd is loaded from g15 and g15 is raised by 4. -/
  | pop (c : CoreId) (rd : Fin 16) (z : BitVec 4)
  /-- SEXTB (R371). rd takes the sign-extended low byte of rs. -/
  | sextb (c : CoreId) (rd rs : Fin 16)
  /-- SEXTH (R371). rd takes the sign-extended low halfword of rs. -/
  | sexth (c : CoreId) (rd rs : Fin 16)
  /-- ZEXTH (R371). rd takes the zero-extended low halfword of rs. -/
  | zexth (c : CoreId) (rd rs : Fin 16)
  /-- NOP (R392). No operation. -/
  | nop (c : CoreId) (imm : BitVec 7)
  /-- SYNC (R392). Retires once every earlier instruction has retired and every earlier store is acknowledged. -/
  | sync (c : CoreId) (imm : BitVec 7)
  /-- SVC (R392). Raises the SVC exception with its immediate recorded. -/
  | svc (c : CoreId) (imm : BitVec 7)
  /-- BRK (R392). Raises BRK or halts into core debug when debug is allowed. -/
  | brk (c : CoreId) (imm : BitVec 7)
  /-- WFE (R392). Waits in supervisor state until an event above IPL is pending. -/
  | wfe (c : CoreId) (imm : BitVec 7)
  /-- ATOM (R389). Opens an atomic window for the next n instructions. -/
  | atom (c : CoreId) (imm : BitVec 7)
  /-- ATEND (R389). Closes an open atomic window, or acts as NOP. -/
  | atend (c : CoreId) (imm : BitVec 7)
  /-- ERET (R409). Returns from an exception by restoring the registers from the TSB. -/
  | eret (c : CoreId) (imm : BitVec 7)
  /-- LPCLR (R392). Clears the counts of the masked hardware loops. -/
  | lpclr (c : CoreId) (imm : BitVec 7)
  /-- ADD (R374). ALU func 0x0 adds, optionally setting the flags. -/
  | add (c : CoreId) (rd rs1 rs2 : Fin 16) (sets : Bool) (z : BitVec 7)
  /-- SUB (R374). ALU func 0x1 subtracts, optionally setting the flags. -/
  | sub (c : CoreId) (rd rs1 rs2 : Fin 16) (sets : Bool) (z : BitVec 7)
  /-- AND (R374). ALU func 0x2 forms the bitwise AND. -/
  | and (c : CoreId) (rd rs1 rs2 : Fin 16) (sets : Bool) (z : BitVec 7)
  /-- OR (R374). ALU func 0x3 forms the bitwise OR. -/
  | or (c : CoreId) (rd rs1 rs2 : Fin 16) (sets : Bool) (z : BitVec 7)
  /-- XOR (R374). ALU func 0x4 forms the bitwise XOR. -/
  | xor (c : CoreId) (rd rs1 rs2 : Fin 16) (sets : Bool) (z : BitVec 7)
  /-- ANDN (R374). ALU func 0x5 forms a AND NOT b. -/
  | andn (c : CoreId) (rd rs1 rs2 : Fin 16) (sets : Bool) (z : BitVec 7)
  /-- LSL (R375). ALU func 0x6 shifts left by a register amount. -/
  | lsl (c : CoreId) (rd rs1 rs2 : Fin 16) (sets : Bool) (z : BitVec 7)
  /-- LSR (R375). ALU func 0x7 shifts right logically by a register amount. -/
  | lsr (c : CoreId) (rd rs1 rs2 : Fin 16) (sets : Bool) (z : BitVec 7)
  /-- ASR (R375). ALU func 0x8 shifts right arithmetically by a register amount. -/
  | asr (c : CoreId) (rd rs1 rs2 : Fin 16) (sets : Bool) (z : BitVec 7)
  /-- ROR (R375). ALU func 0x9 rotates right by a register amount. -/
  | ror (c : CoreId) (rd rs1 rs2 : Fin 16) (sets : Bool) (z : BitVec 7)
  /-- ADC (R374). ALU func 0xA adds with carry. -/
  | adc (c : CoreId) (rd rs1 rs2 : Fin 16) (sets : Bool) (z : BitVec 7)
  /-- SBC (R374). ALU func 0xB subtracts with borrow. -/
  | sbc (c : CoreId) (rd rs1 rs2 : Fin 16) (sets : Bool) (z : BitVec 7)
  /-- MIN (R374). ALU func 0xC forms the signed minimum. -/
  | min (c : CoreId) (rd rs1 rs2 : Fin 16) (sets : Bool) (z : BitVec 7)
  /-- MAX (R374). ALU func 0xD forms the signed maximum. -/
  | max (c : CoreId) (rd rs1 rs2 : Fin 16) (sets : Bool) (z : BitVec 7)
  /-- MINU (R374). ALU func 0xE forms the unsigned minimum. -/
  | minu (c : CoreId) (rd rs1 rs2 : Fin 16) (sets : Bool) (z : BitVec 7)
  /-- MAXU (R374). ALU func 0xF forms the unsigned maximum. -/
  | maxu (c : CoreId) (rd rs1 rs2 : Fin 16) (sets : Bool) (z : BitVec 7)
  /-- MUL (R376). rd takes the low 32 bits of the product. -/
  | mul (c : CoreId) (rd rs1 rs2 : Fin 16) (z : BitVec 8)
  /-- MULHS (R376). rd takes the high 32 bits of the signed product. -/
  | mulhs (c : CoreId) (rd rs1 rs2 : Fin 16) (z : BitVec 8)
  /-- MULHU (R376). rd takes the high 32 bits of the unsigned product. -/
  | mulhu (c : CoreId) (rd rs1 rs2 : Fin 16) (z : BitVec 8)
  /-- DIVS (R376). rd takes the signed quotient truncated toward zero. -/
  | divs (c : CoreId) (rd rs1 rs2 : Fin 16) (z : BitVec 8)
  /-- DIVU (R376). rd takes the unsigned quotient. -/
  | divu (c : CoreId) (rd rs1 rs2 : Fin 16) (z : BitVec 8)
  /-- REMS (R376). rd takes the signed remainder. -/
  | rems (c : CoreId) (rd rs1 rs2 : Fin 16) (z : BitVec 8)
  /-- REMU (R376). rd takes the unsigned remainder. -/
  | remu (c : CoreId) (rd rs1 rs2 : Fin 16) (z : BitVec 8)
  /-- MAC (R376). rd accumulates the low 32 bits of the product. -/
  | mac (c : CoreId) (rd rs1 rs2 : Fin 16) (z : BitVec 8)
  /-- ADDI (R372). rd takes rs1 plus a sign-extended 16-bit immediate. -/
  | addi (c : CoreId) (rd rs1 : Fin 16) (imm : Half)
  /-- ANDI (R372). rd takes rs1 AND a zero-extended immediate. -/
  | andi (c : CoreId) (rd rs1 : Fin 16) (imm : Half)
  /-- ORI (R372). rd takes rs1 OR a zero-extended immediate. -/
  | ori (c : CoreId) (rd rs1 : Fin 16) (imm : Half)
  /-- XORI (R372). rd takes rs1 XOR a zero-extended immediate. -/
  | xori (c : CoreId) (rd rs1 : Fin 16) (imm : Half)
  /-- MOVHI (R372). rd takes the immediate shifted left by 16. -/
  | movhi (c : CoreId) (rd : Fin 16) (z : BitVec 4) (imm : Half)
  /-- CMPI (R372). The flags take rs1 minus a sign-extended immediate. -/
  | cmpi (c : CoreId) (rs1 : Fin 16) (z : BitVec 4) (imm : Half)
  /-- SHI (R375). rd takes rs1 shifted or rotated by an immediate, optionally setting the flags. -/
  | shi (c : CoreId) (rd rs1 : Fin 16) (imm : Half)
  /-- BFX (R382). Extracts a bit field, optionally sign-extended. -/
  | bfx (c : CoreId) (rd rs1 : Fin 16) (imm : Half)
  /-- BFI (R382). Inserts a bit field into rd. -/
  | bfi (c : CoreId) (rd rs1 : Fin 16) (imm : Half)
  /-- CLZ (R383). BITOP counts the leading zero bits. -/
  | clz (c : CoreId) (rd rs1 : Fin 16) (z : BitVec 12)
  /-- CLS (R383). BITOP counts the leading sign bits. -/
  | cls (c : CoreId) (rd rs1 : Fin 16) (z : BitVec 12)
  /-- CTZ (R383). BITOP counts the trailing zero bits. -/
  | ctz (c : CoreId) (rd rs1 : Fin 16) (z : BitVec 12)
  /-- POPC (R383). BITOP counts the 1 bits. -/
  | popc (c : CoreId) (rd rs1 : Fin 16) (z : BitVec 12)
  /-- REV (R383). BITOP reverses the bytes. -/
  | rev (c : CoreId) (rd rs1 : Fin 16) (z : BitVec 12)
  /-- REVH (R383). BITOP exchanges the bytes within each halfword. -/
  | revh (c : CoreId) (rd rs1 : Fin 16) (z : BitVec 12)
  /-- RBIT (R383). BITOP reverses the bits. -/
  | rbit (c : CoreId) (rd rs1 : Fin 16) (z : BitVec 12)
  /-- PERMR (R384). Permutes bytes using selector nibbles from the old rd. -/
  | permr (c : CoreId) (rd rs1 rs2 : Fin 16) (z : BitVec 8)
  /-- PERM (R384). Permutes the eight source bytes by the selectors in func. -/
  | perm (c : CoreId) (rd rs1 rs2 : Fin 16) (func : BitVec 12)
  /-- ADR (R372). rd takes PC plus a sign-extended immediate. -/
  | adr (c : CoreId) (rd : Fin 16) (z : BitVec 4) (imm : Half)
  /-- LDW (R377). Loads a word. -/
  | ldw (c : CoreId) (rd rs1 : Fin 16) (imm : Half)
  /-- LDH (R377). Loads a signed halfword. -/
  | ldh (c : CoreId) (rd rs1 : Fin 16) (imm : Half)
  /-- LDHU (R377). Loads an unsigned halfword. -/
  | ldhu (c : CoreId) (rd rs1 : Fin 16) (imm : Half)
  /-- LDB (R377). Loads a signed byte. -/
  | ldb (c : CoreId) (rd rs1 : Fin 16) (imm : Half)
  /-- LDBU (R377). Loads an unsigned byte. -/
  | ldbu (c : CoreId) (rd rs1 : Fin 16) (imm : Half)
  /-- STW (R377). Stores a word. -/
  | stw (c : CoreId) (rd rs1 : Fin 16) (imm : Half)
  /-- STH (R377). Stores a halfword. -/
  | sth (c : CoreId) (rd rs1 : Fin 16) (imm : Half)
  /-- STB (R377). Stores a byte. -/
  | stb (c : CoreId) (rd rs1 : Fin 16) (imm : Half)
  /-- XMEM (R378). Loads or stores with register-indexed, post- or pre-increment addressing. -/
  | xmem (c : CoreId) (rd rs1 rs2 : Fin 16) (func : BitVec 12)
  /-- BCC (R372). A long conditional branch. -/
  | bcc (c : CoreId) (cond : Fin 16) (off : BitVec 20)
  /-- BR (R372). A long unconditional branch. -/
  | br (c : CoreId) (off : BitVec 24)
  /-- CALL (R372). A long call that writes the return address into g14. -/
  | call (c : CoreId) (off : BitVec 24)
  /-- LP (R379). Sets up a hardware loop, or skips its body for a count of 0. -/
  | lp (c : CoreId) (l : Fin 4) (r : Bool) (cnt : BitVec 9) (endoff : BitVec 12)
  /-- MFS (R366). Reads a special register by number. -/
  | mfs (c : CoreId) (rd : Fin 16) (z : BitVec 4) (imm : Half)
  /-- MTS (R366). Writes a special register by number. -/
  | mts (c : CoreId) (rs1 : Fin 16) (z : BitVec 4) (imm : Half)
  /-- BCOPY (R386). Copies a byte range ascending in interruptible steps. -/
  | bcopy (c : CoreId) (rd rs1 rs2 : Fin 16) (z : BitVec 8)
  /-- BMOVE (R386). Copies a byte range correctly when the ranges overlap. -/
  | bmove (c : CoreId) (rd rs1 rs2 : Fin 16) (z : BitVec 8)
  /-- BFILL (R386). Fills a byte range with a byte value. -/
  | bfill (c : CoreId) (rd rs1 rs2 : Fin 16) (z : BitVec 8)
  /-- BCMP (R386). Compares two byte ranges until the first difference. -/
  | bcmp (c : CoreId) (rd rs1 rs2 : Fin 16) (z : BitVec 8)
  /-- EVENT_ENTRY (R412). A pending event of highest priority is taken at an instruction boundary. -/
  | eventEntry
  /-- WINDOW_CYCLE_LIMIT (R415). An atomic window reaches WINMAX cycles, closes and raises ATOMIC. -/
  | windowCycleLimit (c : CoreId)
  /-- CHECKPOINT (R417). 4,096 retired instructions or a full log take a lockstep checkpoint. -/
  | checkpoint
  /-- SELF_TEST_END (R420). The core self-test ends, fencing a core, resuming lockstep or failing lockstep. -/
  | selfTestEnd (passA passB : Bool) (us : Half)
  /-- HO_SPLIT (R422). CORE_HOCMD SPLIT starts core B on the new image while core A continues. -/
  | hoSplit (c : CoreId) (bank : Fin 2) (key : Half)
  /-- HO_XFER (R422). CORE_HOXFER passes the masked blocks from core A to core B. -/
  | hoXfer (c : CoreId) (mask : Word)
  /-- HO_PARK (R422). CORE_HOCMD PARK stops core A once it owns no block. -/
  | hoPark (c : CoreId) (key : Half)
  /-- HO_JOIN (R422). CORE_HOCMD JOIN starts copying core B's state into core A. -/
  | hoJoin (c : CoreId) (key : Half)
  /-- JOIN_COMPLETE (R422). 160 cycles after JOIN both cores run core B's stream in lockstep. -/
  | joinComplete
  /-- HO_ABORT (R425). CORE_HOCMD ABORT stops core B and resumes lockstep on core A's stream. -/
  | hoAbort (c : CoreId) (key : Half)
  /-- EVENT_SWSET (R427). Writing EVENT_SWSET raises the selected software events. -/
  | eventSwset (v : Word)
  /-- EVENT_SWCLR (R427). Writing EVENT_SWCLR clears the selected software events. -/
  | eventSwclr (v : Word)
  /-- CACHE_INV_I (R396). CORE_CACHE.INV_I invalidates the instruction cache. -/
  | cacheInvI
  /-- CACHE_INV_BTB (R396). CORE_CACHE.INV_BTB invalidates the branch-target buffer. -/
  | cacheInvBtb
  /-- RAM_SCRUB_STEP (R437). The RAM scrubber reads and corrects one word. -/
  | ramScrubStep
  /-- FLASH_PROGRAM (R441). FLASHC PROGRAM programs a page from the page buffer. -/
  | flashProgram (key : Half)
  /-- FLASH_ERASE (R444). FLASHC ERASE erases a block, keeping its erase record. -/
  | flashErase (key : Half)
  /-- FLASH_SUSPEND (R445). FLASHC SUSPEND requests suspension of the running erase. -/
  | flashSuspend (key : Half)
  /-- ERASE_SUSPENDED (R445). The erase stops and stands suspended, freeing the foreground. -/
  | eraseSuspended
  /-- FLASH_RESUME (R445). FLASHC RESUME makes the suspended erase the foreground command again. -/
  | flashResume (key : Half)
  /-- FLASH_BCHECK (R451). FLASHC BCHECK classifies a block. -/
  | flashBcheck (key : Half)
  /-- FLASH_MREAD (R441). FLASHC MREAD reads a page at a chosen level into the page buffer. -/
  | flashMread (key : Half) (lvl : Fin 4)
  /-- FLASH_ABORT (R447). FLASHC ABORT stops the foreground erase, check or read, or abandons a suspended erase. -/
  | flashAbort (key : Half)
  /-- FLASH_COMMAND_END (R441). A foreground flash command ends DONE or FAILED. -/
  | flashCommandEnd (ok : Bool) (pulses : Byte)
  /-- DMA_START (R459). CHn_CTRL.START starts a channel at its first descriptor, or is refused. -/
  | dmaStart (n : Fin 16)
  /-- DMA_DESCRIPTOR (R459). A channel fetches, checks, waits for the trigger of, moves and writes back one descriptor. -/
  | dmaDescriptor (n : Fin 16)
  /-- DMA_ABORT (R463). CHn_CTRL.ABORT stops the channel after the access in progress. -/
  | dmaAbort (n : Fin 16)
  /-- STITCH_START (R474). STITCH_EN bits changing to 1 request a start group through the girth check. -/
  | stitchStart (mask : BitVec 8)
  /-- STITCH_SYNC_START (R474). The START mask of STITCH_SYNC requests a start group. -/
  | stitchSyncStart (mask restart : BitVec 8)
  /-- STITCH_GROUP_START (R474). After every check is accepted the whole group starts in cycle S. -/
  | stitchGroupStart
  /-- STITCH_STOP (R476). A STITCH_EN bit changing to 0 stops the engine and releases its pins. -/
  | stitchStop (e : Fin 8)
  /-- STITCH_CLOCK_RESTART (R475). The RESTART mask sets the dividers of the masked engines to 0. -/
  | stitchClockRestart (mask : BitVec 8)
  /-- BRA (R477). Stitch branch on a condition. -/
  | bra (e cond arg : Fin 8) (target : Fin 32) (ins : List (BitVec 8))
  /-- DBNZ (R478). Stitch decrement of a counter and branch if not zero. -/
  | dbnz (e : Fin 8) (c : Fin 2) (target : Fin 32) (ins : List (BitVec 8))
  /-- WAITL (R477). Stitch wait for a pin level. -/
  | waitl (e : Fin 8) (pol : Bool) (pin : Fin 8) (ins : List (BitVec 8))
  /-- WAITE (R477). Stitch wait for a pin edge. -/
  | waite (e : Fin 8) (pol : Bool) (pin : Fin 8) (ins : List (BitVec 8))
  /-- WAITF (R477). Stitch wait for a handshake flag, optionally clearing it. -/
  | waitf (e : Fin 8) (pol : Bool) (flag : Fin 4) (clr : Bool) (ins : List (BitVec 8))
  /-- WAITT (R477). Stitch wait for N ticks. -/
  | waitt (e : Fin 8) (n : Fin 2048) (ins : List (BitVec 8))
  /-- SHO (R479). Stitch shift out of SOUT for a number of steps. -/
  | sho (e : Fin 8) (cm : Fin 4) (steps : Fin 32) (ins : List (BitVec 8))
  /-- STITCH_SHI (R479). Stitch shift into SIN for a number of steps. -/
  | stitchShi (e : Fin 8) (cm : Fin 4) (steps : Fin 32) (ins : List (BitVec 8))
  /-- PIN (R477). Stitch drive, toggle or release of one pin. -/
  | pin (e pin : Fin 8) (act : Fin 4) (ins : List (BitVec 8))
  /-- PSET (R477). Stitch set of LATCH or DIRS. -/
  | pset (e : Fin 8) (dirs : Bool) (v : BitVec 8) (ins : List (BitVec 8))
  /-- LDC (R478). Stitch load of a counter. -/
  | ldc (e : Fin 8) (c : Fin 2) (fill : Bool) (v : BitVec 9) (ins : List (BitVec 8))
  /-- XFER (R478). Stitch transfer between engine registers with an optional byte function. -/
  | xfer (e dst src : Fin 8) (fn : Fin 4) (ins : List (BitVec 8))
  /-- PUB (R480). Stitch CTL publishes SIN for software. -/
  | pub (e : Fin 8) (ins : List (BitVec 8))
  /-- EMPTY (R480). Stitch CTL empties SOUT. -/
  | empty (e : Fin 8) (ins : List (BitVec 8))
  /-- SETF (R482). Stitch CTL sets a handshake flag. -/
  | setf (e : Fin 8) (fl : Fin 4) (ins : List (BitVec 8))
  /-- CLRF (R482). Stitch CTL clears a handshake flag. -/
  | clrf (e : Fin 8) (fl : Fin 4) (ins : List (BitVec 8))
  /-- EVT (R478). Stitch CTL sets FLAGS.EVT. -/
  | evt (e : Fin 8) (ins : List (BitVec 8))
  /-- HALT (R478). Stitch CTL halts fetching. -/
  | halt (e : Fin 8) (ins : List (BitVec 8))
  /-- SHCFG0 (R478). Stitch sets the shift configuration MSB first. -/
  | shcfg0 (e outb inb : Fin 8) (width : Fin 4) (k : Fin 8) (ins : List (BitVec 8))
  /-- SHCFG1 (R478). Stitch sets the shift configuration LSB first. -/
  | shcfg1 (e outb inb : Fin 8) (width : Fin 4) (k : Fin 8) (ins : List (BitVec 8))
  /-- POST (R485). Stitch posts a token to Hawkmoth. -/
  | post (e : Fin 8) (sin : Bool) (ins : List (BitVec 8))
  /-- RELAY (R485). Stitch relays a 40-bit frame to Hawkmoth. -/
  | relay (e : Fin 8) (ins : List (BitVec 8))
  /-- STITCH_SOUT_WRITE (R481). A write of STITCHe_SOUT loads SOUT when it is empty, or is discarded. -/
  | stitchSoutWrite (e : Fin 8) (v : Word)
  /-- STITCH_SIN_READ (R481). A read of STITCHe_SIN returns SIN and clears it when published. -/
  | stitchSinRead (e : Fin 8)
  /-- STITCH_HSSET (R482). Software sets handshake flags. -/
  | stitchHsset (e : Fin 8) (mask : Fin 16)
  /-- STITCH_HSCLR (R482). Software clears handshake flags. -/
  | stitchHsclr (e : Fin 8) (mask : Fin 16)
  /-- STITCH_INJECT (R483). A write of STITCHe_INJECT gives the engine one instruction to run. -/
  | stitchInject (e : Fin 8) (v : Word)
  /-- STITCH_IMEM_WRITE (R484). A write of an instruction word takes effect at its next fetch. -/
  | stitchImemWrite (e : Fin 8) (w : Fin 32) (v : Word)
  /-- PAGE (R493). PMBus PAGE reads or selects the rail of later commands. -/
  | page (x : HostXact)
  /-- OPERATION (R493). PMBus OPERATION reads the rail's on state or offers an enable or disable to firmware. -/
  | operation (x : HostXact)
  /-- ON_OFF_CONFIG (R493). PMBus ON_OFF_CONFIG returns the on-off configuration. -/
  | onOffConfig (x : HostXact)
  /-- CLEAR_FAULTS (R496). PMBus CLEAR_FAULTS clears latched status bits. -/
  | clearFaults (x : HostXact)
  /-- WRITE_PROTECT (R496). PMBus WRITE_PROTECT reads or sets the write protection. -/
  | writeProtect (x : HostXact)
  /-- CAPABILITY (R493). PMBus CAPABILITY returns 0xD0. -/
  | capability (x : HostXact)
  /-- VOUT_MODE (R493). PMBus VOUT_MODE returns 0x14. -/
  | voutMode (x : HostXact)
  /-- VOUT_COMMAND (R494). PMBus VOUT_COMMAND reads or offers the voltage target. -/
  | voutCommand (x : HostXact)
  /-- VOUT_TRANSITION_RATE (R494). PMBus VOUT_TRANSITION_RATE reads or offers the slew rate. -/
  | voutTransitionRate (x : HostXact)
  /-- VOUT_DROOP (R494). PMBus VOUT_DROOP reads or offers the load line. -/
  | voutDroop (x : HostXact)
  /-- STATUS_BYTE (R495). PMBus STATUS_BYTE returns the page's status byte. -/
  | statusByte (x : HostXact)
  /-- STATUS_WORD (R495). PMBus STATUS_WORD returns the page's status word. -/
  | statusWord (x : HostXact)
  /-- STATUS_VOUT (R495). PMBus STATUS_VOUT returns the output-voltage status. -/
  | statusVout (x : HostXact)
  /-- STATUS_IOUT (R495). PMBus STATUS_IOUT returns the output-current status. -/
  | statusIout (x : HostXact)
  /-- STATUS_INPUT (R495). PMBus STATUS_INPUT returns the input status. -/
  | statusInput (x : HostXact)
  /-- STATUS_TEMPERATURE (R495). PMBus STATUS_TEMPERATURE returns the temperature status. -/
  | statusTemperature (x : HostXact)
  /-- STATUS_CML (R495). PMBus STATUS_CML returns the communication status. -/
  | statusCml (x : HostXact)
  /-- STATUS_MFR_SPECIFIC (R495). PMBus STATUS_MFR_SPECIFIC returns the manufacturer status. -/
  | statusMfrSpecific (x : HostXact)
  /-- READ_VIN (R494). PMBus READ_VIN returns the input voltage. -/
  | readVin (x : HostXact)
  /-- READ_VOUT (R494). PMBus READ_VOUT returns the output voltage. -/
  | readVout (x : HostXact)
  /-- READ_IOUT (R494). PMBus READ_IOUT returns the rail current. -/
  | readIout (x : HostXact)
  /-- READ_TEMPERATURE_1 (R493). PMBus READ_TEMPERATURE_1 returns the hottest stage temperature of the rail. -/
  | readTemperature1 (x : HostXact)
  /-- READ_TEMPERATURE_2 (R493). PMBus READ_TEMPERATURE_2 returns the higher die temperature. -/
  | readTemperature2 (x : HostXact)
  /-- PMBUS_REVISION (R493). PMBus PMBUS_REVISION returns 0x33. -/
  | pmbusRevision (x : HostXact)
  /-- MFR_ID (R493). PMBus MFR_ID returns the manufacturer string. -/
  | mfrId (x : HostXact)
  /-- MFR_MODEL (R493). PMBus MFR_MODEL returns the model string. -/
  | mfrModel (x : HostXact)
  /-- MFR_DEVICE_STATE (R497). Returns the mode, chain, security and boot state. -/
  | mfrDeviceState (x : HostXact)
  /-- MFR_LOG_NEXT (R498). Returns and pins the oldest unread log entry for the host. -/
  | mfrLogNext (x : HostXact)
  /-- MFR_LOG_ACK (R498). Acknowledges the host's pinned log slot. -/
  | mfrLogAck (x : HostXact)
  /-- MFR_LOG_STATUS (R497). Returns the log status and loss counts. -/
  | mfrLogStatus (x : HostXact)
  /-- MFR_RAIL_STATUS (R497). Returns the page's rail status registers. -/
  | mfrRailStatus (x : HostXact)
  /-- MFR_READ_REG (R498). Returns the value of an allowed register address. -/
  | mfrReadReg (x : HostXact)
  /-- MFR_SAFE_RETURN (R497). Requests the controlled return from SAFE with the key. -/
  | mfrSafeReturn (x : HostXact)
  /-- MFR_FW_MAILBOX (R497). Passes a block to or from firmware. -/
  | mfrFwMailbox (x : HostXact)
  /-- ALERT_RESPONSE (R499). A read at the alert response address returns the device address and may clear the pending alerts. -/
  | alertResponse (won : Bool)
  /-- FW_ACK (R492). Writing HB_FWACK ends the offer of a firmware-served command and releases the stretch. -/
  | fwAck (v : Word)
  /-- FW_TIMEOUT (R491). FWTO expires while stretching, so the device withholds or answers 0xFF and latches other-fault. -/
  | fwTimeout
  /-- SMBUS_SCL_TIMEOUT (R500). SCL low for 25 ms in a transaction makes the device release the bus and return to idle. -/
  | smbusSclTimeout
  /-- SMBUS_SDA_STUCK (R500). SDA low for 25 ms while the device drives nothing is reported as stuck. -/
  | smbusSdaStuck
  /-- SMBUS_STUCK_CLEAR (R500). Both lines high for 1 ms set STUCK_CLR. -/
  | smbusStuckClear
  /-- UART_RX_CHARACTER (R505). A received character enters the RX queue with its error bits. -/
  | uartRxCharacter (u : Fin 2) (samples : List Bool)
  /-- UART_BREAK_RX (R508). A received break enters the RX queue. -/
  | uartBreakRx (u : Fin 2) (len : Half)
  /-- UART_LINE_FAULT (R508). A low lasting BRK_MAX bit times is a line fault and holds the receiver off. -/
  | uartLineFault (u : Fin 2)
  /-- UART_LINE_OK (R508). The line high for 11 bit times ends the hold-off. -/
  | uartLineOk (u : Fin 2)
  /-- UART_TX_FRAME (R503). The transmitter sends the character at the head of the TX queue, handling collisions in HALF. -/
  | uartTxFrame (u : Fin 2) (readback : List Bool)
  /-- UART_RETRY (R507). After a collision and the idle wait the character is sent again. -/
  | uartRetry (u : Fin 2) (readback : List Bool)
  /-- UART_TXQ_WRITE (R510). A write of UART_TXQ queues a character or is discarded when full. -/
  | uartTxqWrite (u : Fin 2) (v : Word)
  /-- UART_RXQ_READ (R509). A read of UART_RXQ returns and removes the oldest entry. -/
  | uartRxqRead (u : Fin 2)
  /-- UART_BREAK_SEND (R508). UART_BRK.GO sends a break after the queued characters. -/
  | uartBreakSend (u : Fin 2) (v : Word)
  /-- UART_EN_CLEAR (R510). Clearing UART_CTRL.EN stops the transmitter and empties both queues. -/
  | uartEnClear (u : Fin 2)
  /-- QSPI_COMMAND (R515). QSPI_CMD with GO runs one command on the external flash. -/
  | qspiCommand (v : Word)
  /-- QSPI_ABORT (R515). QSPI_CMD with ABORT stops the command at the next byte boundary. -/
  | qspiAbort
  /-- QSPI_POLL (R515). Every 10 µs a polling command reads the flash status. -/
  | qspiPoll (status : Byte)
  /-- QSPI_POLL_TIMEOUT (R515). Polling exceeds QSPI_POLLTO and the command fails. -/
  | qspiPollTimeout
  /-- QSPI_COMMAND_END (R515). A QSPI command completes and its status is reported. -/
  | qspiCommandEnd (data : List Byte)
  /-- QSPI_WINDOW_READ (R514). A window read hits the prefetch line or fetches 32 bytes. -/
  | qspiWindowRead (m : Master) (addr : Word) (size : Nat) (line : List Byte)
  /-- QSPI_SPILL (R516). A waiting log spill is programmed to the external flash. -/
  | qspiSpill (ok : Bool)
  /-- TIMER_MATCH (R520). A timer's count changes to its MATCH value. -/
  | timerMatch (t : Fin 16)
  /-- TIMER_WRAP (R520). A timer wraps from its last count to 0. -/
  | timerWrap (t : Fin 16)
  /-- TIMER_ONESHOT_DONE (R520). A one-shot timer reaches MATCH, raises DONE and stops. -/
  | timerOneshotDone (t : Fin 16)
  /-- TIMER_CTRL_WRITE (R521). A write of TIMERt_CTRL is stored or refused with CFG_REJ. -/
  | timerCtrlWrite (t : Fin 16) (v : Word)
  /-- TIMER_COUNT_WRITE (R523). A write of TIMERt_COUNT sets the count and clears the residue. -/
  | timerCountWrite (t : Fin 16) (v : Word)
  /-- TIMER_GSTART_WRITE (R522). A write of GSTART starts or stops every legacy timer together. -/
  | timerGstartWrite (v : Bool)
  /-- TIMER_GSET (R522). A write of TIMER_GSET enables the masked timers. -/
  | timerGset (mask : Half)
  /-- TIMER_GCLR (R522). A write of TIMER_GCLR disables the masked timers. -/
  | timerGclr (mask : Half)
  /-- GPIO_SET (R527). A write of GPIO_SET sets the masked output bits. -/
  | gpioSet (k : Fin 2) (v : Word)
  /-- GPIO_CLR (R527). A write of GPIO_CLR clears the masked output bits. -/
  | gpioClr (k : Fin 2) (v : Word)
  /-- GPIO_EDGE (R529). A selected edge of a filtered pin level sets its GPIO flag. -/
  | gpioEdge (j : Fin 40) (level : Bool)
  /-- HEAD_CELL (R202). A device heading a stream whose receive lane is FAILED generates a cell on its own RT grid, with NONE shares and its owned fields. -/
  | headCell (lane : Fin 2)
  /-- SPAN_TARGET_EFFECT (R214). The VTARGET carried by a SPAN_TARGET message takes effect on a member when its ring time reaches the named RT. -/
  | spanTargetEffect (ch : Fin 2)
  /-- ROOT_REFERENCE_FAIL (R196). The root's 25 MHz reference stops, its PLL free-runs as in holdover, and its rails shut down after 2 ms. -/
  | rootReferenceFail
  /-- UNSUPPORTED_COMMAND (R490). A host transaction with a command code or transaction type the port does not support is not acknowledged and latches CML invalid-command. -/
  | unsupportedCommand (code : Byte)
  /-- CORE_DEBUG_ACCESS (R346). A core-debug access through JTAG reaches the address map, may halt the cores, and sets SECURE_STAT.DEBUGGED at the first access after power-on reset. -/
  | coreDebugAccess (wr : Bool) (addr : Word) (size : Nat) (v : Word) (halt : Bool)
  deriving DecidableEq, Repr

end Sys2Proof
end

