-- ==== Sys2Proof/Decode.lean ====
section
/-! DEFINITION. The commands that words of the opcode table's bits spell. No row of the table of this block gives bits: its
commands come with their operands, and no word spells one. -/
namespace Sys2Proof

/-- The command that the word `w` of `nbits` bits spells by the opcode table's bits: none, since no row gives any. -/
def decodeTableWord (_nbits _w : Nat) : Option Instr := none

end Sys2Proof
end

