-- ==== Sys2Proof/Config.lean ====
section
/-! DEFINITION. What the spec leaves open and this model leaves free: opaque constants with no body, so that no proof
can use a value of theirs (notes/assumptions/1.md). Each is applied to a counter of the state that the command which
uses it advances, or to the operands that the value depends on. -/
namespace Sys2Proof

/-- The `k`-th free value: a natural number of which nothing is known. A command that needs an open value of `w` bits
takes `freeValue k` modulo `2 ^ w` and advances the counter (Dev.free). Assumption 1. -/
opaque Config.freeValue : Nat → Nat

/-- The `k`-th free byte string of `n` bytes: signatures, generated keys and entropy (R329, R344, R357), whose bytes
the spec does not determine. Assumption 1. -/
opaque Config.freeBytes : Nat → Nat → List (BitVec 8)

/-- The public key that belongs to an identity key, as its `k`-th free coefficient numbers, from the wrapped private key
(R344). Assumption 1. -/
opaque Config.identityPublic : List Nat → Nat → Nat

/-- The signature that the identity key, wrapped, makes over a message, the `k`-th that is made: as numbered free values,
those of its nonce first and then those of its coefficients (R329, R356). Assumption 1. -/
opaque Config.identitySign : List Nat → List Nat → Nat → Nat → Nat

/-- The digest of the manufacturing key, fixed in the ROM (R330); the spec does not give its value. Assumption 1. -/
opaque Config.romKeyDigest : List (BitVec 8)

/-- The bytes of the Keaquavik ROM by address, which the spec does not give (R35, R326). Assumption 1. -/
opaque Config.romByte : Nat → BitVec 8

/-- The trace delay of the link from position `k` to the next, in edge codes, where the CHAIN_XHOPADJ that holds it is
another device's (R197). Assumption 1. -/
opaque Config.linkAdj : Nat → Nat

/-- Whether a span channel in which this device has no part has a lead, which owns its nibbles then (R200). Assumption 1. -/
opaque Config.channelLed : Nat → Bool

/-- The root's realignment in cycles, which only the root can read (R201, R203). Assumption 1. -/
opaque Config.rootRealign : Nat

end Sys2Proof
end

