-- ==== Sys2Proof/Machine/Num.lean ====
section
/-! DEFINITION. The arithmetic every chapter shares: bit fields of natural numbers, two's complement, rounding to
nearest with ties toward plus infinity, saturation (R8, R10), and the CRCs of R109, R198 and R232. -/
namespace Sys2Proof.Machine

/-- Bits `lo + w - 1` down to `lo` of `v`. -/
def bits (v lo w : Nat) : Nat := v / 2 ^ lo % 2 ^ w

/-- Bit `i` of `v`. -/
def bit (v i : Nat) : Bool := v / 2 ^ i % 2 == 1

/-- `v` with bits `lo + w - 1` down to `lo` replaced by `x`. -/
def putBits (v lo w x : Nat) : Nat :=
  v % 2 ^ lo + x % 2 ^ w * 2 ^ lo + v / 2 ^ (lo + w) * 2 ^ (lo + w)

/-- 1 for true, 0 for false. -/
def b2n (b : Bool) : Nat := if b then 1 else 0

/-- The two's complement value of the low `w` bits of `v` (R8). -/
def toS (w v : Nat) : Int :=
  if v % 2 ^ w < 2 ^ (w - 1) then (v % 2 ^ w : Nat) else (v % 2 ^ w : Nat) - (2 ^ w : Nat)

/-- The `w`-bit two's complement code of `x`. -/
def ofS (w : Nat) (x : Int) : Nat := (x % (2 ^ w : Nat)).toNat

/-- `x` saturated to `w`-bit two's complement (R10). -/
def satS (w : Nat) (x : Int) : Int :=
  if x < -(2 ^ (w - 1) : Nat) then -(2 ^ (w - 1) : Nat)
  else if x > (2 ^ (w - 1) : Nat) - 1 then (2 ^ (w - 1) : Nat) - 1 else x

/-- `x` saturated to `w`-bit unsigned (R10). -/
def satU (w : Nat) (x : Int) : Nat := if x < 0 then 0 else if x > (2 ^ w : Nat) - 1 then 2 ^ w - 1 else x.toNat

/-- `x` limited to the interval from `lo` to `hi`; `hi` wins where they cross. -/
def clampI (x lo hi : Int) : Int := min (max x lo) hi

/-- Round `a / b` to nearest, ties toward plus infinity (R10); 0 where `b` is 0. -/
def rdiv (a : Int) (b : Nat) : Int := if b = 0 then 0 else (2 * a + b) / (2 * b)

/-- Round `a / b` for a signed divisor (R10). -/
def rdivI (a b : Int) : Int := if b < 0 then rdiv (-a) b.natAbs else rdiv a b.natAbs

/-- Round `a / 2^k` (R10). -/
def rshr (a : Int) (k : Nat) : Int := rdiv a (2 ^ k)

/-- `ceil (a / b)` of naturals; 0 where `b` is 0. -/
def ceilDiv (a b : Nat) : Nat := if b = 0 then 0 else (a + b - 1) / b

/-- The sign of an integer: -1, 0 or 1. -/
def sgn (x : Int) : Int := if x < 0 then -1 else if x = 0 then 0 else 1

/-- The signed difference of two 32-bit times (R115). -/
def tdiff (a b : Nat) : Int := toS 32 (a + 2 ^ 32 - b % 2 ^ 32)

/-- A time `k` cycles before or after `t`, modulo 2^32. -/
def tsub (t k : Nat) : Nat := (t + 2 ^ 32 - k % 2 ^ 32) % 2 ^ 32
def tadd (t k : Nat) : Nat := (t + k) % 2 ^ 32

/-- Add with saturation at `2^w - 1`, the saturating counters of the register tables. -/
def satAdd (w a b : Nat) : Nat := min (a + b) (2 ^ w - 1)

/-- The mean of a list of integers, rounded by R10; 0 of the empty list. -/
def meanI (l : List Int) : Int := rdiv (l.foldl (· + ·) 0) l.length

/-- `v` bit by bit, most significant of `w` bits first. -/
def msbBits : Nat → Nat → List Bool
  | 0, _ => []
  | w + 1, v => bit v w :: msbBits w v

/-- A CRC register of `w` bits with polynomial `poly` (without its top bit), taken most significant bit first. -/
def crcMsb (w poly : Nat) : Nat → List Bool → Nat
  | c, [] => c
  | c, b :: t =>
    let s := c * 2 % 2 ^ w
    crcMsb w poly (if bit c (w - 1) != b then s ^^^ poly else s) t

/-- The CRC-8 of R109 over bytes, first byte first: polynomial `x^8 + x^2 + x + 1`, initial value 0. -/
def crc8 (l : List Nat) : Nat := crcMsb 8 0x07 0 (l.flatMap (msbBits 8))

/-- The CRC-8 of R109 over `w` bits of `v` (R205). -/
def crc8Bits (w v : Nat) : Nat := crcMsb 8 0x07 0 (msbBits w v)

/-- The CRC-4 of a cell (R198): polynomial `x^4 + x + 1`, initial value 0xF, over bits 31 to 4. -/
def crc4Cell (cell : Nat) : Nat := crcMsb 4 0x3 0xF (msbBits 28 (cell / 16))

/-- Eight steps of the reflected CRC-32C register. -/
def crc32cBits : Nat → Nat → Nat
  | 0, c => c
  | k + 1, c => crc32cBits k (if c % 2 == 1 then c / 2 ^^^ 0x82F63B78 else c / 2)

/-- The CRC-32C register after the bytes `l` (R232). -/
def crc32cStep (c : Nat) (l : List Nat) : Nat := l.foldl (fun c b => crc32cBits 8 (c ^^^ b)) c

/-- CRC-32C over bytes in ascending order (R232). -/
def crc32c (l : List Nat) : Nat := crc32cStep 0xFFFFFFFF l ^^^ 0xFFFFFFFF

end Sys2Proof.Machine
end

