-- ==== Sys2Proof/Machine/Regs.lean ====
section
/-! DEFINITION. The register map of the SK7216: one `Reg` per register of the register tables of spec/02 to
spec/14, with its bus address, its instances, the bits a bus write stores, the bits a written 1 clears and its reset
value (R11-R17, R39), and one `Fld` per field of the field tables. Written from those tables. -/
namespace Sys2Proof.Machine

/-- A register, or a register array, of the register maps (R11, R15). Instance `n`, element `k` lies at
`base + stride * n + stride2 * k`. `wmask` holds the bits a bus write stores, `w1c` the bits a written 1 clears,
`rc` is true of a register that a read clears (R13), `expert` of a register of an expert page (R16). -/
structure Reg where
  name : String
  base : Nat
  count : Nat := 1
  stride : Nat := 0
  count2 : Nat := 1
  stride2 : Nat := 4
  wmask : Nat := 0
  w1c : Nat := 0
  rc : Bool := false
  expert : Bool := false
  reset : Nat := 0
  deriving DecidableEq, Repr

/-- The bus address of instance `n` of a register (R39). -/
def Reg.addr (r : Reg) (n : Nat) : Nat := r.base + r.stride * n

/-- The bus address of element `k` of instance `n` of a register array. -/
def Reg.addr2 (r : Reg) (n k : Nat) : Nat := r.base + r.stride * n + r.stride2 * k

/-- A field of a register: its lowest bit and its width. -/
structure Fld where
  reg : Reg
  lo : Nat
  width : Nat
  deriving DecidableEq, Repr


/-! ### spec/02_rail_fabric.md, R83 -/
/-- RAIL_CTRL: Enable and expert control (RW, R83). -/
def RAIL_CTRL : Reg := { name := "RAIL_CTRL", base := 0x50000000, count := 8, stride := 0x1000, wmask := 0x00000003 }
def RAIL_CTRL_EN : Fld := ⟨RAIL_CTRL, 0, 1⟩
def RAIL_CTRL_EXPERT_UNLOCK : Fld := ⟨RAIL_CTRL, 1, 1⟩
def RAIL_CTRL_EXPERT : Fld := ⟨RAIL_CTRL, 2, 1⟩
/-- RAIL_STAT: Present state (RO, R83). -/
def RAIL_STAT : Reg := { name := "RAIL_STAT", base := 0x50000004, count := 8, stride := 0x1000 }
def RAIL_STAT_ENABLED : Fld := ⟨RAIL_STAT, 0, 1⟩
def RAIL_STAT_SOFTSTART : Fld := ⟨RAIL_STAT, 1, 1⟩
def RAIL_STAT_POWER_GOOD : Fld := ⟨RAIL_STAT, 2, 1⟩
def RAIL_STAT_SHUTTING : Fld := ⟨RAIL_STAT, 3, 1⟩
def RAIL_STAT_FOLLOWER : Fld := ⟨RAIL_STAT, 4, 1⟩
def RAIL_STAT_CBAL_ACTIVE : Fld := ⟨RAIL_STAT, 5, 1⟩
def RAIL_STAT_LIM_HIGH : Fld := ⟨RAIL_STAT, 6, 1⟩
def RAIL_STAT_LIM_LOW : Fld := ⟨RAIL_STAT, 7, 1⟩
def RAIL_STAT_HOLD : Fld := ⟨RAIL_STAT, 8, 1⟩
def RAIL_STAT_OVW : Fld := ⟨RAIL_STAT, 9, 1⟩
def RAIL_STAT_UNW : Fld := ⟨RAIL_STAT, 10, 1⟩
def RAIL_STAT_ACTIVE_N : Fld := ⟨RAIL_STAT, 16, 6⟩
/-- RAIL_FLAGS: Sticky flags; each raises EV_RAILn (n) when enabled (W1C, R83). -/
def RAIL_FLAGS : Reg := { name := "RAIL_FLAGS", base := 0x50000008, count := 8, stride := 0x1000, w1c := 0x0000FFFF }
def RAIL_FLAGS_WR_REJ : Fld := ⟨RAIL_FLAGS, 0, 1⟩
def RAIL_FLAGS_START_FAIL : Fld := ⟨RAIL_FLAGS, 1, 1⟩
def RAIL_FLAGS_PREBIAS_ABOVE : Fld := ⟨RAIL_FLAGS, 2, 1⟩
def RAIL_FLAGS_PG_SET : Fld := ⟨RAIL_FLAGS, 3, 1⟩
def RAIL_FLAGS_CBAL_ENTER : Fld := ⟨RAIL_FLAGS, 4, 1⟩
def RAIL_FLAGS_LIM_ENTER : Fld := ⟨RAIL_FLAGS, 5, 1⟩
def RAIL_FLAGS_COMMIT_DONE : Fld := ⟨RAIL_FLAGS, 6, 1⟩
def RAIL_FLAGS_COMMIT_REFUSED : Fld := ⟨RAIL_FLAGS, 7, 1⟩
def RAIL_FLAGS_GUARD_TRIP : Fld := ⟨RAIL_FLAGS, 8, 1⟩
def RAIL_FLAGS_SUBST : Fld := ⟨RAIL_FLAGS, 9, 1⟩
def RAIL_FLAGS_SPARES_OUT : Fld := ⟨RAIL_FLAGS, 10, 1⟩
def RAIL_FLAGS_ADDSHED : Fld := ⟨RAIL_FLAGS, 11, 1⟩
def RAIL_FLAGS_CAL_DONE : Fld := ⟨RAIL_FLAGS, 12, 1⟩
def RAIL_FLAGS_CAL_FAIL : Fld := ⟨RAIL_FLAGS, 13, 1⟩
def RAIL_FLAGS_SHUT_DONE : Fld := ⟨RAIL_FLAGS, 14, 1⟩
def RAIL_FLAGS_VACANT : Fld := ⟨RAIL_FLAGS, 15, 1⟩
/-- RAIL_VTARGET: Output voltage target (RW, R83). -/
def RAIL_VTARGET : Reg := { name := "RAIL_VTARGET", base := 0x5000000C, count := 8, stride := 0x1000, wmask := 0x0000FFFF }
def RAIL_VTARGET_VTARGET : Fld := ⟨RAIL_VTARGET, 0, 16⟩
/-- RAIL_SLEW: Target slew rate (RW, R83). -/
def RAIL_SLEW : Reg := { name := "RAIL_SLEW", base := 0x50000010, count := 8, stride := 0x1000, wmask := 0x0000FFFF }
def RAIL_SLEW_SLEW : Fld := ⟨RAIL_SLEW, 0, 16⟩
/-- RAIL_LOADLINE: Load-line resistance (RW, R83). -/
def RAIL_LOADLINE : Reg := { name := "RAIL_LOADLINE", base := 0x50000014, count := 8, stride := 0x1000, wmask := 0x00000FFF }
def RAIL_LOADLINE_LL : Fld := ⟨RAIL_LOADLINE, 0, 12⟩
/-- RAIL_ILIMIT: Current command limits (RW, R83). -/
def RAIL_ILIMIT : Reg := { name := "RAIL_ILIMIT", base := 0x50000018, count := 8, stride := 0x1000, wmask := 0xFFFFFFFF }
def RAIL_ILIMIT_IMAX : Fld := ⟨RAIL_ILIMIT, 0, 16⟩
def RAIL_ILIMIT_IMIN : Fld := ⟨RAIL_ILIMIT, 16, 16⟩
/-- RAIL_SOFTSTART: Start delay and power-good qualification (RW, R83). -/
def RAIL_SOFTSTART : Reg := { name := "RAIL_SOFTSTART", base := 0x5000001C, count := 8, stride := 0x1000, wmask := 0xFFFFFFFF }
def RAIL_SOFTSTART_TON_DELAY : Fld := ⟨RAIL_SOFTSTART, 0, 16⟩
def RAIL_SOFTSTART_PG_DELAY : Fld := ⟨RAIL_SOFTSTART, 16, 8⟩
def RAIL_SOFTSTART_PG_WIN : Fld := ⟨RAIL_SOFTSTART, 24, 8⟩
/-- RAIL_VREF: VREF and DROOP (RO, R83). -/
def RAIL_VREF : Reg := { name := "RAIL_VREF", base := 0x50000020, count := 8, stride := 0x1000 }
def RAIL_VREF_VREF : Fld := ⟨RAIL_VREF, 0, 16⟩
def RAIL_VREF_DROOP : Fld := ⟨RAIL_VREF, 16, 16⟩
/-- RAIL_ERR: Latest error sample (RO, R83). -/
def RAIL_ERR : Reg := { name := "RAIL_ERR", base := 0x50000024, count := 8, stride := 0x1000 }
def RAIL_ERR_ERR : Fld := ⟨RAIL_ERR, 0, 12⟩
def RAIL_ERR_OVW : Fld := ⟨RAIL_ERR, 12, 1⟩
def RAIL_ERR_UNW : Fld := ⟨RAIL_ERR, 13, 1⟩
def RAIL_ERR_DECISION : Fld := ⟨RAIL_ERR, 16, 16⟩
/-- RAIL_VSENSE: Absolute output voltage (RO, R83). -/
def RAIL_VSENSE : Reg := { name := "RAIL_VSENSE", base := 0x50000028, count := 8, stride := 0x1000 }
def RAIL_VSENSE_VSENSE : Fld := ⟨RAIL_VSENSE, 0, 16⟩
def RAIL_VSENSE_VALID : Fld := ⟨RAIL_VSENSE, 16, 1⟩
/-- RAIL_IOUT: ISUM output (RO, R83). -/
def RAIL_IOUT : Reg := { name := "RAIL_IOUT", base := 0x5000002C, count := 8, stride := 0x1000 }
def RAIL_IOUT_IS : Fld := ⟨RAIL_IOUT, 0, 24⟩
/-- RAIL_ICMD: LIMIT output (RO, R83). -/
def RAIL_ICMD : Reg := { name := "RAIL_ICMD", base := 0x50000030, count := 8, stride := 0x1000 }
def RAIL_ICMD_ICMD : Fld := ⟨RAIL_ICMD, 0, 24⟩
/-- RAIL_VIN: Latest VINS sample (RO, R83). -/
def RAIL_VIN : Reg := { name := "RAIL_VIN", base := 0x50000034, count := 8, stride := 0x1000 }
def RAIL_VIN_VIN : Fld := ⟨RAIL_VIN, 0, 16⟩
/-- RAIL_EVEN: Event enables, one per RAIL_FLAGS bit (RW, R83). -/
def RAIL_EVEN : Reg := { name := "RAIL_EVEN", base := 0x50000038, count := 8, stride := 0x1000, wmask := 0x0000FFFF }

/-! ### spec/02_rail_fabric.md, R88 -/
/-- RAIL_XCTL: Decimation, commit and revert (RW, R88). -/
def RAIL_XCTL : Reg := { name := "RAIL_XCTL", base := 0x50000100, count := 8, stride := 0x1000, wmask := 0x00000007, expert := true }
def RAIL_XCTL_DECIM : Fld := ⟨RAIL_XCTL, 0, 3⟩
def RAIL_XCTL_COMMIT : Fld := ⟨RAIL_XCTL, 8, 1⟩
def RAIL_XCTL_REVERT : Fld := ⟨RAIL_XCTL, 9, 1⟩
/-- RAIL_XSTAT: Commit state (RO, R88). -/
def RAIL_XSTAT : Reg := { name := "RAIL_XSTAT", base := 0x50000104, count := 8, stride := 0x1000, expert := true }
def RAIL_XSTAT_PENDING : Fld := ⟨RAIL_XSTAT, 0, 1⟩
def RAIL_XSTAT_COMMIT_BUSY : Fld := ⟨RAIL_XSTAT, 1, 1⟩
def RAIL_XSTAT_WHY : Fld := ⟨RAIL_XSTAT, 4, 4⟩
def RAIL_XSTAT_COMMITS : Fld := ⟨RAIL_XSTAT, 16, 16⟩
/-- RAIL_XSLEWSTEP: [23:0] STEP, u24, 2⁻¹⁶ × 0.125 mV per ADC clock, 1–16,777,215 (RW, R88). -/
def RAIL_XSLEWSTEP : Reg := { name := "RAIL_XSLEWSTEP", base := 0x50000108, count := 8, stride := 0x1000, wmask := 0x00FFFFFF, expert := true }
def RAIL_XSLEWSTEP_STEP : Fld := ⟨RAIL_XSLEWSTEP, 0, 24⟩
/-- RAIL_XLLGAIN: [22:0] GAIN, non-negative Q2.22 (RW, R88). -/
def RAIL_XLLGAIN : Reg := { name := "RAIL_XLLGAIN", base := 0x5000010C, count := 8, stride := 0x1000, wmask := 0x007FFFFF, expert := true }
def RAIL_XLLGAIN_GAIN : Fld := ⟨RAIL_XLLGAIN, 0, 23⟩
/-- RAIL_XVERR: [3:0] DROOP_TC (RW, R88). -/
def RAIL_XVERR : Reg := { name := "RAIL_XVERR", base := 0x50000110, count := 8, stride := 0x1000, wmask := 0x0000000F, expert := true }
def RAIL_XVERR_DROOP_TC : Fld := ⟨RAIL_XVERR, 0, 4⟩
/-- RAIL_XKCUR: [23:0] KCUR, Q2.22, duty per phase-current LSB (RW, R88). -/
def RAIL_XKCUR : Reg := { name := "RAIL_XKCUR", base := 0x50000114, count := 8, stride := 0x1000, wmask := 0x00FFFFFF, expert := true }
def RAIL_XKCUR_KCUR : Fld := ⟨RAIL_XKCUR, 0, 24⟩
/-- RAIL_XKBAL: [23:0] KBAL, Q2.22 (RW, R88). -/
def RAIL_XKBAL : Reg := { name := "RAIL_XKBAL", base := 0x50000118, count := 8, stride := 0x1000, wmask := 0x00FFFFFF, expert := true }
def RAIL_XKBAL_KBAL : Fld := ⟨RAIL_XKBAL, 0, 24⟩
/-- RAIL_XBALLIM: [22:0] BALLIM, non-negative Q2.22 (RW, R88). -/
def RAIL_XBALLIM : Reg := { name := "RAIL_XBALLIM", base := 0x5000011C, count := 8, stride := 0x1000, wmask := 0x007FFFFF, expert := true }
def RAIL_XBALLIM_BALLIM : Fld := ⟨RAIL_XBALLIM, 0, 23⟩
/-- RAIL_XDMIN: [22:0] DMIN, non-negative Q2.22 (RW, R88). -/
def RAIL_XDMIN : Reg := { name := "RAIL_XDMIN", base := 0x50000120, count := 8, stride := 0x1000, wmask := 0x007FFFFF, expert := true }
def RAIL_XDMIN_DMIN : Fld := ⟨RAIL_XDMIN, 0, 23⟩
/-- RAIL_XDMAX: [22:0] DMAX, non-negative Q2.22 (RW, R88). -/
def RAIL_XDMAX : Reg := { name := "RAIL_XDMAX", base := 0x50000124, count := 8, stride := 0x1000, wmask := 0x007FFFFF, expert := true }
def RAIL_XDMAX_DMAX : Fld := ⟨RAIL_XDMAX, 0, 23⟩
/-- RAIL_XCBAL: [10:0] EBND, 0.125 mV; [15:12] BLEND (RW, R88). -/
def RAIL_XCBAL : Reg := { name := "RAIL_XCBAL", base := 0x50000128, count := 8, stride := 0x1000, wmask := 0x0000F7FF, expert := true }
def RAIL_XCBAL_EBND : Fld := ⟨RAIL_XCBAL, 0, 11⟩
def RAIL_XCBAL_BLEND : Fld := ⟨RAIL_XCBAL, 12, 4⟩
/-- RAIL_XKCB: [23:0] KCB, Q2.22 (RW, R88). -/
def RAIL_XKCB : Reg := { name := "RAIL_XKCB", base := 0x5000012C, count := 8, stride := 0x1000, wmask := 0x00FFFFFF, expert := true }
def RAIL_XKCB_KCB : Fld := ⟨RAIL_XKCB, 0, 24⟩
/-- RAIL_XGSHIFT: [3:0] G0 for N0; [7:4] G1 for N1; [11:8] GCB for CBAL (RW, R88). -/
def RAIL_XGSHIFT : Reg := { name := "RAIL_XGSHIFT", base := 0x50000130, count := 8, stride := 0x1000, wmask := 0x00000FFF, expert := true }
def RAIL_XGSHIFT_G0 : Fld := ⟨RAIL_XGSHIFT, 0, 4⟩
def RAIL_XGSHIFT_G1 : Fld := ⟨RAIL_XGSHIFT, 4, 4⟩
def RAIL_XGSHIFT_GCB : Fld := ⟨RAIL_XGSHIFT, 8, 4⟩
/-- RAIL_XISLEW: [15:0] ISLEW, rail-current LSBs per decision; 0 is off (RW, R88). -/
def RAIL_XISLEW : Reg := { name := "RAIL_XISLEW", base := 0x50000134, count := 8, stride := 0x1000, wmask := 0x0000FFFF, expert := true }
def RAIL_XISLEW_ISLEW : Fld := ⟨RAIL_XISLEW, 0, 16⟩
/-- RAIL_XGRAPH: Graph structure from the active plane (RO, R88). -/
def RAIL_XGRAPH : Reg := { name := "RAIL_XGRAPH", base := 0x50000138, count := 8, stride := 0x1000, expert := true }
def RAIL_XGRAPH_N0_TYPE : Fld := ⟨RAIL_XGRAPH, 0, 4⟩
def RAIL_XGRAPH_N1_TYPE : Fld := ⟨RAIL_XGRAPH, 4, 4⟩
def RAIL_XGRAPH_CBAL : Fld := ⟨RAIL_XGRAPH, 8, 1⟩
def RAIL_XGRAPH_N0_IN : Fld := ⟨RAIL_XGRAPH, 9, 1⟩
def RAIL_XGRAPH_N1_IN : Fld := ⟨RAIL_XGRAPH, 10, 1⟩
def RAIL_XGRAPH_SUM_NEG : Fld := ⟨RAIL_XGRAPH, 11, 2⟩
def RAIL_XGRAPH_N0_BASE : Fld := ⟨RAIL_XGRAPH, 16, 5⟩
def RAIL_XGRAPH_N1_BASE : Fld := ⟨RAIL_XGRAPH, 24, 5⟩
/-- RAIL_XCOEF: [23:0] staged coefficient slot 0–31, Q2.22 (RW, R88). -/
def RAIL_XCOEF : Reg := { name := "RAIL_XCOEF", base := 0x50000140, count := 8, stride := 0x1000, count2 := 32, wmask := 0x00FFFFFF, expert := true }
def RAIL_XCOEF_COEF : Fld := ⟨RAIL_XCOEF, 0, 24⟩
/-- RAIL_XCOEFACT: [23:0] coefficient slot 0–31 in force (RO, R88). -/
def RAIL_XCOEFACT : Reg := { name := "RAIL_XCOEFACT", base := 0x500001C0, count := 8, stride := 0x1000, count2 := 32, expert := true }

/-! ### spec/03_transient_hawkmoth.md, R130 -/
/-- RAIL_TE_CTRL: Engine enables (RW, R130). -/
def RAIL_TE_CTRL : Reg := { name := "RAIL_TE_CTRL", base := 0x50000040, count := 8, stride := 0x1000, wmask := 0x0000000F }
def RAIL_TE_CTRL_EN : Fld := ⟨RAIL_TE_CTRL, 0, 1⟩
def RAIL_TE_CTRL_ADD_EN : Fld := ⟨RAIL_TE_CTRL, 1, 1⟩
def RAIL_TE_CTRL_DN_EN : Fld := ⟨RAIL_TE_CTRL, 2, 1⟩
def RAIL_TE_CTRL_DN_TRI : Fld := ⟨RAIL_TE_CTRL, 3, 1⟩
/-- RAIL_TE_COUT: Output capacitance (RW, R130). -/
def RAIL_TE_COUT : Reg := { name := "RAIL_TE_COUT", base := 0x50000044, count := 8, stride := 0x1000, wmask := 0x0000FFFF }
def RAIL_TE_COUT_COUT : Fld := ⟨RAIL_TE_COUT, 0, 16⟩
/-- RAIL_TE_STAT: Engine state (RO, R130). -/
def RAIL_TE_STAT : Reg := { name := "RAIL_TE_STAT", base := 0x50000048, count := 8, stride := 0x1000 }
def RAIL_TE_STAT_STATE : Fld := ⟨RAIL_TE_STAT, 0, 2⟩
def RAIL_TE_STAT_ARMED : Fld := ⟨RAIL_TE_STAT, 2, 1⟩
def RAIL_TE_STAT_ARMDIR : Fld := ⟨RAIL_TE_STAT, 3, 1⟩
def RAIL_TE_STAT_CAPPED : Fld := ⟨RAIL_TE_STAT, 4, 1⟩
def RAIL_TE_STAT_SCHED : Fld := ⟨RAIL_TE_STAT, 5, 1⟩
def RAIL_TE_STAT_NENG : Fld := ⟨RAIL_TE_STAT, 8, 6⟩
/-- RAIL_TE_LAST: Latest placement: amount and slices added (RO, R130). -/
def RAIL_TE_LAST : Reg := { name := "RAIL_TE_LAST", base := 0x5000004C, count := 8, stride := 0x1000 }
def RAIL_TE_LAST_AMOUNT : Fld := ⟨RAIL_TE_LAST, 0, 24⟩
def RAIL_TE_LAST_NADD : Fld := ⟨RAIL_TE_LAST, 24, 6⟩
def RAIL_TE_LAST_ORIGIN : Fld := ⟨RAIL_TE_LAST, 30, 2⟩
/-- RAIL_TE_LASTT: Latest placement: decision and extension (RO, R130). -/
def RAIL_TE_LASTT : Reg := { name := "RAIL_TE_LASTT", base := 0x50000050, count := 8, stride := 0x1000 }
def RAIL_TE_LASTT_DECISION : Fld := ⟨RAIL_TE_LASTT, 0, 16⟩
def RAIL_TE_LASTT_TX : Fld := ⟨RAIL_TE_LASTT, 16, 16⟩
/-- RAIL_TE_UNDEL: U (RO, R130). -/
def RAIL_TE_UNDEL : Reg := { name := "RAIL_TE_UNDEL", base := 0x50000054, count := 8, stride := 0x1000 }
def RAIL_TE_UNDEL_U : Fld := ⟨RAIL_TE_UNDEL, 0, 24⟩
/-- RAIL_TE_HANDOFF: H (RO, R130). -/
def RAIL_TE_HANDOFF : Reg := { name := "RAIL_TE_HANDOFF", base := 0x50000058, count := 8, stride := 0x1000 }
def RAIL_TE_HANDOFF_H : Fld := ⟨RAIL_TE_HANDOFF, 0, 24⟩
/-- RAIL_TE_COUNT: Event counts (RC, R130). -/
def RAIL_TE_COUNT : Reg := { name := "RAIL_TE_COUNT", base := 0x5000005C, count := 8, stride := 0x1000, rc := true }
def RAIL_TE_COUNT_UPS : Fld := ⟨RAIL_TE_COUNT, 0, 16⟩
def RAIL_TE_COUNT_DOWNS : Fld := ⟨RAIL_TE_COUNT, 16, 16⟩
/-- RAIL_TE_FLAGS: Sticky flags; each raises EV_RAILn (n) when enabled (W1C, R130). -/
def RAIL_TE_FLAGS : Reg := { name := "RAIL_TE_FLAGS", base := 0x50000060, count := 8, stride := 0x1000, w1c := 0x0000001F }
def RAIL_TE_FLAGS_DET_UP : Fld := ⟨RAIL_TE_FLAGS, 0, 1⟩
def RAIL_TE_FLAGS_DET_DN : Fld := ⟨RAIL_TE_FLAGS, 1, 1⟩
def RAIL_TE_FLAGS_CAPPED : Fld := ⟨RAIL_TE_FLAGS, 2, 1⟩
def RAIL_TE_FLAGS_TOPUP : Fld := ⟨RAIL_TE_FLAGS, 3, 1⟩
def RAIL_TE_FLAGS_REVERSE : Fld := ⟨RAIL_TE_FLAGS, 4, 1⟩
/-- RAIL_TE_EVEN: Bit b enables RAIL_TE_FLAGS bit b (RW, R130). -/
def RAIL_TE_EVEN : Reg := { name := "RAIL_TE_EVEN", base := 0x50000064, count := 8, stride := 0x1000, wmask := 0x0000001F }

/-! ### spec/03_transient_hawkmoth.md, R132 -/
/-- RAIL_XTEDET: Detection thresholds (RW, R132). -/
def RAIL_XTEDET : Reg := { name := "RAIL_XTEDET", base := 0x50000240, count := 8, stride := 0x1000, wmask := 0x07FF3FFF, expert := true }
def RAIL_XTEDET_TH_SLOPE : Fld := ⟨RAIL_XTEDET, 0, 11⟩
def RAIL_XTEDET_DSPAN : Fld := ⟨RAIL_XTEDET, 11, 2⟩
def RAIL_XTEDET_CONFIRM : Fld := ⟨RAIL_XTEDET, 13, 1⟩
def RAIL_XTEDET_TH_LEVEL : Fld := ⟨RAIL_XTEDET, 16, 11⟩
/-- RAIL_XTEARM: Armed slope threshold (RW, R132). -/
def RAIL_XTEARM : Reg := { name := "RAIL_XTEARM", base := 0x50000244, count := 8, stride := 0x1000, wmask := 0x000007FF, expert := true }
def RAIL_XTEARM_TH_SLOPE_ARM : Fld := ⟨RAIL_XTEARM, 0, 11⟩
/-- RAIL_XTEKSL: Slope-to-current gain (RW, R132). -/
def RAIL_XTEKSL : Reg := { name := "RAIL_XTEKSL", base := 0x50000248, count := 8, stride := 0x1000, wmask := 0x0FFFFFFF, expert := true }
def RAIL_XTEKSL_KSL : Fld := ⟨RAIL_XTEKSL, 0, 24⟩
def RAIL_XTEKSL_GSL : Fld := ⟨RAIL_XTEKSL, 24, 4⟩
/-- RAIL_XTEKQE: Charge-restore gain (RW, R132). -/
def RAIL_XTEKQE : Reg := { name := "RAIL_XTEKQE", base := 0x5000024C, count := 8, stride := 0x1000, wmask := 0x0FFFFFFF, expert := true }
def RAIL_XTEKQE_KQE : Fld := ⟨RAIL_XTEKQE, 0, 24⟩
def RAIL_XTEKQE_GQE : Fld := ⟨RAIL_XTEKQE, 24, 4⟩
/-- RAIL_XTEADD: Phase adding and top-up step (RW, R132). -/
def RAIL_XTEADD : Reg := { name := "RAIL_XTEADD", base := 0x50000250, count := 8, stride := 0x1000, wmask := 0xFFFFFFFF, expert := true }
def RAIL_XTEADD_IADD : Fld := ⟨RAIL_XTEADD, 0, 16⟩
def RAIL_XTEADD_TH_INC : Fld := ⟨RAIL_XTEADD, 16, 16⟩
/-- RAIL_XTEHO: Handoff and event end (RW, R132). -/
def RAIL_XTEHO : Reg := { name := "RAIL_XTEHO", base := 0x50000254, count := 8, stride := 0x1000, wmask := 0x0000FF0F, expert := true }
def RAIL_XTEHO_HANDOFF : Fld := ⟨RAIL_XTEHO, 0, 4⟩
def RAIL_XTEHO_END : Fld := ⟨RAIL_XTEHO, 8, 8⟩

/-! ### spec/03_transient_hawkmoth.md, R135 -/
/-- HM_CTRL: Port and relay enables, expert control (RW, R135). -/
def HM_CTRL : Reg := { name := "HM_CTRL", base := 0x50020000, wmask := 0x0000000B }
def HM_CTRL_PORT_EN : Fld := ⟨HM_CTRL, 0, 1⟩
def HM_CTRL_EXPERT_UNLOCK : Fld := ⟨HM_CTRL, 1, 1⟩
def HM_CTRL_EXPERT : Fld := ⟨HM_CTRL, 2, 1⟩
def HM_CTRL_RELAY_EN : Fld := ⟨HM_CTRL, 3, 1⟩
/-- HM_PORTCFG: Frame gap (RW, R135). -/
def HM_PORTCFG : Reg := { name := "HM_PORTCFG", base := 0x50020004, wmask := 0x000000FF, reset := 0x00000018 }
def HM_PORTCFG_GAP : Fld := ⟨HM_PORTCFG, 0, 8⟩
/-- HM_PORTSTAT: Port state and line levels (RO, R135). -/
def HM_PORTSTAT : Reg := { name := "HM_PORTSTAT", base := 0x50020008, reset := 0x0000000C }
def HM_PORTSTAT_STUCK : Fld := ⟨HM_PORTSTAT, 0, 1⟩
def HM_PORTSTAT_CK : Fld := ⟨HM_PORTSTAT, 1, 1⟩
def HM_PORTSTAT_D0 : Fld := ⟨HM_PORTSTAT, 2, 1⟩
def HM_PORTSTAT_D1 : Fld := ⟨HM_PORTSTAT, 3, 1⟩
def HM_PORTSTAT_EDGES : Fld := ⟨HM_PORTSTAT, 4, 5⟩
/-- HM_FLAGS: Port flags; each raises EV_HAWKMOTH (91) when enabled (W1C, R135). -/
def HM_FLAGS : Reg := { name := "HM_FLAGS", base := 0x5002000C, w1c := 0x0000007F }
def HM_FLAGS_CRC_ERR : Fld := ⟨HM_FLAGS, 0, 1⟩
def HM_FLAGS_TRUNC : Fld := ⟨HM_FLAGS, 1, 1⟩
def HM_FLAGS_LONG : Fld := ⟨HM_FLAGS, 2, 1⟩
def HM_FLAGS_FMT : Fld := ⟨HM_FLAGS, 3, 1⟩
def HM_FLAGS_NOMATCH : Fld := ⟨HM_FLAGS, 4, 1⟩
def HM_FLAGS_STUCK_SET : Fld := ⟨HM_FLAGS, 5, 1⟩
def HM_FLAGS_STUCK_CLR : Fld := ⟨HM_FLAGS, 6, 1⟩
/-- HM_EVEN: Bit b enables HM_FLAGS bit b (RW, R135). -/
def HM_EVEN : Reg := { name := "HM_EVEN", base := 0x50020010, wmask := 0x0000007F }
/-- HM_CNT_OK: Accepted frames, modulo 2³² (RO, R135). -/
def HM_CNT_OK : Reg := { name := "HM_CNT_OK", base := 0x50020014 }
/-- HM_CNT_ERR: Error counts (RO, R135). -/
def HM_CNT_ERR : Reg := { name := "HM_CNT_ERR", base := 0x50020018 }
def HM_CNT_ERR_CRC : Fld := ⟨HM_CNT_ERR, 0, 8⟩
def HM_CNT_ERR_TRUNC : Fld := ⟨HM_CNT_ERR, 8, 8⟩
def HM_CNT_ERR_LONG : Fld := ⟨HM_CNT_ERR, 16, 8⟩
def HM_CNT_ERR_FMT : Fld := ⟨HM_CNT_ERR, 24, 8⟩
/-- HM_LASTFRAME_HI: Latest accepted frame, upper part (RO, R135). -/
def HM_LASTFRAME_HI : Reg := { name := "HM_LASTFRAME_HI", base := 0x5002001C }
def HM_LASTFRAME_HI_BITS : Fld := ⟨HM_LASTFRAME_HI, 0, 8⟩
def HM_LASTFRAME_HI_RELAYED : Fld := ⟨HM_LASTFRAME_HI, 8, 1⟩
/-- HM_LASTFRAME_LO: Latest accepted frame, bits [31:0] (RO, R135). -/
def HM_LASTFRAME_LO : Reg := { name := "HM_LASTFRAME_LO", base := 0x50020020 }
/-- HM_RELAY_HI: Relay bits [39:32] (RW, R135). -/
def HM_RELAY_HI : Reg := { name := "HM_RELAY_HI", base := 0x50020024, wmask := 0x000000FF }
def HM_RELAY_HI_BITS : Fld := ⟨HM_RELAY_HI, 0, 8⟩
/-- HM_RELAY_LO: Relay bits [31:0]; a write delivers the frame by R113 (WO, R135). -/
def HM_RELAY_LO : Reg := { name := "HM_RELAY_LO", base := 0x50020028 }
/-- HM_TIME: FCLK time stamp, modulo 2³² (RO, R135). -/
def HM_TIME : Reg := { name := "HM_TIME", base := 0x5002002C }
/-- HM_SIGSEL: Signature entry access (RW, R135). -/
def HM_SIGSEL : Reg := { name := "HM_SIGSEL", base := 0x50020030, wmask := 0x0000073F }
def HM_SIGSEL_ENTRY : Fld := ⟨HM_SIGSEL, 0, 6⟩
def HM_SIGSEL_RAIL : Fld := ⟨HM_SIGSEL, 8, 3⟩
def HM_SIGSEL_RD : Fld := ⟨HM_SIGSEL, 16, 1⟩
def HM_SIGSEL_WR : Fld := ⟨HM_SIGSEL, 17, 1⟩
/-- HM_SIGDATA0: Entry word 0, by R140 (RW, R135). -/
def HM_SIGDATA0 : Reg := { name := "HM_SIGDATA0", base := 0x50020034, wmask := 0x8FFFFFFF }
def HM_SIGDATA0_TOKEN : Fld := ⟨HM_SIGDATA0, 0, 16⟩
def HM_SIGDATA0_ENGINE : Fld := ⟨HM_SIGDATA0, 16, 3⟩
def HM_SIGDATA0_DIR : Fld := ⟨HM_SIGDATA0, 19, 1⟩
def HM_SIGDATA0_CONF : Fld := ⟨HM_SIGDATA0, 20, 4⟩
def HM_SIGDATA0_AGE : Fld := ⟨HM_SIGDATA0, 24, 4⟩
def HM_SIGDATA0_VALID : Fld := ⟨HM_SIGDATA0, 31, 1⟩
/-- HM_SIGDATA1: Entry word 1, by R140 (RW, R135). -/
def HM_SIGDATA1 : Reg := { name := "HM_SIGDATA1", base := 0x50020038, wmask := 0x00FFFFFF }
def HM_SIGDATA1_MAG : Fld := ⟨HM_SIGDATA1, 0, 10⟩
def HM_SIGDATA1_LEAD : Fld := ⟨HM_SIGDATA1, 10, 8⟩
def HM_SIGDATA1_RISE : Fld := ⟨HM_SIGDATA1, 18, 6⟩

/-! ### spec/03_transient_hawkmoth.md, R138 -/
/-- HMRAIL_CTRL: Enables, tag and token sources (RW, R138). -/
def HMRAIL_CTRL : Reg := { name := "HMRAIL_CTRL", base := 0x50020100, count := 8, stride := 0x20, wmask := 0x00FF3F07 }
def HMRAIL_CTRL_EN_INTENT : Fld := ⟨HMRAIL_CTRL, 0, 1⟩
def HMRAIL_CTRL_EN_SIG : Fld := ⟨HMRAIL_CTRL, 1, 1⟩
def HMRAIL_CTRL_LEARN : Fld := ⟨HMRAIL_CTRL, 2, 1⟩
def HMRAIL_CTRL_CLEAR : Fld := ⟨HMRAIL_CTRL, 3, 1⟩
def HMRAIL_CTRL_TAG : Fld := ⟨HMRAIL_CTRL, 8, 6⟩
def HMRAIL_CTRL_TOKSRC : Fld := ⟨HMRAIL_CTRL, 16, 8⟩
/-- HMRAIL_MAGSCALE: [23:0] SCALE, non-negative Q2.22 (RW, R138). -/
def HMRAIL_MAGSCALE : Reg := { name := "HMRAIL_MAGSCALE", base := 0x50020104, count := 8, stride := 0x20, wmask := 0x00FFFFFF }
def HMRAIL_MAGSCALE_SCALE : Fld := ⟨HMRAIL_MAGSCALE, 0, 24⟩
/-- HMRAIL_STAT: Prediction state and HMBIAS (RO, R138). -/
def HMRAIL_STAT : Reg := { name := "HMRAIL_STAT", base := 0x50020108, count := 8, stride := 0x20 }
def HMRAIL_STAT_ACTIVE : Fld := ⟨HMRAIL_STAT, 0, 1⟩
def HMRAIL_STAT_NEXT : Fld := ⟨HMRAIL_STAT, 1, 1⟩
def HMRAIL_STAT_DIR : Fld := ⟨HMRAIL_STAT, 2, 1⟩
def HMRAIL_STAT_SRC : Fld := ⟨HMRAIL_STAT, 3, 2⟩
def HMRAIL_STAT_SCHED : Fld := ⟨HMRAIL_STAT, 5, 1⟩
def HMRAIL_STAT_REVERSING : Fld := ⟨HMRAIL_STAT, 6, 1⟩
def HMRAIL_STAT_HIT_SEEN : Fld := ⟨HMRAIL_STAT, 7, 1⟩
def HMRAIL_STAT_HMBIAS : Fld := ⟨HMRAIL_STAT, 16, 16⟩
/-- HMRAIL_FLAGS: Flags; each raises EV_HAWKMOTH (91) when enabled (W1C, R138). -/
def HMRAIL_FLAGS : Reg := { name := "HMRAIL_FLAGS", base := 0x5002010C, count := 8, stride := 0x20, w1c := 0x000007FF }
def HMRAIL_FLAGS_ACCEPT : Fld := ⟨HMRAIL_FLAGS, 0, 1⟩
def HMRAIL_FLAGS_HIT : Fld := ⟨HMRAIL_FLAGS, 1, 1⟩
def HMRAIL_FLAGS_MISS : Fld := ⟨HMRAIL_FLAGS, 2, 1⟩
def HMRAIL_FLAGS_CANCELLED : Fld := ⟨HMRAIL_FLAGS, 3, 1⟩
def HMRAIL_FLAGS_PREEMPTED : Fld := ⟨HMRAIL_FLAGS, 4, 1⟩
def HMRAIL_FLAGS_MERGED : Fld := ⟨HMRAIL_FLAGS, 5, 1⟩
def HMRAIL_FLAGS_DROPPED : Fld := ⟨HMRAIL_FLAGS, 6, 1⟩
def HMRAIL_FLAGS_LATE : Fld := ⟨HMRAIL_FLAGS, 7, 1⟩
def HMRAIL_FLAGS_LEARNED : Fld := ⟨HMRAIL_FLAGS, 8, 1⟩
def HMRAIL_FLAGS_TOKLOST : Fld := ⟨HMRAIL_FLAGS, 9, 1⟩
def HMRAIL_FLAGS_SIGFULL : Fld := ⟨HMRAIL_FLAGS, 10, 1⟩
/-- HMRAIL_EVEN: Bit b enables HMRAIL_FLAGS bit b (RW, R138). -/
def HMRAIL_EVEN : Reg := { name := "HMRAIL_EVEN", base := 0x50020110, count := 8, stride := 0x20, wmask := 0x000007FF }
/-- HMRAIL_PRED: ACTIVE magnitude and rise (RO, R138). -/
def HMRAIL_PRED : Reg := { name := "HMRAIL_PRED", base := 0x50020114, count := 8, stride := 0x20 }
def HMRAIL_PRED_MR : Fld := ⟨HMRAIL_PRED, 0, 24⟩
def HMRAIL_PRED_RISE : Fld := ⟨HMRAIL_PRED, 24, 6⟩
/-- HMRAIL_PREDT: ACTIVE TS (RO, R138). -/
def HMRAIL_PREDT : Reg := { name := "HMRAIL_PREDT", base := 0x50020118, count := 8, stride := 0x20 }
def HMRAIL_PREDT_TS : Fld := ⟨HMRAIL_PREDT, 0, 32⟩
/-- HMRAIL_SCORE: Hits and misses (RO, R138). -/
def HMRAIL_SCORE : Reg := { name := "HMRAIL_SCORE", base := 0x5002011C, count := 8, stride := 0x20 }
def HMRAIL_SCORE_HITS : Fld := ⟨HMRAIL_SCORE, 0, 16⟩
def HMRAIL_SCORE_MISSES : Fld := ⟨HMRAIL_SCORE, 16, 16⟩
/-- HMRAIL_XTIME: Timing (RW, R138). -/
def HMRAIL_XTIME : Reg := { name := "HMRAIL_XTIME", base := 0x50020200, count := 8, stride := 0x20, wmask := 0xFFFFFFFF, expert := true }
def HMRAIL_XTIME_T_BIAS : Fld := ⟨HMRAIL_XTIME, 0, 8⟩
def HMRAIL_XTIME_T_FIRE : Fld := ⟨HMRAIL_XTIME, 8, 8⟩
def HMRAIL_XTIME_W_LATE : Fld := ⟨HMRAIL_XTIME, 16, 8⟩
def HMRAIL_XTIME_WIN : Fld := ⟨HMRAIL_XTIME, 24, 8⟩
/-- HMRAIL_XKPB: [23:0] KPB, non-negative Q2.22 (RW, R138). -/
def HMRAIL_XKPB : Reg := { name := "HMRAIL_XKPB", base := 0x50020204, count := 8, stride := 0x20, wmask := 0x00FFFFFF, expert := true }
def HMRAIL_XKPB_KPB : Fld := ⟨HMRAIL_XKPB, 0, 24⟩
/-- HMRAIL_XBIAS: Bias limits (RW, R138). -/
def HMRAIL_XBIAS : Reg := { name := "HMRAIL_XBIAS", base := 0x50020208, count := 8, stride := 0x20, wmask := 0x0000FFFF, expert := true }
def HMRAIL_XBIAS_PB_MAX : Fld := ⟨HMRAIL_XBIAS, 0, 8⟩
def HMRAIL_XBIAS_BIAS_STEP : Fld := ⟨HMRAIL_XBIAS, 8, 8⟩
/-- HMRAIL_XFIRE: Schedule and hit fractions (RW, R138). -/
def HMRAIL_XFIRE : Reg := { name := "HMRAIL_XFIRE", base := 0x5002020C, count := 8, stride := 0x20, wmask := 0x00FF01FF, expert := true }
def HMRAIL_XFIRE_PREFRAC : Fld := ⟨HMRAIL_XFIRE, 0, 9⟩
def HMRAIL_XFIRE_HITFRAC : Fld := ⟨HMRAIL_XFIRE, 16, 8⟩
/-- HMRAIL_XLEARN: Learning (RW, R138). -/
def HMRAIL_XLEARN : Reg := { name := "HMRAIL_XLEARN", base := 0x50020210, count := 8, stride := 0x20, wmask := 0x00000F0F, expert := true }
def HMRAIL_XLEARN_CONF_ARM : Fld := ⟨HMRAIL_XLEARN, 0, 4⟩
def HMRAIL_XLEARN_AGE_DIV : Fld := ⟨HMRAIL_XLEARN, 8, 4⟩
/-- HMRAIL_XSIGCLASS: [15:0] signature class, by R128 (RO, R138). -/
def HMRAIL_XSIGCLASS : Reg := { name := "HMRAIL_XSIGCLASS", base := 0x50020214, count := 8, stride := 0x20, expert := true }
def HMRAIL_XSIGCLASS_CLASS : Fld := ⟨HMRAIL_XSIGCLASS, 0, 16⟩

/-! ### spec/04_slices_sparing.md, R180 -/
/-- RAIL_PWM: Period and output options (RW, R180). -/
def RAIL_PWM : Reg := { name := "RAIL_PWM", base := 0x50000080, count := 8, stride := 0x1000, wmask := 0x0007FFFF }
def RAIL_PWM_TSW : Fld := ⟨RAIL_PWM, 0, 16⟩
def RAIL_PWM_DE_EN : Fld := ⟨RAIL_PWM, 16, 1⟩
def RAIL_PWM_ENPIN_USE : Fld := ⟨RAIL_PWM, 17, 1⟩
def RAIL_PWM_PG_INCL : Fld := ⟨RAIL_PWM, 18, 1⟩
/-- RAIL_PHASE: Minimum active count and healthy requirement (RW, R180). -/
def RAIL_PHASE : Reg := { name := "RAIL_PHASE", base := 0x50000084, count := 8, stride := 0x1000, wmask := 0x00003F3F }
def RAIL_PHASE_NMIN : Fld := ⟨RAIL_PHASE, 0, 6⟩
def RAIL_PHASE_HREQ : Fld := ⟨RAIL_PHASE, 8, 6⟩
/-- RAIL_ADDSHED: Add and shed thresholds (RW, R180). -/
def RAIL_ADDSHED : Reg := { name := "RAIL_ADDSHED", base := 0x50000088, count := 8, stride := 0x1000, wmask := 0xFFFFFFFF }
def RAIL_ADDSHED_IPH_ADD : Fld := ⟨RAIL_ADDSHED, 0, 16⟩
def RAIL_ADDSHED_IPH_SHED : Fld := ⟨RAIL_ADDSHED, 16, 16⟩
/-- RAIL_GUARD: Window and shutdown method (RW, R180). -/
def RAIL_GUARD : Reg := { name := "RAIL_GUARD", base := 0x5000008C, count := 8, stride := 0x1000, wmask := 0x17FF07FF }
def RAIL_GUARD_OVLIM : Fld := ⟨RAIL_GUARD, 0, 11⟩
def RAIL_GUARD_UVLIM : Fld := ⟨RAIL_GUARD, 16, 11⟩
def RAIL_GUARD_METHOD : Fld := ⟨RAIL_GUARD, 28, 1⟩
/-- RAIL_CAL: Rotating calibration (RW, R180). -/
def RAIL_CAL : Reg := { name := "RAIL_CAL", base := 0x50000090, count := 8, stride := 0x1000, wmask := 0xFFFF0007 }
def RAIL_CAL_CAL_EN : Fld := ⟨RAIL_CAL, 0, 1⟩
def RAIL_CAL_NPSEL : Fld := ⟨RAIL_CAL, 1, 2⟩
def RAIL_CAL_CAL_INT : Fld := ⟨RAIL_CAL, 16, 16⟩
/-- RAIL_SEQSTAT: Positions, healthy count, spares (RO, R180). -/
def RAIL_SEQSTAT : Reg := { name := "RAIL_SEQSTAT", base := 0x50000094, count := 8, stride := 0x1000 }
def RAIL_SEQSTAT_NPOS : Fld := ⟨RAIL_SEQSTAT, 0, 6⟩
def RAIL_SEQSTAT_HM : Fld := ⟨RAIL_SEQSTAT, 8, 6⟩
def RAIL_SEQSTAT_FREE : Fld := ⟨RAIL_SEQSTAT, 16, 3⟩
def RAIL_SEQSTAT_CALSLICE : Fld := ⟨RAIL_SEQSTAT, 24, 5⟩
def RAIL_SEQSTAT_CAL_RUN : Fld := ⟨RAIL_SEQSTAT, 29, 1⟩
/-- RAIL_GCAUSE: Shutdown cause (RO, R180). -/
def RAIL_GCAUSE : Reg := { name := "RAIL_GCAUSE", base := 0x50000098, count := 8, stride := 0x1000 }
def RAIL_GCAUSE_CAUSE : Fld := ⟨RAIL_GCAUSE, 0, 8⟩
def RAIL_GCAUSE_HM : Fld := ⟨RAIL_GCAUSE, 8, 6⟩
def RAIL_GCAUSE_DECISION : Fld := ⟨RAIL_GCAUSE, 16, 16⟩
/-- RAIL_GDEV: Deviation at a window trip (RO, R180). -/
def RAIL_GDEV : Reg := { name := "RAIL_GDEV", base := 0x5000009C, count := 8, stride := 0x1000 }
def RAIL_GDEV_G : Fld := ⟨RAIL_GDEV, 0, 16⟩
/-- RAIL_BOUND: Latest boundary (RO, R180). -/
def RAIL_BOUND : Reg := { name := "RAIL_BOUND", base := 0x500000A0, count := 8, stride := 0x1000 }
def RAIL_BOUND_COUNT : Fld := ⟨RAIL_BOUND, 0, 16⟩
def RAIL_BOUND_ACTIONS : Fld := ⟨RAIL_BOUND, 16, 9⟩
/-- RAIL_SUBST: Latest substitution (RO, R180). -/
def RAIL_SUBST : Reg := { name := "RAIL_SUBST", base := 0x500000A4, count := 8, stride := 0x1000 }
def RAIL_SUBST_OUT : Fld := ⟨RAIL_SUBST, 0, 5⟩
def RAIL_SUBST_IN : Fld := ⟨RAIL_SUBST, 8, 5⟩
def RAIL_SUBST_POSITION : Fld := ⟨RAIL_SUBST, 16, 8⟩
def RAIL_SUBST_COUNT : Fld := ⟨RAIL_SUBST, 24, 8⟩
/-- RAIL_SPARES: Spare list (RO, R180). -/
def RAIL_SPARES : Reg := { name := "RAIL_SPARES", base := 0x500000A8, count := 8, stride := 0x1000 }
def RAIL_SPARES_SLICE0 : Fld := ⟨RAIL_SPARES, 0, 5⟩
def RAIL_SPARES_VALID0 : Fld := ⟨RAIL_SPARES, 7, 1⟩
def RAIL_SPARES_SLICE1 : Fld := ⟨RAIL_SPARES, 8, 5⟩
def RAIL_SPARES_VALID1 : Fld := ⟨RAIL_SPARES, 15, 1⟩
def RAIL_SPARES_SLICE2 : Fld := ⟨RAIL_SPARES, 16, 5⟩
def RAIL_SPARES_VALID2 : Fld := ⟨RAIL_SPARES, 23, 1⟩
def RAIL_SPARES_SLICE3 : Fld := ⟨RAIL_SPARES, 24, 5⟩
def RAIL_SPARES_VALID3 : Fld := ⟨RAIL_SPARES, 31, 1⟩
/-- RAIL_XSEQ: Minimum on-time and off-time (RW, R180). -/
def RAIL_XSEQ : Reg := { name := "RAIL_XSEQ", base := 0x50000280, count := 8, stride := 0x1000, wmask := 0xFFFFFFFF, expert := true }
def RAIL_XSEQ_TONMIN : Fld := ⟨RAIL_XSEQ, 0, 16⟩
def RAIL_XSEQ_TOFFMIN : Fld := ⟨RAIL_XSEQ, 16, 16⟩
/-- RAIL_XSHED: Shed count and imbalance limit (RW, R180). -/
def RAIL_XSHED : Reg := { name := "RAIL_XSHED", base := 0x50000284, count := 8, stride := 0x1000, wmask := 0x0000FF0F, expert := true }
def RAIL_XSHED_SHED_CNT : Fld := ⟨RAIL_XSHED, 0, 4⟩
def RAIL_XSHED_IDEV : Fld := ⟨RAIL_XSHED, 8, 8⟩
/-- RAIL_XOC: Slice current limits (RW, R180). -/
def RAIL_XOC : Reg := { name := "RAIL_XOC", base := 0x50000288, count := 8, stride := 0x1000, wmask := 0x03FFFFFF, expert := true }
def RAIL_XOC_IOC : Fld := ⟨RAIL_XOC, 0, 11⟩
def RAIL_XOC_INEG : Fld := ⟨RAIL_XOC, 11, 11⟩
def RAIL_XOC_OCCNT : Fld := ⟨RAIL_XOC, 22, 4⟩
/-- RAIL_XGUARD: Window confirmation and ramp slew (RW, R180). -/
def RAIL_XGUARD : Reg := { name := "RAIL_XGUARD", base := 0x5000028C, count := 8, stride := 0x1000, wmask := 0xFFFFFFFF, expert := true }
def RAIL_XGUARD_OVCNT : Fld := ⟨RAIL_XGUARD, 0, 8⟩
def RAIL_XGUARD_UVCNT : Fld := ⟨RAIL_XGUARD, 8, 8⟩
def RAIL_XGUARD_SHUT_SLEW : Fld := ⟨RAIL_XGUARD, 16, 16⟩
/-- RAIL_XDIS: Discharge current and end voltage (RW, R180). -/
def RAIL_XDIS : Reg := { name := "RAIL_XDIS", base := 0x50000290, count := 8, stride := 0x1000, wmask := 0x0FFF07FF, expert := true }
def RAIL_XDIS_IDIS : Fld := ⟨RAIL_XDIS, 0, 11⟩
def RAIL_XDIS_VDIS : Fld := ⟨RAIL_XDIS, 16, 12⟩
/-- RAIL_XDISTM: Discharge time and input limit (RW, R180). -/
def RAIL_XDISTM : Reg := { name := "RAIL_XDISTM", base := 0x50000294, count := 8, stride := 0x1000, wmask := 0xFFFFFFFF, expert := true }
def RAIL_XDISTM_DIS_TMAX : Fld := ⟨RAIL_XDISTM, 0, 16⟩
def RAIL_XDISTM_VIN_MIN : Fld := ⟨RAIL_XDISTM, 16, 16⟩
/-- RAIL_XCAL: Calibration pulse and limits (RW, R180). -/
def RAIL_XCAL : Reg := { name := "RAIL_XCAL", base := 0x50000298, count := 8, stride := 0x1000, wmask := 0xFFFFFFFF, expert := true }
def RAIL_XCAL_CAL_TH : Fld := ⟨RAIL_XCAL, 0, 8⟩
def RAIL_XCAL_OFS_LIM : Fld := ⟨RAIL_XCAL, 8, 8⟩
def RAIL_XCAL_LTOL : Fld := ⟨RAIL_XCAL, 16, 8⟩
def RAIL_XCAL_DCR_MAX : Fld := ⟨RAIL_XCAL, 24, 8⟩
/-- RAIL_XCAL2: Calibration reference values (RW, R180). -/
def RAIL_XCAL2 : Reg := { name := "RAIL_XCAL2", base := 0x5000029C, count := 8, stride := 0x1000, wmask := 0xFFFFFFFF, expert := true }
def RAIL_XCAL2_LNOM : Fld := ⟨RAIL_XCAL2, 0, 16⟩
def RAIL_XCAL2_SPREAD : Fld := ⟨RAIL_XCAL2, 16, 8⟩
def RAIL_XCAL2_ZMAX : Fld := ⟨RAIL_XCAL2, 24, 8⟩

/-! ### spec/04_slices_sparing.md, R184 -/
/-- SLICE_CTRL: Commands and expert control (RW, R184). -/
def SLICE_CTRL : Reg := { name := "SLICE_CTRL", base := 0x50010000, count := 32, stride := 0x100, wmask := 0x00000100 }
def SLICE_CTRL_FORCE_FAULT : Fld := ⟨SLICE_CTRL, 0, 1⟩
def SLICE_CTRL_READMIT : Fld := ⟨SLICE_CTRL, 1, 1⟩
def SLICE_CTRL_CAL_NOW : Fld := ⟨SLICE_CTRL, 2, 1⟩
def SLICE_CTRL_EXPERT_UNLOCK : Fld := ⟨SLICE_CTRL, 8, 1⟩
def SLICE_CTRL_EXPERT : Fld := ⟨SLICE_CTRL, 9, 1⟩
/-- SLICE_STAT: Role, state, level, position (RO, R184). -/
def SLICE_STAT : Reg := { name := "SLICE_STAT", base := 0x50010004, count := 32, stride := 0x100, reset := 0x00FF0000 }
def SLICE_STAT_ROLE : Fld := ⟨SLICE_STAT, 0, 2⟩
def SLICE_STAT_STATE : Fld := ⟨SLICE_STAT, 4, 3⟩
def SLICE_STAT_LEVEL : Fld := ⟨SLICE_STAT, 8, 2⟩
def SLICE_STAT_RAIL : Fld := ⟨SLICE_STAT, 12, 3⟩
def SLICE_STAT_POSITION : Fld := ⟨SLICE_STAT, 16, 8⟩
def SLICE_STAT_CALSTEP : Fld := ⟨SLICE_STAT, 24, 4⟩
def SLICE_STAT_COVER : Fld := ⟨SLICE_STAT, 28, 1⟩
/-- SLICE_FLAGS: Sticky flags (W1C, R184). -/
def SLICE_FLAGS : Reg := { name := "SLICE_FLAGS", base := 0x50010008, count := 32, stride := 0x100, w1c := 0x0000003F }
def SLICE_FLAGS_FAULT : Fld := ⟨SLICE_FLAGS, 0, 1⟩
def SLICE_FLAGS_TOOK_POS : Fld := ⟨SLICE_FLAGS, 1, 1⟩
def SLICE_FLAGS_CAL_DONE : Fld := ⟨SLICE_FLAGS, 2, 1⟩
def SLICE_FLAGS_CAL_FAIL : Fld := ⟨SLICE_FLAGS, 3, 1⟩
def SLICE_FLAGS_READMIT_OK : Fld := ⟨SLICE_FLAGS, 4, 1⟩
def SLICE_FLAGS_READMIT_FAIL : Fld := ⟨SLICE_FLAGS, 5, 1⟩
/-- SLICE_EVEN: Bit b enables SLICE_FLAGS bit b (RW, R184). -/
def SLICE_EVEN : Reg := { name := "SLICE_EVEN", base := 0x5001000C, count := 32, stride := 0x100, wmask := 0x0000003F }
/-- SLICE_FCAUSE: Fault cause (RO, R184). -/
def SLICE_FCAUSE : Reg := { name := "SLICE_FCAUSE", base := 0x50010010, count := 32, stride := 0x100 }
def SLICE_FCAUSE_CAUSE : Fld := ⟨SLICE_FCAUSE, 0, 4⟩
def SLICE_FCAUSE_DECISION : Fld := ⟨SLICE_FCAUSE, 16, 16⟩
/-- SLICE_I: Latest current sample (RO, R184). -/
def SLICE_I : Reg := { name := "SLICE_I", base := 0x50010014, count := 32, stride := 0x100 }
def SLICE_I_I : Fld := ⟨SLICE_I, 0, 12⟩
def SLICE_I_OVR : Fld := ⟨SLICE_I, 12, 1⟩
def SLICE_I_INV : Fld := ⟨SLICE_I, 13, 1⟩
def SLICE_I_DECISION : Fld := ⟨SLICE_I, 16, 16⟩
/-- SLICE_IAVG: [11:0] Iavg of the latest own period, s12 (RO, R184). -/
def SLICE_IAVG : Reg := { name := "SLICE_IAVG", base := 0x50010018, count := 32, stride := 0x100 }
def SLICE_IAVG_IAVG : Fld := ⟨SLICE_IAVG, 0, 12⟩
/-- SLICE_BAL: [23:0] bal_i, Q2.22 (RO, R184). -/
def SLICE_BAL : Reg := { name := "SLICE_BAL", base := 0x5001001C, count := 32, stride := 0x100 }
def SLICE_BAL_BAL : Fld := ⟨SLICE_BAL, 0, 24⟩
/-- SLICE_TON: On-time and offset (RO, R184). -/
def SLICE_TON : Reg := { name := "SLICE_TON", base := 0x50010020, count := 32, stride := 0x100 }
def SLICE_TON_TON : Fld := ⟨SLICE_TON, 0, 16⟩
def SLICE_TON_OFFSET : Fld := ⟨SLICE_TON, 16, 16⟩
/-- SLICE_OFS: [11:0] OFS in force, s12, raw LSBs (RO, R184). -/
def SLICE_OFS : Reg := { name := "SLICE_OFS", base := 0x50010024, count := 32, stride := 0x100 }
def SLICE_OFS_OFS : Fld := ⟨SLICE_OFS, 0, 12⟩
/-- SLICE_KI: [23:0] KI in force, Q2.22 (RO, R184). -/
def SLICE_KI : Reg := { name := "SLICE_KI", base := 0x50010028, count := 32, stride := 0x100 }
def SLICE_KI_KI : Fld := ⟨SLICE_KI, 0, 24⟩
/-- SLICE_LQ: LQ and DCR in force (RO, R184). -/
def SLICE_LQ : Reg := { name := "SLICE_LQ", base := 0x5001002C, count := 32, stride := 0x100 }
def SLICE_LQ_LQ : Fld := ⟨SLICE_LQ, 0, 16⟩
def SLICE_LQ_DCR : Fld := ⟨SLICE_LQ, 16, 16⟩
/-- SLICE_CALRES0: Offset candidate and result (RO, R184). -/
def SLICE_CALRES0 : Reg := { name := "SLICE_CALRES0", base := 0x50010030, count := 32, stride := 0x100 }
def SLICE_CALRES0_OFS : Fld := ⟨SLICE_CALRES0, 0, 12⟩
def SLICE_CALRES0_RESULT : Fld := ⟨SLICE_CALRES0, 12, 4⟩
def SLICE_CALRES0_PASSES : Fld := ⟨SLICE_CALRES0, 16, 16⟩
/-- SLICE_CALRES1: LQ and DCR candidates (RO, R184). -/
def SLICE_CALRES1 : Reg := { name := "SLICE_CALRES1", base := 0x50010034, count := 32, stride := 0x100 }
def SLICE_CALRES1_LQ : Fld := ⟨SLICE_CALRES1, 0, 16⟩
def SLICE_CALRES1_DCR : Fld := ⟨SLICE_CALRES1, 16, 16⟩
/-- SLICE_XOFS: [11:0] OFS, s12 (RW, R184). -/
def SLICE_XOFS : Reg := { name := "SLICE_XOFS", base := 0x50010080, count := 32, stride := 0x100, wmask := 0x00000FFF, expert := true }
def SLICE_XOFS_OFS : Fld := ⟨SLICE_XOFS, 0, 12⟩
/-- SLICE_XKI: [23:0] KI, Q2.22 (RW, R184). -/
def SLICE_XKI : Reg := { name := "SLICE_XKI", base := 0x50010084, count := 32, stride := 0x100, wmask := 0x00FFFFFF, expert := true }
def SLICE_XKI_KI : Fld := ⟨SLICE_XKI, 0, 24⟩
/-- SLICE_XLQ: [15:0] LQ; [31:16] DCR (RW, R184). -/
def SLICE_XLQ : Reg := { name := "SLICE_XLQ", base := 0x50010088, count := 32, stride := 0x100, wmask := 0xFFFFFFFF, expert := true }
def SLICE_XLQ_LQ : Fld := ⟨SLICE_XLQ, 0, 16⟩
def SLICE_XLQ_DCR : Fld := ⟨SLICE_XLQ, 16, 16⟩
/-- CL_CTRL: Stage-fault attribution (RW, R184). -/
def CL_CTRL : Reg := { name := "CL_CTRL", base := 0x500100C0, count := 8, stride := 0x400, wmask := 0x000FFFFF }
def CL_CTRL_ATTR : Fld := ⟨CL_CTRL, 0, 8⟩
def CL_CTRL_FLVL : Fld := ⟨CL_CTRL, 8, 12⟩
/-- CL_OTLIM: Temperature limits (RW, R184). -/
def CL_OTLIM : Reg := { name := "CL_OTLIM", base := 0x500100C4, count := 8, stride := 0x400, wmask := 0xFFFFFFFF }
def CL_OTLIM_OT_WARN : Fld := ⟨CL_OTLIM, 0, 16⟩
def CL_OTLIM_OT_FAULT : Fld := ⟨CL_OTLIM, 16, 16⟩
/-- CL_STAT: Temperature and fault line (RO, R184). -/
def CL_STAT : Reg := { name := "CL_STAT", base := 0x500100C8, count := 8, stride := 0x400 }
def CL_STAT_TEMP : Fld := ⟨CL_STAT, 0, 16⟩
def CL_STAT_STGFLT : Fld := ⟨CL_STAT, 16, 1⟩
def CL_STAT_ATTR_RUN : Fld := ⟨CL_STAT, 17, 1⟩
/-- CL_FLAGS: Cluster flags (W1C, R184). -/
def CL_FLAGS : Reg := { name := "CL_FLAGS", base := 0x500100CC, count := 8, stride := 0x400, w1c := 0x0000001F }
def CL_FLAGS_STG_ATTR : Fld := ⟨CL_FLAGS, 0, 1⟩
def CL_FLAGS_STG_CLUSTER : Fld := ⟨CL_FLAGS, 1, 1⟩
def CL_FLAGS_STG_GLITCH : Fld := ⟨CL_FLAGS, 2, 1⟩
def CL_FLAGS_OT_WARN : Fld := ⟨CL_FLAGS, 3, 1⟩
def CL_FLAGS_OT_FAULT : Fld := ⟨CL_FLAGS, 4, 1⟩
/-- CL_EVEN: Bit b enables CL_FLAGS bit b (RW, R184). -/
def CL_EVEN : Reg := { name := "CL_EVEN", base := 0x500100D0, count := 8, stride := 0x400, wmask := 0x0000001F }

/-! ### spec/05_trintanis_ring.md, R222 -/
/-- CHAIN_CTRL: Enumeration start, expert control (RW, R222). -/
def CHAIN_CTRL : Reg := { name := "CHAIN_CTRL", base := 0x40001000, wmask := 0x00000002 }
def CHAIN_CTRL_ENUM_START : Fld := ⟨CHAIN_CTRL, 0, 1⟩
def CHAIN_CTRL_EXPERT_UNLOCK : Fld := ⟨CHAIN_CTRL, 1, 1⟩
def CHAIN_CTRL_EXPERT : Fld := ⟨CHAIN_CTRL, 2, 1⟩
/-- CHAIN_STAT: Root, position, ring size, clock state (RO, R222). -/
def CHAIN_STAT : Reg := { name := "CHAIN_STAT", base := 0x40001004, reset := 0x00100000 }
def CHAIN_STAT_ROOT : Fld := ⟨CHAIN_STAT, 0, 1⟩
def CHAIN_STAT_RING : Fld := ⟨CHAIN_STAT, 1, 2⟩
def CHAIN_STAT_REF : Fld := ⟨CHAIN_STAT, 3, 1⟩
def CHAIN_STAT_CKSTATE : Fld := ⟨CHAIN_STAT, 4, 2⟩
def CHAIN_STAT_REALIGN : Fld := ⟨CHAIN_STAT, 8, 8⟩
def CHAIN_STAT_POS : Fld := ⟨CHAIN_STAT, 16, 5⟩
def CHAIN_STAT_M : Fld := ⟨CHAIN_STAT, 24, 5⟩
/-- CHAIN_FLAGS: Sticky flags (W1C, R222). -/
def CHAIN_FLAGS : Reg := { name := "CHAIN_FLAGS", base := 0x40001008, w1c := 0x07FF1F1F }
def CHAIN_FLAGS_CK_LOST_U : Fld := ⟨CHAIN_FLAGS, 0, 1⟩
def CHAIN_FLAGS_CK_LOST_D : Fld := ⟨CHAIN_FLAGS, 8, 1⟩
def CHAIN_FLAGS_CK_VALID_U : Fld := ⟨CHAIN_FLAGS, 1, 1⟩
def CHAIN_FLAGS_CK_VALID_D : Fld := ⟨CHAIN_FLAGS, 9, 1⟩
def CHAIN_FLAGS_RX_FAIL_U : Fld := ⟨CHAIN_FLAGS, 2, 1⟩
def CHAIN_FLAGS_RX_FAIL_D : Fld := ⟨CHAIN_FLAGS, 10, 1⟩
def CHAIN_FLAGS_RX_OK_U : Fld := ⟨CHAIN_FLAGS, 3, 1⟩
def CHAIN_FLAGS_RX_OK_D : Fld := ⟨CHAIN_FLAGS, 11, 1⟩
def CHAIN_FLAGS_PHASE_SLIP_U : Fld := ⟨CHAIN_FLAGS, 4, 1⟩
def CHAIN_FLAGS_PHASE_SLIP_D : Fld := ⟨CHAIN_FLAGS, 12, 1⟩
def CHAIN_FLAGS_ENUM_DONE : Fld := ⟨CHAIN_FLAGS, 16, 1⟩
def CHAIN_FLAGS_HINT_MISMATCH : Fld := ⟨CHAIN_FLAGS, 17, 1⟩
def CHAIN_FLAGS_ENUM_FAIL : Fld := ⟨CHAIN_FLAGS, 18, 1⟩
def CHAIN_FLAGS_HOLD_ENTER : Fld := ⟨CHAIN_FLAGS, 19, 1⟩
def CHAIN_FLAGS_HOLD_EXIT : Fld := ⟨CHAIN_FLAGS, 20, 1⟩
def CHAIN_FLAGS_HOLD_LIMIT : Fld := ⟨CHAIN_FLAGS, 21, 1⟩
def CHAIN_FLAGS_SPAN_AUTO : Fld := ⟨CHAIN_FLAGS, 22, 1⟩
def CHAIN_FLAGS_LEAD_MOVE : Fld := ⟨CHAIN_FLAGS, 23, 1⟩
def CHAIN_FLAGS_SPAN_SHUT : Fld := ⟨CHAIN_FLAGS, 24, 1⟩
def CHAIN_FLAGS_PLAN_LATE : Fld := ⟨CHAIN_FLAGS, 25, 1⟩
def CHAIN_FLAGS_LATE_START : Fld := ⟨CHAIN_FLAGS, 26, 1⟩
/-- CHAIN_EVEN: Bit b enables CHAIN_FLAGS bit b (RW, R222). -/
def CHAIN_EVEN : Reg := { name := "CHAIN_EVEN", base := 0x4000100C, wmask := 0x07FF1F1F }
/-- CHAIN_UPORT: Upstream port (RO, R222). -/
def CHAIN_UPORT : Reg := { name := "CHAIN_UPORT", base := 0x40001010 }
def CHAIN_UPORT_CKROLE : Fld := ⟨CHAIN_UPORT, 0, 2⟩
def CHAIN_UPORT_CKVALID : Fld := ⟨CHAIN_UPORT, 2, 1⟩
def CHAIN_UPORT_RX : Fld := ⟨CHAIN_UPORT, 4, 2⟩
def CHAIN_UPORT_HEAD : Fld := ⟨CHAIN_UPORT, 6, 1⟩
def CHAIN_UPORT_NBR : Fld := ⟨CHAIN_UPORT, 8, 5⟩
def CHAIN_UPORT_TAP : Fld := ⟨CHAIN_UPORT, 16, 5⟩
/-- CHAIN_DPORT: Downstream port (RO, R222). -/
def CHAIN_DPORT : Reg := { name := "CHAIN_DPORT", base := 0x40001014 }
def CHAIN_DPORT_CKROLE : Fld := ⟨CHAIN_DPORT, 0, 2⟩
def CHAIN_DPORT_CKVALID : Fld := ⟨CHAIN_DPORT, 2, 1⟩
def CHAIN_DPORT_RX : Fld := ⟨CHAIN_DPORT, 4, 2⟩
def CHAIN_DPORT_HEAD : Fld := ⟨CHAIN_DPORT, 6, 1⟩
def CHAIN_DPORT_NBR : Fld := ⟨CHAIN_DPORT, 8, 5⟩
def CHAIN_DPORT_TAP : Fld := ⟨CHAIN_DPORT, 16, 5⟩
/-- CHAIN_HOLD: [11:0] holdover time, µs, saturating at 4,095 (RO, R222). -/
def CHAIN_HOLD : Reg := { name := "CHAIN_HOLD", base := 0x40001018 }
def CHAIN_HOLD_US : Fld := ⟨CHAIN_HOLD, 0, 12⟩
/-- CHAIN_RTIME: RT (RO, R222). -/
def CHAIN_RTIME : Reg := { name := "CHAIN_RTIME", base := 0x4000101C }
/-- CHAIN_CNT_U: Upstream receive counts (RO, R222). -/
def CHAIN_CNT_U : Reg := { name := "CHAIN_CNT_U", base := 0x40001020 }
def CHAIN_CNT_U_CHK : Fld := ⟨CHAIN_CNT_U, 0, 8⟩
def CHAIN_CNT_U_LATE : Fld := ⟨CHAIN_CNT_U, 8, 8⟩
def CHAIN_CNT_U_MSGERR : Fld := ⟨CHAIN_CNT_U, 16, 8⟩
def CHAIN_CNT_U_FAILS : Fld := ⟨CHAIN_CNT_U, 24, 8⟩
/-- CHAIN_CNT_D: Downstream receive counts (RO, R222). -/
def CHAIN_CNT_D : Reg := { name := "CHAIN_CNT_D", base := 0x40001024 }
def CHAIN_CNT_D_CHK : Fld := ⟨CHAIN_CNT_D, 0, 8⟩
def CHAIN_CNT_D_LATE : Fld := ⟨CHAIN_CNT_D, 8, 8⟩
def CHAIN_CNT_D_MSGERR : Fld := ⟨CHAIN_CNT_D, 16, 8⟩
def CHAIN_CNT_D_FAILS : Fld := ⟨CHAIN_CNT_D, 24, 8⟩
/-- CHAIN_ENSTAT: Enumeration result and hint read (RO, R222). -/
def CHAIN_ENSTAT : Reg := { name := "CHAIN_ENSTAT", base := 0x40001028 }
def CHAIN_ENSTAT_RESULT : Fld := ⟨CHAIN_ENSTAT, 0, 2⟩
def CHAIN_ENSTAT_REVERSED : Fld := ⟨CHAIN_ENSTAT, 2, 1⟩
def CHAIN_ENSTAT_HINT : Fld := ⟨CHAIN_ENSTAT, 16, 16⟩
/-- CHAIN_SPANc_STAT: Channel role and state (RO, R222). -/
def CHAIN_SPANc_STAT : Reg := { name := "CHAIN_SPANc_STAT", base := 0x40001030, count := 2, stride := 0x10 }
def CHAIN_SPANc_STAT_ROLE : Fld := ⟨CHAIN_SPANc_STAT, 0, 2⟩
def CHAIN_SPANc_STAT_STATE : Fld := ⟨CHAIN_SPANc_STAT, 2, 3⟩
def CHAIN_SPANc_STAT_RAIL : Fld := ⟨CHAIN_SPANc_STAT, 8, 3⟩
def CHAIN_SPANc_STAT_LEAD : Fld := ⟨CHAIN_SPANc_STAT, 16, 4⟩
def CHAIN_SPANc_STAT_DEPUTY : Fld := ⟨CHAIN_SPANc_STAT, 20, 4⟩
/-- CHAIN_SPANc_SHARE: Share taken (RO, R222). -/
def CHAIN_SPANc_SHARE : Reg := { name := "CHAIN_SPANc_SHARE", base := 0x40001034, count := 2, stride := 0x10, reset := 0x00000800 }
def CHAIN_SPANc_SHARE_S : Fld := ⟨CHAIN_SPANc_SHARE, 0, 12⟩
def CHAIN_SPANc_SHARE_LANE : Fld := ⟨CHAIN_SPANc_SHARE, 12, 1⟩
def CHAIN_SPANc_SHARE_AGE : Fld := ⟨CHAIN_SPANc_SHARE, 16, 16⟩
/-- CHAIN_SPANc_MEMB: Members and NR (RO, R222). -/
def CHAIN_SPANc_MEMB : Reg := { name := "CHAIN_SPANc_MEMB", base := 0x40001038, count := 2, stride := 0x10 }
def CHAIN_SPANc_MEMB_MEMBERS : Fld := ⟨CHAIN_SPANc_MEMB, 0, 16⟩
def CHAIN_SPANc_MEMB_NR : Fld := ⟨CHAIN_SPANc_MEMB, 16, 9⟩
/-- CHAIN_SPANc_CNT: Misses and AUTO entries (RC, R222). -/
def CHAIN_SPANc_CNT : Reg := { name := "CHAIN_SPANc_CNT", base := 0x4000103C, count := 2, stride := 0x10, rc := true }
def CHAIN_SPANc_CNT_MISS : Fld := ⟨CHAIN_SPANc_CNT, 0, 16⟩
def CHAIN_SPANc_CNT_AUTOS : Fld := ⟨CHAIN_SPANc_CNT, 16, 16⟩
/-- CHAIN_SPANCMD: Withdraw, admit, lead move, abort (WO, R222). -/
def CHAIN_SPANCMD : Reg := { name := "CHAIN_SPANCMD", base := 0x40001050 }
def CHAIN_SPANCMD_OP : Fld := ⟨CHAIN_SPANCMD, 0, 3⟩
def CHAIN_SPANCMD_CH : Fld := ⟨CHAIN_SPANCMD, 4, 1⟩
def CHAIN_SPANCMD_POS : Fld := ⟨CHAIN_SPANCMD, 8, 4⟩
/-- CHAIN_SPANCMDST: Status word by R221 (RO, R222). -/
def CHAIN_SPANCMDST : Reg := { name := "CHAIN_SPANCMDST", base := 0x40001054 }
def CHAIN_SPANCMDST_STATE : Fld := ⟨CHAIN_SPANCMDST, 28, 4⟩
def CHAIN_SPANCMDST_PROGRESS : Fld := ⟨CHAIN_SPANCMDST, 16, 12⟩
def CHAIN_SPANCMDST_PARTIALS : Fld := ⟨CHAIN_SPANCMDST, 8, 8⟩
def CHAIN_SPANCMDST_REASON : Fld := ⟨CHAIN_SPANCMDST, 1, 7⟩
def CHAIN_SPANCMDST_ABORT_LATE : Fld := ⟨CHAIN_SPANCMDST, 0, 1⟩
/-- CHAIN_XTIME: Tolerances and limits; replaced by the image when it names them (RW, R222). -/
def CHAIN_XTIME : Reg := { name := "CHAIN_XTIME", base := 0x40001100, wmask := 0xFF0FFF3F, expert := true, reset := 0x14010430 }
def CHAIN_XTIME_LATE_TOL : Fld := ⟨CHAIN_XTIME, 0, 6⟩
def CHAIN_XTIME_MISS_LIM : Fld := ⟨CHAIN_XTIME, 8, 4⟩
def CHAIN_XTIME_LEAD_LIM : Fld := ⟨CHAIN_XTIME, 12, 8⟩
def CHAIN_XTIME_PLAN_LEAD : Fld := ⟨CHAIN_XTIME, 24, 8⟩
/-- CHAIN_XHOPADJ: Trace delay of each port's link; replaced by the image when it names them (RW, R222). -/
def CHAIN_XHOPADJ : Reg := { name := "CHAIN_XHOPADJ", base := 0x40001104, wmask := 0xFFFFFFFF, expert := true }
def CHAIN_XHOPADJ_U_ADJ : Fld := ⟨CHAIN_XHOPADJ, 0, 16⟩
def CHAIN_XHOPADJ_D_ADJ : Fld := ⟨CHAIN_XHOPADJ, 16, 16⟩

/-! ### spec/06_cladutia_image.md, R255 -/
/-- CFG_CTRL: Fabric enable, plane selection, lock, expert control (RW, R255). -/
def CFG_CTRL : Reg := { name := "CFG_CTRL", base := 0x4000E000, wmask := 0x00000103 }
def CFG_CTRL_FABRIC_EN : Fld := ⟨CFG_CTRL, 0, 1⟩
def CFG_CTRL_EXPERT_UNLOCK : Fld := ⟨CFG_CTRL, 1, 1⟩
def CFG_CTRL_EXPERT : Fld := ⟨CFG_CTRL, 2, 1⟩
def CFG_CTRL_DEV_SEL : Fld := ⟨CFG_CTRL, 8, 1⟩
def CFG_CTRL_LOCK : Fld := ⟨CFG_CTRL, 16, 1⟩
/-- CFG_STAT: Active planes and pending swaps (RO, R255). -/
def CFG_STAT : Reg := { name := "CFG_STAT", base := 0x4000E004 }
def CFG_STAT_FABRIC_ON : Fld := ⟨CFG_STAT, 0, 1⟩
def CFG_STAT_DEV_PLANE : Fld := ⟨CFG_STAT, 1, 1⟩
def CFG_STAT_CHECK_BUSY : Fld := ⟨CFG_STAT, 2, 1⟩
def CFG_STAT_QUEUE : Fld := ⟨CFG_STAT, 4, 4⟩
def CFG_STAT_RAIL_PLANE : Fld := ⟨CFG_STAT, 8, 8⟩
def CFG_STAT_RAIL_PEND : Fld := ⟨CFG_STAT, 16, 8⟩
def CFG_STAT_DEV_PEND : Fld := ⟨CFG_STAT, 24, 1⟩
/-- CFG_FLAGS: Sticky flags (W1C, R255). -/
def CFG_FLAGS : Reg := { name := "CFG_FLAGS", base := 0x4000E008, w1c := 0x000000FF }
def CFG_FLAGS_ACCEPTED : Fld := ⟨CFG_FLAGS, 0, 1⟩
def CFG_FLAGS_REFUSED : Fld := ⟨CFG_FLAGS, 1, 1⟩
def CFG_FLAGS_SWAP_DONE : Fld := ⟨CFG_FLAGS, 2, 1⟩
def CFG_FLAGS_SCRUB_CORR : Fld := ⟨CFG_FLAGS, 3, 1⟩
def CFG_FLAGS_CRC_BG : Fld := ⟨CFG_FLAGS, 4, 1⟩
def CFG_FLAGS_WR_REFUSED : Fld := ⟨CFG_FLAGS, 5, 1⟩
def CFG_FLAGS_FAB_CLR_REJ : Fld := ⟨CFG_FLAGS, 6, 1⟩
def CFG_FLAGS_CHECK_DONE : Fld := ⟨CFG_FLAGS, 7, 1⟩
/-- CFG_EVEN: Bit b enables CFG_FLAGS bit b (RW, R255). -/
def CFG_EVEN : Reg := { name := "CFG_EVEN", base := 0x4000E00C, wmask := 0x000000FF }
/-- CFG_SWAP: Swap request (WO, R255). -/
def CFG_SWAP : Reg := { name := "CFG_SWAP", base := 0x4000E010 }
def CFG_SWAP_GO : Fld := ⟨CFG_SWAP, 0, 1⟩
def CFG_SWAP_SCOPE : Fld := ⟨CFG_SWAP, 1, 1⟩
def CFG_SWAP_RAIL : Fld := ⟨CFG_SWAP, 4, 3⟩
def CFG_SWAP_PLANE : Fld := ⟨CFG_SWAP, 8, 1⟩
/-- CFG_CHECK: Dry-run request (WO, R255). -/
def CFG_CHECK : Reg := { name := "CFG_CHECK", base := 0x4000E014 }
def CFG_CHECK_GO : Fld := ⟨CFG_CHECK, 0, 1⟩
def CFG_CHECK_SCOPE : Fld := ⟨CFG_CHECK, 1, 1⟩
def CFG_CHECK_RAIL : Fld := ⟨CFG_CHECK, 4, 3⟩
def CFG_CHECK_PLANE : Fld := ⟨CFG_CHECK, 8, 1⟩
/-- CFG_GSTAT: Result of the latest check (RO, R255). -/
def CFG_GSTAT : Reg := { name := "CFG_GSTAT", base := 0x4000E018 }
def CFG_GSTAT_REASON : Fld := ⟨CFG_GSTAT, 0, 8⟩
def CFG_GSTAT_SOURCE : Fld := ⟨CFG_GSTAT, 8, 8⟩
def CFG_GSTAT_SECT : Fld := ⟨CFG_GSTAT, 16, 7⟩
def CFG_GSTAT_DETAIL : Fld := ⟨CFG_GSTAT, 24, 8⟩
/-- CFG_GCOUNT: Checks accepted and refused (RO, R255). -/
def CFG_GCOUNT : Reg := { name := "CFG_GCOUNT", base := 0x4000E01C }
def CFG_GCOUNT_ACCEPTS : Fld := ⟨CFG_GCOUNT, 0, 16⟩
def CFG_GCOUNT_REFUSALS : Fld := ⟨CFG_GCOUNT, 16, 16⟩
/-- CFG_SCRUB: Scrub counts (RO, R255). -/
def CFG_SCRUB : Reg := { name := "CFG_SCRUB", base := 0x4000E020 }
def CFG_SCRUB_CORR : Fld := ⟨CFG_SCRUB, 0, 16⟩
def CFG_SCRUB_PASSES : Fld := ⟨CFG_SCRUB, 16, 16⟩
/-- CFG_BGCRC: Background CRC mismatch (RO, R255). -/
def CFG_BGCRC : Reg := { name := "CFG_BGCRC", base := 0x4000E024 }
def CFG_BGCRC_SECT : Fld := ⟨CFG_BGCRC, 0, 6⟩
def CFG_BGCRC_PLANE : Fld := ⟨CFG_BGCRC, 8, 1⟩
def CFG_BGCRC_PENDING : Fld := ⟨CFG_BGCRC, 16, 1⟩
/-- CFG_MINVER: Minimum IMAGE_VER (RWL, R255). -/
def CFG_MINVER : Reg := { name := "CFG_MINVER", base := 0x4000E028, wmask := 0xFFFFFFFF }
def CFG_MINVER_MINVER : Fld := ⟨CFG_MINVER, 0, 32⟩
/-- CFG_VER_A: IMAGE_VER of plane A at its latest check (RO, R255). -/
def CFG_VER_A : Reg := { name := "CFG_VER_A", base := 0x4000E02C }
/-- CFG_VER_B: IMAGE_VER of plane B at its latest check (RO, R255). -/
def CFG_VER_B : Reg := { name := "CFG_VER_B", base := 0x4000E030 }
/-- CFG_WRERR: Address of the latest write refused by R38 (RO, R255). -/
def CFG_WRERR : Reg := { name := "CFG_WRERR", base := 0x4000E034 }
/-- CFG_XSCRUB: Scrub step and background CRC (RW, R255). -/
def CFG_XSCRUB : Reg := { name := "CFG_XSCRUB", base := 0x4000E100, wmask := 0x000001FF, expert := true, reset := 0x00000104 }
def CFG_XSCRUB_STEP : Fld := ⟨CFG_XSCRUB, 0, 8⟩
def CFG_XSCRUB_BGCRC_EN : Fld := ⟨CFG_XSCRUB, 8, 1⟩

/-! ### spec/07_measurement_log.md, R278 -/
/-- ACCUM_CTRL: Background test, expert control (RW, R278). -/
def ACCUM_CTRL : Reg := { name := "ACCUM_CTRL", base := 0x4000A000, wmask := 0x00000003, reset := 0x00000001 }
def ACCUM_CTRL_BG_EN : Fld := ⟨ACCUM_CTRL, 0, 1⟩
def ACCUM_CTRL_EXPERT_UNLOCK : Fld := ⟨ACCUM_CTRL, 1, 1⟩
def ACCUM_CTRL_EXPERT : Fld := ⟨ACCUM_CTRL, 2, 1⟩
/-- ACCUM_FLAGS: Global flags (W1C, R278). -/
def ACCUM_FLAGS : Reg := { name := "ACCUM_FLAGS", base := 0x4000A004, w1c := 0x0000003F }
def ACCUM_FLAGS_WR_REJ : Fld := ⟨ACCUM_FLAGS, 0, 1⟩
def ACCUM_FLAGS_OW_DONE : Fld := ⟨ACCUM_FLAGS, 1, 1⟩
def ACCUM_FLAGS_OW_OPEN : Fld := ⟨ACCUM_FLAGS, 2, 1⟩
def ACCUM_FLAGS_LOP_DONE : Fld := ⟨ACCUM_FLAGS, 3, 1⟩
def ACCUM_FLAGS_LOP_BAD : Fld := ⟨ACCUM_FLAGS, 4, 1⟩
def ACCUM_FLAGS_LOP_REJ : Fld := ⟨ACCUM_FLAGS, 5, 1⟩
/-- ACCUM_EVEN: Bit b enables ACCUM_FLAGS bit b (RW, R278). -/
def ACCUM_EVEN : Reg := { name := "ACCUM_EVEN", base := 0x4000A008, wmask := 0x0000003F }
/-- ACCUM_TSCAL: TSEN conversion (RW, R278). -/
def ACCUM_TSCAL : Reg := { name := "ACCUM_TSCAL", base := 0x4000A00C, wmask := 0xFFFFFFFF, reset := 0x08000258 }
def ACCUM_TSCAL_TZERO : Fld := ⟨ACCUM_TSCAL, 0, 16⟩
def ACCUM_TSCAL_TSLOPE : Fld := ⟨ACCUM_TSCAL, 16, 16⟩
/-- ACCUM_NEW: Bit u mod 32: new average (W1C, R278). -/
def ACCUM_NEW : Reg := { name := "ACCUM_NEW", base := 0x4000A010, count := 2, stride := 0x4, w1c := 0xFFFFFFFF }
/-- ACCUM_LIM: Bit u mod 32: limit crossed (W1C, R278). -/
def ACCUM_LIM : Reg := { name := "ACCUM_LIM", base := 0x4000A018, count := 2, stride := 0x4, w1c := 0xFFFFFFFF }
/-- ACCUM_NEWEN: Event enables (RW, R278). -/
def ACCUM_NEWEN : Reg := { name := "ACCUM_NEWEN", base := 0x4000A020, count := 2, stride := 0x4, wmask := 0xFFFFFFFF }
/-- ACCUM_LIMEN: Event enables (RW, R278). -/
def ACCUM_LIMEN : Reg := { name := "ACCUM_LIMEN", base := 0x4000A028, count := 2, stride := 0x4, wmask := 0xFFFFFFFF }
/-- ACCUM_OWCMD: Static test request (WO, R278). -/
def ACCUM_OWCMD : Reg := { name := "ACCUM_OWCMD", base := 0x4000A030 }
def ACCUM_OWCMD_INDEX : Fld := ⟨ACCUM_OWCMD, 0, 5⟩
def ACCUM_OWCMD_KIND : Fld := ⟨ACCUM_OWCMD, 5, 1⟩
def ACCUM_OWCMD_GO : Fld := ⟨ACCUM_OWCMD, 8, 1⟩
/-- ACCUM_OWSTAT: Static test state and result (RO, R278). -/
def ACCUM_OWSTAT : Reg := { name := "ACCUM_OWSTAT", base := 0x4000A034 }
def ACCUM_OWSTAT_STATE : Fld := ⟨ACCUM_OWSTAT, 0, 2⟩
def ACCUM_OWSTAT_RESULT : Fld := ⟨ACCUM_OWSTAT, 4, 3⟩
def ACCUM_OWSTAT_INDEX : Fld := ⟨ACCUM_OWSTAT, 8, 5⟩
def ACCUM_OWSTAT_KIND : Fld := ⟨ACCUM_OWSTAT, 13, 1⟩
/-- ACCUM_OWDIFF: DP and DN (RO, R278). -/
def ACCUM_OWDIFF : Reg := { name := "ACCUM_OWDIFF", base := 0x4000A038 }
def ACCUM_OWDIFF_DP : Fld := ⟨ACCUM_OWDIFF, 0, 16⟩
def ACCUM_OWDIFF_DN : Fld := ⟨ACCUM_OWDIFF, 16, 16⟩
/-- ACCUM_OWBGS: Bit i: background open on slice i (W1C, R278). -/
def ACCUM_OWBGS : Reg := { name := "ACCUM_OWBGS", base := 0x4000A03C, w1c := 0xFFFFFFFF }
/-- ACCUM_OWBGR: Bit n: background open on rail n (W1C, R278). -/
def ACCUM_OWBGR : Reg := { name := "ACCUM_OWBGR", base := 0x4000A040, w1c := 0x000000FF }
/-- ACCUM_LOPCMD: Long-operation start and abort (WO, R278). -/
def ACCUM_LOPCMD : Reg := { name := "ACCUM_LOPCMD", base := 0x4000A050 }
def ACCUM_LOPCMD_OP : Fld := ⟨ACCUM_LOPCMD, 0, 2⟩
def ACCUM_LOPCMD_RAIL : Fld := ⟨ACCUM_LOPCMD, 4, 3⟩
def ACCUM_LOPCMD_START : Fld := ⟨ACCUM_LOPCMD, 8, 1⟩
def ACCUM_LOPCMD_ABORT : Fld := ⟨ACCUM_LOPCMD, 9, 1⟩
/-- ACCUM_LOPSTAT: Status word by R18 (RO, R278). -/
def ACCUM_LOPSTAT : Reg := { name := "ACCUM_LOPSTAT", base := 0x4000A054 }
def ACCUM_LOPSTAT_STATE : Fld := ⟨ACCUM_LOPSTAT, 28, 4⟩
def ACCUM_LOPSTAT_PROGRESS : Fld := ⟨ACCUM_LOPSTAT, 16, 12⟩
def ACCUM_LOPSTAT_PARTIALS : Fld := ⟨ACCUM_LOPSTAT, 8, 8⟩
def ACCUM_LOPSTAT_REASON : Fld := ⟨ACCUM_LOPSTAT, 1, 7⟩
def ACCUM_LOPSTAT_ABORT_LATE : Fld := ⟨ACCUM_LOPSTAT, 0, 1⟩
/-- ACCUM_LOPCFG: Parameters (RW, R278). -/
def ACCUM_LOPCFG : Reg := { name := "ACCUM_LOPCFG", base := 0x4000A058, count := 4, stride := 0x4, wmask := 0xFFFFFFFF }
/-- ACCUM_LOPREJ: Last refusal (RO, R278). -/
def ACCUM_LOPREJ : Reg := { name := "ACCUM_LOPREJ", base := 0x4000A068 }
def ACCUM_LOPREJ_CODE : Fld := ⟨ACCUM_LOPREJ, 0, 8⟩
def ACCUM_LOPREJ_COUNT : Fld := ⟨ACCUM_LOPREJ, 8, 8⟩
/-- ACCUM_LOPINFO: Operation in progress or last run (RO, R278). -/
def ACCUM_LOPINFO : Reg := { name := "ACCUM_LOPINFO", base := 0x4000A06C }
def ACCUM_LOPINFO_OP : Fld := ⟨ACCUM_LOPINFO, 0, 2⟩
def ACCUM_LOPINFO_RAIL : Fld := ⟨ACCUM_LOPINFO, 4, 3⟩
def ACCUM_LOPINFO_UBASE : Fld := ⟨ACCUM_LOPINFO, 8, 6⟩
def ACCUM_LOPINFO_HELD : Fld := ⟨ACCUM_LOPINFO, 16, 1⟩
/-- ACCUM_XOW: Static thresholds (RW, R278). -/
def ACCUM_XOW : Reg := { name := "ACCUM_XOW", base := 0x4000A0E0, wmask := 0x00FFFFFF, expert := true, reset := 0x00040400 }
def ACCUM_XOW_TH_OPEN : Fld := ⟨ACCUM_XOW, 0, 12⟩
def ACCUM_XOW_TH_CONN : Fld := ⟨ACCUM_XOW, 12, 12⟩
/-- ACCUM_XOW2: Background threshold (RW, R278). -/
def ACCUM_XOW2 : Reg := { name := "ACCUM_XOW2", base := 0x4000A0E4, wmask := 0x000F0FFF, expert := true, reset := 0x00080080 }
def ACCUM_XOW2_TH_BG : Fld := ⟨ACCUM_XOW2, 0, 12⟩
def ACCUM_XOW2_BG_PAIRS : Fld := ⟨ACCUM_XOW2, 16, 4⟩
/-- ACCUMu_CFG: Routing in force (RO, R278). -/
def ACCUMu_CFG : Reg := { name := "ACCUMu_CFG", base := 0x4000A100, count := 64, stride := 0x20 }
def ACCUMu_CFG_SOURCE : Fld := ⟨ACCUMu_CFG, 0, 8⟩
def ACCUMu_CFG_NAVG : Fld := ⟨ACCUMu_CFG, 8, 4⟩
def ACCUMu_CFG_SHIFT : Fld := ⟨ACCUMu_CFG, 12, 4⟩
def ACCUMu_CFG_WIN : Fld := ⟨ACCUMu_CFG, 16, 4⟩
def ACCUMu_CFG_EN : Fld := ⟨ACCUMu_CFG, 24, 1⟩
def ACCUMu_CFG_HELD : Fld := ⟨ACCUMu_CFG, 31, 1⟩
/-- ACCUMu_AVG: s32 average (RO, R278). -/
def ACCUMu_AVG : Reg := { name := "ACCUMu_AVG", base := 0x4000A104, count := 64, stride := 0x20 }
/-- ACCUMu_WMIN: s32 window minimum (RO, R278). -/
def ACCUMu_WMIN : Reg := { name := "ACCUMu_WMIN", base := 0x4000A108, count := 64, stride := 0x20 }
/-- ACCUMu_WMAX: s32 window maximum (RO, R278). -/
def ACCUMu_WMAX : Reg := { name := "ACCUMu_WMAX", base := 0x4000A10C, count := 64, stride := 0x20 }
/-- ACCUMu_STAT: Sequence, tags, state (RO, R278). -/
def ACCUMu_STAT : Reg := { name := "ACCUMu_STAT", base := 0x4000A110, count := 64, stride := 0x20, reset := 0x02000000 }
def ACCUMu_STAT_SEQ : Fld := ⟨ACCUMu_STAT, 0, 16⟩
def ACCUMu_STAT_TAGS : Fld := ⟨ACCUMu_STAT, 16, 9⟩
def ACCUMu_STAT_IDLE : Fld := ⟨ACCUMu_STAT, 25, 1⟩
def ACCUMu_STAT_ABOVE : Fld := ⟨ACCUMu_STAT, 26, 1⟩
def ACCUMu_STAT_BELOW : Fld := ⟨ACCUMu_STAT, 27, 1⟩
def ACCUMu_STAT_FRESH : Fld := ⟨ACCUMu_STAT, 28, 1⟩
/-- ACCUMu_LIMHI: Upper limit, s32 (RW, R278). -/
def ACCUMu_LIMHI : Reg := { name := "ACCUMu_LIMHI", base := 0x4000A114, count := 64, stride := 0x20, wmask := 0xFFFFFFFF, reset := 0x7FFFFFFF }
/-- ACCUMu_LIMLO: Lower limit, s32 (RW, R278). -/
def ACCUMu_LIMLO : Reg := { name := "ACCUMu_LIMLO", base := 0x4000A118, count := 64, stride := 0x20, wmask := 0xFFFFFFFF, reset := 0x80000000 }
/-- ACCUMu_CTRL: Restart (WO, R278). -/
def ACCUMu_CTRL : Reg := { name := "ACCUMu_CTRL", base := 0x4000A11C, count := 64, stride := 0x20 }
def ACCUMu_CTRL_RESTART : Fld := ⟨ACCUMu_CTRL, 0, 1⟩
/-- ACCUMu_XROUTE: Expert routing (RW, R278). -/
def ACCUMu_XROUTE : Reg := { name := "ACCUMu_XROUTE", base := 0x4000AA00, count := 64, stride := 0x4, wmask := 0x010FFFFF, expert := true }
def ACCUMu_XROUTE_SOURCE : Fld := ⟨ACCUMu_XROUTE, 0, 8⟩
def ACCUMu_XROUTE_NAVG : Fld := ⟨ACCUMu_XROUTE, 8, 4⟩
def ACCUMu_XROUTE_SHIFT : Fld := ⟨ACCUMu_XROUTE, 12, 4⟩
def ACCUMu_XROUTE_WIN : Fld := ⟨ACCUMu_XROUTE, 16, 4⟩
def ACCUMu_XROUTE_EN : Fld := ⟨ACCUMu_XROUTE, 24, 1⟩
/-- ACCUM_RES: Result window (RO, R278). -/
def ACCUM_RES : Reg := { name := "ACCUM_RES", base := 0x4000AC00, count := 256, stride := 0x4 }

/-! ### spec/07_measurement_log.md, R291 -/
/-- LOG_CTRL: Spill, release, loss clear, alert, expert control (RW, R291). -/
def LOG_CTRL : Reg := { name := "LOG_CTRL", base := 0x4000D000, wmask := 0x00000103 }
def LOG_CTRL_SPILL_EN : Fld := ⟨LOG_CTRL, 0, 1⟩
def LOG_CTRL_EXPERT_UNLOCK : Fld := ⟨LOG_CTRL, 1, 1⟩
def LOG_CTRL_EXPERT : Fld := ⟨LOG_CTRL, 2, 1⟩
def LOG_CTRL_RELEASE : Fld := ⟨LOG_CTRL, 4, 1⟩
def LOG_CTRL_CLRLOSS : Fld := ⟨LOG_CTRL, 5, 1⟩
def LOG_CTRL_ALERT_C0 : Fld := ⟨LOG_CTRL, 8, 1⟩
/-- LOG_STAT: Incident, mode, loss, occupancy (RO, R291). -/
def LOG_STAT : Reg := { name := "LOG_STAT", base := 0x4000D004 }
def LOG_STAT_INCIDENT : Fld := ⟨LOG_STAT, 0, 1⟩
def LOG_STAT_COALESCE : Fld := ⟨LOG_STAT, 1, 1⟩
def LOG_STAT_LOSSY : Fld := ⟨LOG_STAT, 2, 1⟩
def LOG_STAT_SPILL_BUSY : Fld := ⟨LOG_STAT, 3, 1⟩
def LOG_STAT_GROUPS : Fld := ⟨LOG_STAT, 4, 3⟩
def LOG_STAT_OCC : Fld := ⟨LOG_STAT, 16, 12⟩
/-- LOG_FLAGS: Sticky flags (W1C, R291). -/
def LOG_FLAGS : Reg := { name := "LOG_FLAGS", base := 0x4000D008, w1c := 0x000001FF }
def LOG_FLAGS_C0_WRITTEN : Fld := ⟨LOG_FLAGS, 0, 1⟩
def LOG_FLAGS_INC_OPEN : Fld := ⟨LOG_FLAGS, 1, 1⟩
def LOG_FLAGS_INC_CLOSE : Fld := ⟨LOG_FLAGS, 2, 1⟩
def LOG_FLAGS_LOSS : Fld := ⟨LOG_FLAGS, 3, 1⟩
def LOG_FLAGS_FREEZE_SKIP : Fld := ⟨LOG_FLAGS, 4, 1⟩
def LOG_FLAGS_SPILL_FULL : Fld := ⟨LOG_FLAGS, 5, 1⟩
def LOG_FLAGS_SPILL_ERR : Fld := ⟨LOG_FLAGS, 6, 1⟩
def LOG_FLAGS_SWREJ : Fld := ⟨LOG_FLAGS, 7, 1⟩
def LOG_FLAGS_ACK_REJ : Fld := ⟨LOG_FLAGS, 8, 1⟩
/-- LOG_EVEN: Bit b enables LOG_FLAGS bit b (RW, R291). -/
def LOG_EVEN : Reg := { name := "LOG_EVEN", base := 0x4000D00C, wmask := 0x000001FF }
/-- LOG_NEXT: Oldest unread slot; pins it (RO, R291). -/
def LOG_NEXT : Reg := { name := "LOG_NEXT", base := 0x4000D010 }
def LOG_NEXT_SLOT : Fld := ⟨LOG_NEXT, 0, 11⟩
def LOG_NEXT_VALID : Fld := ⟨LOG_NEXT, 31, 1⟩
/-- LOG_ACK: Acknowledge a slot (WO, R291). -/
def LOG_ACK : Reg := { name := "LOG_ACK", base := 0x4000D014 }
def LOG_ACK_SLOT : Fld := ⟨LOG_ACK, 0, 11⟩
/-- LOG_UNREAD: Unread counts (RO, R291). -/
def LOG_UNREAD : Reg := { name := "LOG_UNREAD", base := 0x4000D018 }
def LOG_UNREAD_ALL : Fld := ⟨LOG_UNREAD, 0, 12⟩
def LOG_UNREAD_C0 : Fld := ⟨LOG_UNREAD, 16, 12⟩
/-- LOG_SEQ: Next SEQ (RO, R291). -/
def LOG_SEQ : Reg := { name := "LOG_SEQ", base := 0x4000D01C }
/-- LOG_LOSS: Loss per class, by R287 (RO, R291). -/
def LOG_LOSS : Reg := { name := "LOG_LOSS", base := 0x4000D020, count := 4, stride := 0x4 }
/-- LOG_COALCNT: Merges, saturating (RO, R291). -/
def LOG_COALCNT : Reg := { name := "LOG_COALCNT", base := 0x4000D030 }
/-- LOG_SPILLBASE: QSPI byte address, 4 KiB aligned (RW, R291). -/
def LOG_SPILLBASE : Reg := { name := "LOG_SPILLBASE", base := 0x4000D034, wmask := 0xFFFFF000 }
/-- LOG_SPILLSIZE: [15:0] SIZE, 4 KiB units (RW, R291). -/
def LOG_SPILLSIZE : Reg := { name := "LOG_SPILLSIZE", base := 0x4000D038, wmask := 0x0000FFFF }
def LOG_SPILLSIZE_SIZE : Fld := ⟨LOG_SPILLSIZE, 0, 16⟩
/-- LOG_SPILLPTR: Entries spilled (RO, R291). -/
def LOG_SPILLPTR : Reg := { name := "LOG_SPILLPTR", base := 0x4000D03C }
/-- LOG_INCID: Incident number and state (RO, R291). -/
def LOG_INCID : Reg := { name := "LOG_INCID", base := 0x4000D040 }
def LOG_INCID_NUMBER : Fld := ⟨LOG_INCID, 0, 16⟩
def LOG_INCID_OPEN : Fld := ⟨LOG_INCID, 16, 1⟩
def LOG_INCID_FROZEN_N : Fld := ⟨LOG_INCID, 24, 7⟩
/-- LOG_EPOCH: RT wraps since POR (RO, R291). -/
def LOG_EPOCH : Reg := { name := "LOG_EPOCH", base := 0x4000D044 }
/-- LOG_SWDATA: DATA0–DATA3 of a software post (RW, R291). -/
def LOG_SWDATA : Reg := { name := "LOG_SWDATA", base := 0x4000D050, count := 4, stride := 0x4, wmask := 0xFFFFFFFF }
/-- LOG_SWPOST: Software post, by R282 (WO, R291). -/
def LOG_SWPOST : Reg := { name := "LOG_SWPOST", base := 0x4000D060 }
def LOG_SWPOST_TYPE : Fld := ⟨LOG_SWPOST, 0, 12⟩
def LOG_SWPOST_CLASS : Fld := ⟨LOG_SWPOST, 12, 2⟩
def LOG_SWPOST_SRC : Fld := ⟨LOG_SWPOST, 16, 8⟩
/-- LOG_XCFG: Quiet time and high-water mark (RW, R291). -/
def LOG_XCFG : Reg := { name := "LOG_XCFG", base := 0x4000D100, wmask := 0x000FFFFF, expert := true, reset := 0x00060064 }
def LOG_XCFG_QUIET : Fld := ⟨LOG_XCFG, 0, 8⟩
def LOG_XCFG_HWM : Fld := ⟨LOG_XCFG, 8, 12⟩

/-! ### spec/08_modes_power_reset.md, R321 -/
/-- BD_REG: Battery-backed words (By R318, R321). -/
def BD_REG : Reg := { name := "BD_REG", base := 0xF0000000, count := 64, stride := 0x4, wmask := 0xFFFFFFFF }
/-- BD_CTRL: Alarm enable, clear (RW, R321). -/
def BD_CTRL : Reg := { name := "BD_CTRL", base := 0xF0000100, wmask := 0x00000001 }
def BD_CTRL_ALARM_EN : Fld := ⟨BD_CTRL, 0, 1⟩
def BD_CTRL_CLEAR : Fld := ⟨BD_CTRL, 1, 1⟩
def BD_CTRL_KEY : Fld := ⟨BD_CTRL, 16, 16⟩
/-- BD_STAT: Oscillator, record pointer, reset seen (RO, R321). -/
def BD_STAT : Reg := { name := "BD_STAT", base := 0xF0000104, reset := 0x00000004 }
def BD_STAT_OSC_OK : Fld := ⟨BD_STAT, 0, 1⟩
def BD_STAT_BAT_RESET_SEEN : Fld := ⟨BD_STAT, 2, 1⟩
def BD_STAT_SREC_NEXT : Fld := ⟨BD_STAT, 4, 2⟩
def BD_STAT_VBAT_LOW : Fld := ⟨BD_STAT, 8, 1⟩
/-- BD_TIME_LO: BD_TIME [31:0] (RW, R321). -/
def BD_TIME_LO : Reg := { name := "BD_TIME_LO", base := 0xF0000108, wmask := 0xFFFFFFFF }
/-- BD_TIME_HI: [15:0] BD_TIME [47:32] (RW, R321). -/
def BD_TIME_HI : Reg := { name := "BD_TIME_HI", base := 0xF000010C, wmask := 0x0000FFFF }
def BD_TIME_HI_HI : Fld := ⟨BD_TIME_HI, 0, 16⟩
/-- BD_ALARM_LO: Alarm [31:0] (RW, R321). -/
def BD_ALARM_LO : Reg := { name := "BD_ALARM_LO", base := 0xF0000110, wmask := 0xFFFFFFFF }
/-- BD_ALARM_HI: [15:0] alarm [47:32] (RW, R321). -/
def BD_ALARM_HI : Reg := { name := "BD_ALARM_HI", base := 0xF0000114, wmask := 0x0000FFFF }
def BD_ALARM_HI_HI : Fld := ⟨BD_ALARM_HI, 0, 16⟩
/-- BD_SLEEPT_LO: BD_TIME [31:0] at the latest S0 (RO, R321). -/
def BD_SLEEPT_LO : Reg := { name := "BD_SLEEPT_LO", base := 0xF0000118 }
/-- BD_SLEEPT_HI: [15:0] BD_TIME [47:32] at the latest S0 (RO, R321). -/
def BD_SLEEPT_HI : Reg := { name := "BD_SLEEPT_HI", base := 0xF000011C }

/-! ### spec/08_modes_power_reset.md, R323 -/
/-- SYSCTL_CTRL: Expert control (RW, R323). -/
def SYSCTL_CTRL : Reg := { name := "SYSCTL_CTRL", base := 0x40000000, wmask := 0x00000002 }
def SYSCTL_CTRL_EXPERT_UNLOCK : Fld := ⟨SYSCTL_CTRL, 1, 1⟩
def SYSCTL_CTRL_EXPERT : Fld := ⟨SYSCTL_CTRL, 2, 1⟩
/-- SYSCTL_MODE: Mode, SAFE cause, refusal (RO, R323). -/
def SYSCTL_MODE : Reg := { name := "SYSCTL_MODE", base := 0x40000004, reset := 0x00000002 }
def SYSCTL_MODE_MODE : Fld := ⟨SYSCTL_MODE, 0, 3⟩
def SYSCTL_MODE_SAFE_CAUSE : Fld := ⟨SYSCTL_MODE, 8, 8⟩
def SYSCTL_MODE_REJ : Fld := ⟨SYSCTL_MODE, 16, 4⟩
/-- SYSCTL_MODECMD: Mode request (WO, R323). -/
def SYSCTL_MODECMD : Reg := { name := "SYSCTL_MODECMD", base := 0x40000008 }
def SYSCTL_MODECMD_MODE : Fld := ⟨SYSCTL_MODECMD, 0, 3⟩
def SYSCTL_MODECMD_KEY : Fld := ⟨SYSCTL_MODECMD, 16, 16⟩
/-- SYSCTL_FLAGS: Sticky flags (W1C, R323). -/
def SYSCTL_FLAGS : Reg := { name := "SYSCTL_FLAGS", base := 0x4000000C, w1c := 0x0000007F }
def SYSCTL_FLAGS_MODE_REJ : Fld := ⟨SYSCTL_FLAGS, 0, 1⟩
def SYSCTL_FLAGS_KEY_REJ : Fld := ⟨SYSCTL_FLAGS, 1, 1⟩
def SYSCTL_FLAGS_SLEEP_ABORT : Fld := ⟨SYSCTL_FLAGS, 2, 1⟩
def SYSCTL_FLAGS_TIMERS_HELD : Fld := ⟨SYSCTL_FLAGS, 3, 1⟩
def SYSCTL_FLAGS_MAKEUP_BAD : Fld := ⟨SYSCTL_FLAGS, 4, 1⟩
def SYSCTL_FLAGS_WDOG_WARN : Fld := ⟨SYSCTL_FLAGS, 5, 1⟩
def SYSCTL_FLAGS_SAFE_ENTERED : Fld := ⟨SYSCTL_FLAGS, 6, 1⟩
/-- SYSCTL_EVEN: Bit b enables SYSCTL_FLAGS bit b (RW, R323). -/
def SYSCTL_EVEN : Reg := { name := "SYSCTL_EVEN", base := 0x40000010, wmask := 0x0000007F }
/-- SYSCTL_RESETCAUSE: Latest reset (RO, R323). -/
def SYSCTL_RESETCAUSE : Reg := { name := "SYSCTL_RESETCAUSE", base := 0x40000014, reset := 0x00000005 }
def SYSCTL_RESETCAUSE_CAUSE : Fld := ⟨SYSCTL_RESETCAUSE, 0, 8⟩
def SYSCTL_RESETCAUSE_MODE : Fld := ⟨SYSCTL_RESETCAUSE, 8, 3⟩
/-- SYSCTL_RESET: Software reset, by R305 (WO, R323). -/
def SYSCTL_RESET : Reg := { name := "SYSCTL_RESET", base := 0x40000018 }
def SYSCTL_RESET_GO : Fld := ⟨SYSCTL_RESET, 0, 1⟩
def SYSCTL_RESET_KEY : Fld := ⟨SYSCTL_RESET, 16, 16⟩
/-- SYSCTL_SUPPLY: Comparator states (RO, R323). -/
def SYSCTL_SUPPLY : Reg := { name := "SYSCTL_SUPPLY", base := 0x4000001C, reset := 0x0000000F }
def SYSCTL_SUPPLY_POR_OK : Fld := ⟨SYSCTL_SUPPLY, 0, 4⟩
def SYSCTL_SUPPLY_WARN : Fld := ⟨SYSCTL_SUPPLY, 4, 8⟩
/-- SYSCTL_WAKEEN: Wake enables (RW, R323). -/
def SYSCTL_WAKEEN : Reg := { name := "SYSCTL_WAKEEN", base := 0x40000020, wmask := 0xFFFF003F }
def SYSCTL_WAKEEN_HOST : Fld := ⟨SYSCTL_WAKEEN, 0, 1⟩
def SYSCTL_WAKEEN_RING : Fld := ⟨SYSCTL_WAKEEN, 1, 1⟩
def SYSCTL_WAKEEN_INTENT : Fld := ⟨SYSCTL_WAKEEN, 2, 1⟩
def SYSCTL_WAKEEN_GPIO : Fld := ⟨SYSCTL_WAKEEN, 3, 1⟩
def SYSCTL_WAKEEN_ENPIN : Fld := ⟨SYSCTL_WAKEEN, 4, 1⟩
def SYSCTL_WAKEEN_ALARM : Fld := ⟨SYSCTL_WAKEEN, 5, 1⟩
def SYSCTL_WAKEEN_TIMER : Fld := ⟨SYSCTL_WAKEEN, 16, 16⟩
/-- SYSCTL_WAKESRC: Source of the latest wake (RO, R323). -/
def SYSCTL_WAKESRC : Reg := { name := "SYSCTL_WAKESRC", base := 0x40000024 }
def SYSCTL_WAKESRC_SOURCE : Fld := ⟨SYSCTL_WAKESRC, 0, 4⟩
def SYSCTL_WAKESRC_TIMER : Fld := ⟨SYSCTL_WAKESRC, 8, 4⟩
/-- SYSCTL_SLEEPN: n of the latest sleep, slow-clock periods (RO, R323). -/
def SYSCTL_SLEEPN : Reg := { name := "SYSCTL_SLEEPN", base := 0x40000028 }
/-- SYSCTL_MAKEUP_LO: W [31:0] (RO, R323). -/
def SYSCTL_MAKEUP_LO : Reg := { name := "SYSCTL_MAKEUP_LO", base := 0x4000002C }
/-- SYSCTL_MAKEUP_HI: W [47:32] and FRAC (RO, R323). -/
def SYSCTL_MAKEUP_HI : Reg := { name := "SYSCTL_MAKEUP_HI", base := 0x40000030 }
def SYSCTL_MAKEUP_HI_W_HI : Fld := ⟨SYSCTL_MAKEUP_HI, 0, 16⟩
def SYSCTL_MAKEUP_HI_FRAC : Fld := ⟨SYSCTL_MAKEUP_HI, 16, 6⟩
/-- SYSCTL_WDOG: Watchdog (RW, R323). -/
def SYSCTL_WDOG : Reg := { name := "SYSCTL_WDOG", base := 0x40000034, wmask := 0x00FFFF00 }
def SYSCTL_WDOG_EN : Fld := ⟨SYSCTL_WDOG, 0, 1⟩
def SYSCTL_WDOG_TIMEOUT : Fld := ⟨SYSCTL_WDOG, 8, 16⟩
/-- SYSCTL_WDOGKICK: Watchdog service (WO, R323). -/
def SYSCTL_WDOGKICK : Reg := { name := "SYSCTL_WDOGKICK", base := 0x40000038 }
def SYSCTL_WDOGKICK_KEY : Fld := ⟨SYSCTL_WDOGKICK, 0, 16⟩
/-- SYSCTL_FAULTCMD: Firmware FAULT_N assertion, by R33 (RW, R323). -/
def SYSCTL_FAULTCMD : Reg := { name := "SYSCTL_FAULTCMD", base := 0x4000003C, wmask := 0x00000001 }
def SYSCTL_FAULTCMD_ASSERT : Fld := ⟨SYSCTL_FAULTCMD, 0, 1⟩
/-- SYSCTL_OWNER: Peripheral owners during handover (RO, R323). -/
def SYSCTL_OWNER : Reg := { name := "SYSCTL_OWNER", base := 0x40000040 }
def SYSCTL_OWNER_PERIPH : Fld := ⟨SYSCTL_OWNER, 0, 16⟩
def SYSCTL_OWNER_FABRIC : Fld := ⟨SYSCTL_OWNER, 16, 1⟩
def SYSCTL_OWNER_PLANES : Fld := ⟨SYSCTL_OWNER, 17, 1⟩
def SYSCTL_OWNER_BATDOM : Fld := ⟨SYSCTL_OWNER, 18, 1⟩
/-- SYSCTL_CLK: Clock source and lock (RO, R323). -/
def SYSCTL_CLK : Reg := { name := "SYSCTL_CLK", base := 0x40000044 }
def SYSCTL_CLK_PLL_LOCK : Fld := ⟨SYSCTL_CLK, 0, 1⟩
def SYSCTL_CLK_SRC : Fld := ⟨SYSCTL_CLK, 1, 1⟩
def SYSCTL_CLK_ROOT : Fld := ⟨SYSCTL_CLK, 2, 1⟩
/-- SYSCTL_HKSTAT: Housekeeping scan (RO, R323). -/
def SYSCTL_HKSTAT : Reg := { name := "SYSCTL_HKSTAT", base := 0x40000048 }
def SYSCTL_HKSTAT_SLOT : Fld := ⟨SYSCTL_HKSTAT, 0, 6⟩
def SYSCTL_HKSTAT_FRAMES : Fld := ⟨SYSCTL_HKSTAT, 16, 16⟩
/-- SYSCTL_XSUP: Warning masks for test (RW, R323). -/
def SYSCTL_XSUP : Reg := { name := "SYSCTL_XSUP", base := 0x40000100, wmask := 0x000000FF, expert := true }
def SYSCTL_XSUP_WARN_MASK : Fld := ⟨SYSCTL_XSUP, 0, 8⟩

/-! ### spec/09_boot_security.md, R359 -/
/-- SECURE_CTRL: Expert control and lock (RW, R359). -/
def SECURE_CTRL : Reg := { name := "SECURE_CTRL", base := 0x4000B000, wmask := 0x00000002 }
def SECURE_CTRL_EXPERT_UNLOCK : Fld := ⟨SECURE_CTRL, 1, 1⟩
def SECURE_CTRL_EXPERT : Fld := ⟨SECURE_CTRL, 2, 1⟩
def SECURE_CTRL_LOCK : Fld := ⟨SECURE_CTRL, 8, 1⟩
/-- SECURE_STAT: Life cycle, debug, seals, operation state (RO, R359). -/
def SECURE_STAT : Reg := { name := "SECURE_STAT", base := 0x4000B004, reset := 0x00820000 }
def SECURE_STAT_LC : Fld := ⟨SECURE_STAT, 0, 3⟩
def SECURE_STAT_DBG : Fld := ⟨SECURE_STAT, 4, 2⟩
def SECURE_STAT_DEBUGGED : Fld := ⟨SECURE_STAT, 6, 1⟩
def SECURE_STAT_DBG_TRIES : Fld := ⟨SECURE_STAT, 8, 2⟩
def SECURE_STAT_VERIFIED_A : Fld := ⟨SECURE_STAT, 12, 1⟩
def SECURE_STAT_VERIFIED_B : Fld := ⟨SECURE_STAT, 13, 1⟩
def SECURE_STAT_SEAL_A : Fld := ⟨SECURE_STAT, 14, 1⟩
def SECURE_STAT_SEAL_B : Fld := ⟨SECURE_STAT, 15, 1⟩
def SECURE_STAT_BUSY : Fld := ⟨SECURE_STAT, 16, 1⟩
def SECURE_STAT_ENTROPY_OK : Fld := ⟨SECURE_STAT, 17, 1⟩
def SECURE_STAT_BOOTSTEP : Fld := ⟨SECURE_STAT, 20, 4⟩
/-- SECURE_FLAGS: Sticky flags (W1C, R359). -/
def SECURE_FLAGS : Reg := { name := "SECURE_FLAGS", base := 0x4000B008, w1c := 0x0000007F }
def SECURE_FLAGS_OP_DONE : Fld := ⟨SECURE_FLAGS, 0, 1⟩
def SECURE_FLAGS_OP_BAD : Fld := ⟨SECURE_FLAGS, 1, 1⟩
def SECURE_FLAGS_OP_REJ : Fld := ⟨SECURE_FLAGS, 2, 1⟩
def SECURE_FLAGS_TAMPER : Fld := ⟨SECURE_FLAGS, 3, 1⟩
def SECURE_FLAGS_DEBUG_OPEN : Fld := ⟨SECURE_FLAGS, 4, 1⟩
def SECURE_FLAGS_DEBUG_DENIED : Fld := ⟨SECURE_FLAGS, 5, 1⟩
def SECURE_FLAGS_SEAL_LOST : Fld := ⟨SECURE_FLAGS, 6, 1⟩
/-- SECURE_EVEN: Bit b enables SECURE_FLAGS bit b (RW, R359). -/
def SECURE_EVEN : Reg := { name := "SECURE_EVEN", base := 0x4000B00C, wmask := 0x0000007F }
/-- SECURE_BOOTREC: Boot outcome (RO, R359). -/
def SECURE_BOOTREC : Reg := { name := "SECURE_BOOTREC", base := 0x4000B010 }
def SECURE_BOOTREC_BANK : Fld := ⟨SECURE_BOOTREC, 0, 1⟩
def SECURE_BOOTREC_WARM : Fld := ⟨SECURE_BOOTREC, 1, 1⟩
def SECURE_BOOTREC_TRIAL : Fld := ⟨SECURE_BOOTREC, 2, 1⟩
def SECURE_BOOTREC_FALLBACK : Fld := ⟨SECURE_BOOTREC, 3, 1⟩
def SECURE_BOOTREC_SRAM_KEPT : Fld := ⟨SECURE_BOOTREC, 4, 1⟩
def SECURE_BOOTREC_KEYIDX : Fld := ⟨SECURE_BOOTREC, 16, 8⟩
/-- SECURE_BOOTSEQ: SEQNO of the running image (RO, R359). -/
def SECURE_BOOTSEQ : Reg := { name := "SECURE_BOOTSEQ", base := 0x4000B014 }
/-- SECURE_BOOTSVN: [15:0] FW_SVN; [31:16] SVN_NEXT (RO, R359). -/
def SECURE_BOOTSVN : Reg := { name := "SECURE_BOOTSVN", base := 0x4000B018 }
/-- SECURE_BOOTTIME: [19:0] ROM time from reset release, µs, truncated (RO, R359). -/
def SECURE_BOOTTIME : Reg := { name := "SECURE_BOOTTIME", base := 0x4000B01C }
/-- SECURE_BOOTBAD: The slot not booted (RO, R359). -/
def SECURE_BOOTBAD : Reg := { name := "SECURE_BOOTBAD", base := 0x4000B020 }
def SECURE_BOOTBAD_REASON : Fld := ⟨SECURE_BOOTBAD, 0, 7⟩
def SECURE_BOOTBAD_BLOCK : Fld := ⟨SECURE_BOOTBAD, 8, 8⟩
def SECURE_BOOTBAD_BANK : Fld := ⟨SECURE_BOOTBAD, 16, 1⟩
def SECURE_BOOTBAD_EXAMINED : Fld := ⟨SECURE_BOOTBAD, 17, 1⟩
/-- SECURE_MINVER: [8:0] OTP minimum version (RO, R359). -/
def SECURE_MINVER : Reg := { name := "SECURE_MINVER", base := 0x4000B024 }
/-- SECURE_SLOTS: Key slot states (RO, R359). -/
def SECURE_SLOTS : Reg := { name := "SECURE_SLOTS", base := 0x4000B028 }
def SECURE_SLOTS_SLOT0 : Fld := ⟨SECURE_SLOTS, 0, 4⟩
def SECURE_SLOTS_SLOT1 : Fld := ⟨SECURE_SLOTS, 4, 4⟩
def SECURE_SLOTS_SLOT2 : Fld := ⟨SECURE_SLOTS, 8, 4⟩
def SECURE_SLOTS_SLOT3 : Fld := ⟨SECURE_SLOTS, 12, 4⟩
/-- SECURE_TAMPER: Tamper sources and count (W1C, R359). -/
def SECURE_TAMPER : Reg := { name := "SECURE_TAMPER", base := 0x4000B02C, w1c := 0x0000000F }
def SECURE_TAMPER_SOURCE : Fld := ⟨SECURE_TAMPER, 0, 4⟩
def SECURE_TAMPER_COUNT : Fld := ⟨SECURE_TAMPER, 8, 8⟩
/-- SECURE_OPCMD: Operation start and abort (WO, R359). -/
def SECURE_OPCMD : Reg := { name := "SECURE_OPCMD", base := 0x4000B030 }
def SECURE_OPCMD_OP : Fld := ⟨SECURE_OPCMD, 0, 4⟩
def SECURE_OPCMD_GO : Fld := ⟨SECURE_OPCMD, 8, 1⟩
def SECURE_OPCMD_ABORT : Fld := ⟨SECURE_OPCMD, 9, 1⟩
/-- SECURE_OPSTAT: Status word by R18 (RO, R359). -/
def SECURE_OPSTAT : Reg := { name := "SECURE_OPSTAT", base := 0x4000B034 }
def SECURE_OPSTAT_STATE : Fld := ⟨SECURE_OPSTAT, 28, 4⟩
def SECURE_OPSTAT_PROGRESS : Fld := ⟨SECURE_OPSTAT, 16, 12⟩
def SECURE_OPSTAT_PARTIALS : Fld := ⟨SECURE_OPSTAT, 8, 8⟩
def SECURE_OPSTAT_REASON : Fld := ⟨SECURE_OPSTAT, 1, 7⟩
def SECURE_OPSTAT_ABORT_LATE : Fld := ⟨SECURE_OPSTAT, 0, 1⟩
/-- SECURE_OPSRC: SRAM input address, 4-byte aligned (RW, R359). -/
def SECURE_OPSRC : Reg := { name := "SECURE_OPSRC", base := 0x4000B038, wmask := 0xFFFFFFFC }
/-- SECURE_OPLEN: [19:0] input length, bytes (RW, R359). -/
def SECURE_OPLEN : Reg := { name := "SECURE_OPLEN", base := 0x4000B03C, wmask := 0x000FFFFF }
def SECURE_OPLEN_LEN : Fld := ⟨SECURE_OPLEN, 0, 20⟩
/-- SECURE_OPDST: SRAM output address, 4-byte aligned (RW, R359). -/
def SECURE_OPDST : Reg := { name := "SECURE_OPDST", base := 0x4000B040, wmask := 0xFFFFFFFC }
/-- SECURE_OPARG: Operation arguments (RW, R359). -/
def SECURE_OPARG : Reg := { name := "SECURE_OPARG", base := 0x4000B044, wmask := 0x71FFFF7F }
def SECURE_OPARG_SLOT : Fld := ⟨SECURE_OPARG, 0, 4⟩
def SECURE_OPARG_BANK : Fld := ⟨SECURE_OPARG, 4, 1⟩
def SECURE_OPARG_HDRONLY : Fld := ⟨SECURE_OPARG, 5, 1⟩
def SECURE_OPARG_XLEN : Fld := ⟨SECURE_OPARG, 6, 1⟩
def SECURE_OPARG_SLEN : Fld := ⟨SECURE_OPARG, 8, 8⟩
def SECURE_OPARG_SVN : Fld := ⟨SECURE_OPARG, 16, 9⟩
def SECURE_OPARG_ACT : Fld := ⟨SECURE_OPARG, 28, 3⟩
/-- SECURE_OPKEY: [15:0] 0x5EC7 arms operations 0x6 to 0x9 (WO, R359). -/
def SECURE_OPKEY : Reg := { name := "SECURE_OPKEY", base := 0x4000B048 }
/-- SECURE_DBGCHAL: Current challenge (RO, R359). -/
def SECURE_DBGCHAL : Reg := { name := "SECURE_DBGCHAL", base := 0x4000B060, count := 8, stride := 0x4 }
/-- SECURE_RES: Result window (RO, R359). -/
def SECURE_RES : Reg := { name := "SECURE_RES", base := 0x4000B080, count := 16, stride := 0x4 }
/-- SECURE_XGLITCH: Detector thresholds (RWL, R359). -/
def SECURE_XGLITCH : Reg := { name := "SECURE_XGLITCH", base := 0x4000B100, wmask := 0x0000FFFF, expert := true, reset := 0x000028B4 }
def SECURE_XGLITCH_VWIN : Fld := ⟨SECURE_XGLITCH, 0, 8⟩
def SECURE_XGLITCH_CKMIN : Fld := ⟨SECURE_XGLITCH, 8, 8⟩

/-! ### spec/11_pipeline_exceptions.md, R427 -/
/-- EVENT_CTRL: Expert control (RW, R427). -/
def EVENT_CTRL : Reg := { name := "EVENT_CTRL", base := 0x4000C000, wmask := 0x00000002 }
def EVENT_CTRL_EXPERT_UNLOCK : Fld := ⟨EVENT_CTRL, 1, 1⟩
def EVENT_CTRL_EXPERT : Fld := ⟨EVENT_CTRL, 2, 1⟩
/-- EVENT_STAT: Highest takeable event (RO, R427). -/
def EVENT_STAT : Reg := { name := "EVENT_STAT", base := 0x4000C004, reset := 0x00000080 }
def EVENT_STAT_TOP : Fld := ⟨EVENT_STAT, 0, 7⟩
def EVENT_STAT_NONE : Fld := ⟨EVENT_STAT, 7, 1⟩
def EVENT_STAT_TOPPRIO : Fld := ⟨EVENT_STAT, 8, 3⟩
def EVENT_STAT_WAITING : Fld := ⟨EVENT_STAT, 16, 1⟩
/-- EVENT_ENr: Bit j enables event 32r + j (RW, R427). -/
def EVENT_ENr : Reg := { name := "EVENT_ENr", base := 0x4000C010, count := 4, stride := 0x4, wmask := 0xFFFFFFFF }
/-- EVENT_PENDr: Bit j: event 32r + j pending (RO, R427). -/
def EVENT_PENDr : Reg := { name := "EVENT_PENDr", base := 0x4000C020, count := 4, stride := 0x4 }
/-- EVENT_RAWr: Bit j: event 32r + j raised (RO, R427). -/
def EVENT_RAWr : Reg := { name := "EVENT_RAWr", base := 0x4000C030, count := 4, stride := 0x4 }
/-- EVENT_PRIOp: Priorities (RW, R427). -/
def EVENT_PRIOp : Reg := { name := "EVENT_PRIOp", base := 0x4000C040, count := 16, stride := 0x4, wmask := 0x77777777 }
/-- EVENT_SWSET: [7:0] raise EV_SW0–EV_SW7 (W1S, R427). -/
def EVENT_SWSET : Reg := { name := "EVENT_SWSET", base := 0x4000C080 }
def EVENT_SWSET_SW : Fld := ⟨EVENT_SWSET, 0, 8⟩
/-- EVENT_SWCLR: [7:0] the same bits, cleared (W1C, R427). -/
def EVENT_SWCLR : Reg := { name := "EVENT_SWCLR", base := 0x4000C084, w1c := 0x000000FF }
def EVENT_SWCLR_SW : Fld := ⟨EVENT_SWCLR, 0, 8⟩
/-- EVENT_XFORCEr: Bit j raises event 32r + j, for test (RW, R427). -/
def EVENT_XFORCEr : Reg := { name := "EVENT_XFORCEr", base := 0x4000C100, count := 4, stride := 0x4, wmask := 0xFFFFFFFF, expert := true }

/-! ### spec/11_pipeline_exceptions.md, R429 -/
/-- CORE_CTRL: Fetch enables, test mode, expert control (RW, R429). -/
def CORE_CTRL : Reg := { name := "CORE_CTRL", base := 0xE0000000, wmask := 0x00000703, reset := 0x00000700 }
def CORE_CTRL_DET_FORCE : Fld := ⟨CORE_CTRL, 0, 1⟩
def CORE_CTRL_EXPERT_UNLOCK : Fld := ⟨CORE_CTRL, 1, 1⟩
def CORE_CTRL_EXPERT : Fld := ⟨CORE_CTRL, 2, 1⟩
def CORE_CTRL_CACHE_EN : Fld := ⟨CORE_CTRL, 8, 1⟩
def CORE_CTRL_BTB_EN : Fld := ⟨CORE_CTRL, 9, 1⟩
def CORE_CTRL_DUAL_EN : Fld := ⟨CORE_CTRL, 10, 1⟩
/-- CORE_STAT: Lockstep, fences, halts (RO, R429). -/
def CORE_STAT : Reg := { name := "CORE_STAT", base := 0xE0000004, reset := 0x00000001 }
def CORE_STAT_LOCK : Fld := ⟨CORE_STAT, 0, 1⟩
def CORE_STAT_SPLIT : Fld := ⟨CORE_STAT, 1, 1⟩
def CORE_STAT_FENCED_A : Fld := ⟨CORE_STAT, 2, 1⟩
def CORE_STAT_FENCED_B : Fld := ⟨CORE_STAT, 3, 1⟩
def CORE_STAT_DBL : Fld := ⟨CORE_STAT, 4, 1⟩
def CORE_STAT_HALTED : Fld := ⟨CORE_STAT, 5, 1⟩
def CORE_STAT_HOREJ : Fld := ⟨CORE_STAT, 8, 4⟩
/-- CORE_FLAGS: Sticky flags (W1C, R429). -/
def CORE_FLAGS : Reg := { name := "CORE_FLAGS", base := 0xE0000008, w1c := 0x0000007F }
def CORE_FLAGS_ROLLBACK : Fld := ⟨CORE_FLAGS, 0, 1⟩
def CORE_FLAGS_BIST : Fld := ⟨CORE_FLAGS, 1, 1⟩
def CORE_FLAGS_FENCE : Fld := ⟨CORE_FLAGS, 2, 1⟩
def CORE_FLAGS_DOUBLE : Fld := ⟨CORE_FLAGS, 3, 1⟩
def CORE_FLAGS_WIN_LIMIT : Fld := ⟨CORE_FLAGS, 4, 1⟩
def CORE_FLAGS_HO_DONE : Fld := ⟨CORE_FLAGS, 5, 1⟩
def CORE_FLAGS_HO_REJ : Fld := ⟨CORE_FLAGS, 6, 1⟩
/-- CORE_CACHE: Invalidation (WO, R429). -/
def CORE_CACHE : Reg := { name := "CORE_CACHE", base := 0xE000000C }
def CORE_CACHE_INV_I : Fld := ⟨CORE_CACHE, 0, 1⟩
def CORE_CACHE_INV_BTB : Fld := ⟨CORE_CACHE, 1, 1⟩
/-- CORE_VBASE: Active image base (RO, R429). -/
def CORE_VBASE : Reg := { name := "CORE_VBASE", base := 0xE0000010 }
def CORE_VBASE_VBASE : Fld := ⟨CORE_VBASE, 0, 32⟩
/-- CORE_ROLLCNT: Rollbacks and self-tests (RO, R429). -/
def CORE_ROLLCNT : Reg := { name := "CORE_ROLLCNT", base := 0xE0000014 }
def CORE_ROLLCNT_ROLLS : Fld := ⟨CORE_ROLLCNT, 0, 16⟩
def CORE_ROLLCNT_BISTS : Fld := ⟨CORE_ROLLCNT, 16, 8⟩
/-- CORE_CKPT: Checkpoints, modulo 2³² (RO, R429). -/
def CORE_CKPT : Reg := { name := "CORE_CKPT", base := 0xE0000018 }
/-- CORE_LASTMIS: PC of the latest mismatch (RO, R429). -/
def CORE_LASTMIS : Reg := { name := "CORE_LASTMIS", base := 0xE000001C }
/-- CORE_SHBASEn: Shared window n, 0–3: start (RW, R429). -/
def CORE_SHBASEn : Reg := { name := "CORE_SHBASEn", base := 0xE0000020, count := 4, stride := 0x8, wmask := 0xFFFFFF01 }
def CORE_SHBASEn_BASE : Fld := ⟨CORE_SHBASEn, 8, 24⟩
def CORE_SHBASEn_EN : Fld := ⟨CORE_SHBASEn, 0, 1⟩
/-- CORE_SHLIMn: Shared window n: end (RW, R429). -/
def CORE_SHLIMn : Reg := { name := "CORE_SHLIMn", base := 0xE0000024, count := 4, stride := 0x8, wmask := 0xFFFFFF00 }
def CORE_SHLIMn_LIMIT : Fld := ⟨CORE_SHLIMn, 8, 24⟩
/-- CORE_HOCMD: Handover command (WO, R429). -/
def CORE_HOCMD : Reg := { name := "CORE_HOCMD", base := 0xE0000040 }
def CORE_HOCMD_OP : Fld := ⟨CORE_HOCMD, 0, 3⟩
def CORE_HOCMD_BANK : Fld := ⟨CORE_HOCMD, 4, 1⟩
def CORE_HOCMD_KEY : Fld := ⟨CORE_HOCMD, 16, 16⟩
/-- CORE_HOSTAT: Status word by R18 (RO, R429). -/
def CORE_HOSTAT : Reg := { name := "CORE_HOSTAT", base := 0xE0000044 }
def CORE_HOSTAT_STATE : Fld := ⟨CORE_HOSTAT, 28, 4⟩
def CORE_HOSTAT_PROGRESS : Fld := ⟨CORE_HOSTAT, 16, 12⟩
def CORE_HOSTAT_PARTIALS : Fld := ⟨CORE_HOSTAT, 8, 8⟩
def CORE_HOSTAT_REASON : Fld := ⟨CORE_HOSTAT, 1, 7⟩
def CORE_HOSTAT_ABORT_LATE : Fld := ⟨CORE_HOSTAT, 0, 1⟩
/-- CORE_HOADDR: Handover block address (RW, R429). -/
def CORE_HOADDR : Reg := { name := "CORE_HOADDR", base := 0xE0000048, wmask := 0xFFFFFF00 }
def CORE_HOADDR_ADDR : Fld := ⟨CORE_HOADDR, 8, 24⟩
/-- CORE_HOXFER: Ownership transfer (WO, R429). -/
def CORE_HOXFER : Reg := { name := "CORE_HOXFER", base := 0xE000004C }
def CORE_HOXFER_MASK : Fld := ⟨CORE_HOXFER, 0, 19⟩
/-- CORE_HOOWN: Ownership, layout of SYSCTL_OWNER (RO, R429). -/
def CORE_HOOWN : Reg := { name := "CORE_HOOWN", base := 0xE0000050 }
/-- CORE_XWIN: Window limit (RW, R429). -/
def CORE_XWIN : Reg := { name := "CORE_XWIN", base := 0xE0000100, wmask := 0x000003FF, expert := true, reset := 0x00000100 }
def CORE_XWIN_WINMAX : Fld := ⟨CORE_XWIN, 0, 10⟩

/-! ### spec/12_memory_flash_dma.md, R466 -/
/-- FLASHC_CTRL: Expert control (RW, R466). -/
def FLASHC_CTRL : Reg := { name := "FLASHC_CTRL", base := 0x40009000, wmask := 0x00000002 }
def FLASHC_CTRL_EXPERT_UNLOCK : Fld := ⟨FLASHC_CTRL, 1, 1⟩
def FLASHC_CTRL_EXPERT : Fld := ⟨FLASHC_CTRL, 2, 1⟩
/-- FLASHC_STAT: Foreground, suspension, scan and calibration state (RO, R466). -/
def FLASHC_STAT : Reg := { name := "FLASHC_STAT", base := 0x40009004 }
def FLASHC_STAT_BUSY : Fld := ⟨FLASHC_STAT, 0, 1⟩
def FLASHC_STAT_SUSPENDED : Fld := ⟨FLASHC_STAT, 1, 1⟩
def FLASHC_STAT_BANK : Fld := ⟨FLASHC_STAT, 2, 1⟩
def FLASHC_STAT_SUSP_WAIT : Fld := ⟨FLASHC_STAT, 3, 1⟩
def FLASHC_STAT_SCAN_DONE : Fld := ⟨FLASHC_STAT, 4, 1⟩
def FLASHC_STAT_FCAL_OK : Fld := ⟨FLASHC_STAT, 5, 1⟩
def FLASHC_STAT_FCAL_COPY : Fld := ⟨FLASHC_STAT, 6, 1⟩
/-- FLASHC_FLAGS: Sticky flags (W1C, R466). -/
def FLASHC_FLAGS : Reg := { name := "FLASHC_FLAGS", base := 0x40009008, w1c := 0x000000FF }
def FLASHC_FLAGS_CMD_DONE : Fld := ⟨FLASHC_FLAGS, 0, 1⟩
def FLASHC_FLAGS_CMD_FAIL : Fld := ⟨FLASHC_FLAGS, 1, 1⟩
def FLASHC_FLAGS_CMD_REJ : Fld := ⟨FLASHC_FLAGS, 2, 1⟩
def FLASHC_FLAGS_SUSP_ON : Fld := ⟨FLASHC_FLAGS, 3, 1⟩
def FLASHC_FLAGS_HALFE_FOUND : Fld := ⟨FLASHC_FLAGS, 4, 1⟩
def FLASHC_FLAGS_CE : Fld := ⟨FLASHC_FLAGS, 5, 1⟩
def FLASHC_FLAGS_UE : Fld := ⟨FLASHC_FLAGS, 6, 1⟩
def FLASHC_FLAGS_FCAL_BAD : Fld := ⟨FLASHC_FLAGS, 7, 1⟩
/-- FLASHC_EVEN: Bit b enables FLASHC_FLAGS bit b (RW, R466). -/
def FLASHC_EVEN : Reg := { name := "FLASHC_EVEN", base := 0x4000900C, wmask := 0x000000FF }
/-- FLASHC_CMD: Command request, by R440 (WO, R466). -/
def FLASHC_CMD : Reg := { name := "FLASHC_CMD", base := 0x40009010 }
def FLASHC_CMD_OP : Fld := ⟨FLASHC_CMD, 0, 3⟩
def FLASHC_CMD_LVL : Fld := ⟨FLASHC_CMD, 4, 2⟩
def FLASHC_CMD_KEY : Fld := ⟨FLASHC_CMD, 16, 16⟩
/-- FLASHC_ADDR: Command address (RW, R466). -/
def FLASHC_ADDR : Reg := { name := "FLASHC_ADDR", base := 0x40009014, wmask := 0xFFFFFFFF, reset := 0x08000000 }
/-- FLASHC_OPSTAT: Status word by R18 (RO, R466). -/
def FLASHC_OPSTAT : Reg := { name := "FLASHC_OPSTAT", base := 0x40009018 }
def FLASHC_OPSTAT_STATE : Fld := ⟨FLASHC_OPSTAT, 28, 4⟩
def FLASHC_OPSTAT_PROGRESS : Fld := ⟨FLASHC_OPSTAT, 16, 12⟩
def FLASHC_OPSTAT_PARTIALS : Fld := ⟨FLASHC_OPSTAT, 8, 8⟩
def FLASHC_OPSTAT_REASON : Fld := ⟨FLASHC_OPSTAT, 1, 7⟩
def FLASHC_OPSTAT_ABORT_LATE : Fld := ⟨FLASHC_OPSTAT, 0, 1⟩
/-- FLASHC_OPINFO: Command described by OPSTAT (RO, R466). -/
def FLASHC_OPINFO : Reg := { name := "FLASHC_OPINFO", base := 0x4000901C }
def FLASHC_OPINFO_OP : Fld := ⟨FLASHC_OPINFO, 0, 3⟩
def FLASHC_OPINFO_ADDR : Fld := ⟨FLASHC_OPINFO, 8, 24⟩
/-- FLASHC_SUSP: Suspended erase (RO, R466). -/
def FLASHC_SUSP : Reg := { name := "FLASHC_SUSP", base := 0x40009020 }
def FLASHC_SUSP_BLOCK : Fld := ⟨FLASHC_SUSP, 0, 8⟩
def FLASHC_SUSP_BANK : Fld := ⟨FLASHC_SUSP, 8, 1⟩
def FLASHC_SUSP_ACTIVE : Fld := ⟨FLASHC_SUSP, 15, 1⟩
def FLASHC_SUSP_PULSES : Fld := ⟨FLASHC_SUSP, 16, 8⟩
/-- FLASHC_REJ: Last refusal (RO, R466). -/
def FLASHC_REJ : Reg := { name := "FLASHC_REJ", base := 0x40009024 }
def FLASHC_REJ_CODE : Fld := ⟨FLASHC_REJ, 0, 8⟩
def FLASHC_REJ_COUNT : Fld := ⟨FLASHC_REJ, 8, 8⟩
/-- FLASHC_BRES: BCHECK result (RO, R466). -/
def FLASHC_BRES : Reg := { name := "FLASHC_BRES", base := 0x40009028 }
def FLASHC_BRES_BSTATE : Fld := ⟨FLASHC_BRES, 0, 2⟩
def FLASHC_BRES_START : Fld := ⟨FLASHC_BRES, 2, 1⟩
def FLASHC_BRES_END : Fld := ⟨FLASHC_BRES, 3, 1⟩
def FLASHC_BRES_BLOCK : Fld := ⟨FLASHC_BRES, 8, 9⟩
/-- FLASHC_BBLANK: Bit p: page p blank (RO, R466). -/
def FLASHC_BBLANK : Reg := { name := "FLASHC_BBLANK", base := 0x4000902C }
/-- FLASHC_BWEAK: Bit p: page p weak (RO, R466). -/
def FLASHC_BWEAK : Reg := { name := "FLASHC_BWEAK", base := 0x40009030 }
/-- FLASHC_BPAIR: Bit 2k: page 2k lost by R449 (RO, R466). -/
def FLASHC_BPAIR : Reg := { name := "FLASHC_BPAIR", base := 0x40009034 }
/-- FLASHC_HALFE: Blocks with an incomplete erase record, by R450 (RO, R466). -/
def FLASHC_HALFE : Reg := { name := "FLASHC_HALFE", base := 0x40009040, count := 16, stride := 0x4 }
/-- FLASHC_ECCSTAT: Error counts and source (RO, R466). -/
def FLASHC_ECCSTAT : Reg := { name := "FLASHC_ECCSTAT", base := 0x40009080 }
def FLASHC_ECCSTAT_CE : Fld := ⟨FLASHC_ECCSTAT, 0, 16⟩
def FLASHC_ECCSTAT_UE : Fld := ⟨FLASHC_ECCSTAT, 16, 8⟩
def FLASHC_ECCSTAT_SRC : Fld := ⟨FLASHC_ECCSTAT, 24, 4⟩
/-- FLASHC_ECCUE: Address of the latest uncorrectable error (RO, R466). -/
def FLASHC_ECCUE : Reg := { name := "FLASHC_ECCUE", base := 0x40009084 }
/-- FLASHC_ECCCE: Address of the latest corrected error (RO, R466). -/
def FLASHC_ECCCE : Reg := { name := "FLASHC_ECCCE", base := 0x40009088 }
/-- FLASHC_SCRUB: Scrub passes (RO, R466). -/
def FLASHC_SCRUB : Reg := { name := "FLASHC_SCRUB", base := 0x4000908C }
def FLASHC_SCRUB_PASSES : Fld := ⟨FLASHC_SCRUB, 0, 16⟩
/-- FLASHC_XSCRUB: Scrubber (RW, R466). -/
def FLASHC_XSCRUB : Reg := { name := "FLASHC_XSCRUB", base := 0x40009100, wmask := 0x0001FFFF, expert := true, reset := 0x00010100 }
def FLASHC_XSCRUB_STEP : Fld := ⟨FLASHC_XSCRUB, 0, 16⟩
def FLASHC_XSCRUB_EN : Fld := ⟨FLASHC_XSCRUB, 16, 1⟩
/-- FLASHC_PBUF: Page buffer, byte 4j in bits [7:0] of word j (RW, R466). -/
def FLASHC_PBUF : Reg := { name := "FLASHC_PBUF", base := 0x40009200, count := 64, stride := 0x4, wmask := 0xFFFFFFFF }

/-! ### spec/12_memory_flash_dma.md, R468 -/
/-- DMA_CTRL: Expert control (RW, R468). -/
def DMA_CTRL : Reg := { name := "DMA_CTRL", base := 0x40008000, wmask := 0x00000002 }
def DMA_CTRL_EXPERT_UNLOCK : Fld := ⟨DMA_CTRL, 1, 1⟩
def DMA_CTRL_EXPERT : Fld := ⟨DMA_CTRL, 2, 1⟩
/-- DMA_STAT: [15:0] bit n: channel n not IDLE (RO, R468). -/
def DMA_STAT : Reg := { name := "DMA_STAT", base := 0x40008004 }
/-- DMA_XARB: [7:0] BURST, bytes, 8–128; lower values act as 8 (RW, R468). -/
def DMA_XARB : Reg := { name := "DMA_XARB", base := 0x140008100, wmask := 0x000000FF, expert := true, reset := 0x00000020 }
def DMA_XARB_BURST : Fld := ⟨DMA_XARB, 0, 8⟩
/-- CHn_CTRL: Start, abort, priority (RW, R468). -/
def CHn_CTRL : Reg := { name := "CHn_CTRL", base := 0x40008100, count := 16, stride := 0x20, wmask := 0x00000010 }
def CHn_CTRL_START : Fld := ⟨CHn_CTRL, 0, 1⟩
def CHn_CTRL_ABORT : Fld := ⟨CHn_CTRL, 1, 1⟩
def CHn_CTRL_PRIO : Fld := ⟨CHn_CTRL, 4, 1⟩
/-- CHn_DESC: First descriptor address; bits [4:0] read 0 (RW, R468). -/
def CHn_DESC : Reg := { name := "CHn_DESC", base := 0x40008104, count := 16, stride := 0x20, wmask := 0xFFFFFFE0 }
/-- CHn_STAT: State and counts (RO, R468). -/
def CHn_STAT : Reg := { name := "CHn_STAT", base := 0x40008108, count := 16, stride := 0x20 }
def CHn_STAT_STATE : Fld := ⟨CHn_STAT, 0, 3⟩
def CHn_STAT_ABORT_LATE : Fld := ⟨CHn_STAT, 8, 1⟩
def CHn_STAT_DESCS : Fld := ⟨CHn_STAT, 16, 16⟩
/-- CHn_CUR: Descriptor in progress or last (RO, R468). -/
def CHn_CUR : Reg := { name := "CHn_CUR", base := 0x4000810C, count := 16, stride := 0x20 }
/-- CHn_FLAGS: Sticky flags (W1C, R468). -/
def CHn_FLAGS : Reg := { name := "CHn_FLAGS", base := 0x40008110, count := 16, stride := 0x20, w1c := 0x0000003F }
def CHn_FLAGS_DONE : Fld := ⟨CHn_FLAGS, 0, 1⟩
def CHn_FLAGS_END : Fld := ⟨CHn_FLAGS, 1, 1⟩
def CHn_FLAGS_BAD : Fld := ⟨CHn_FLAGS, 2, 1⟩
def CHn_FLAGS_DESCERR : Fld := ⟨CHn_FLAGS, 3, 1⟩
def CHn_FLAGS_ABORTED : Fld := ⟨CHn_FLAGS, 4, 1⟩
def CHn_FLAGS_START_REJ : Fld := ⟨CHn_FLAGS, 5, 1⟩
/-- CHn_EVEN: Bit b enables CHn_FLAGS bit b (RW, R468). -/
def CHn_EVEN : Reg := { name := "CHn_EVEN", base := 0x40008114, count := 16, stride := 0x20, wmask := 0x0000003F }
/-- CHn_ERRADDR: Latest failing address (RO, R468). -/
def CHn_ERRADDR : Reg := { name := "CHn_ERRADDR", base := 0x40008118, count := 16, stride := 0x20 }
/-- CHn_BADCNT: [15:0] bad descriptors, saturating (RO, R468). -/
def CHn_BADCNT : Reg := { name := "CHn_BADCNT", base := 0x4000811C, count := 16, stride := 0x20 }

/-! ### spec/13_stitch_engines.md, R486 -/
/-- STITCH_CTRL: Expert control (RW, R486). -/
def STITCH_CTRL : Reg := { name := "STITCH_CTRL", base := 0x40006000, wmask := 0x00000002 }
def STITCH_CTRL_EXPERT_UNLOCK : Fld := ⟨STITCH_CTRL, 1, 1⟩
def STITCH_CTRL_EXPERT : Fld := ⟨STITCH_CTRL, 2, 1⟩
/-- STITCH_EN: Engine start and stop (RW, R486). -/
def STITCH_EN : Reg := { name := "STITCH_EN", base := 0x40006004, wmask := 0x000000FF }
def STITCH_EN_EN : Fld := ⟨STITCH_EN, 0, 8⟩
/-- STITCH_SYNC: Start group and clock restart (WO, R486). -/
def STITCH_SYNC : Reg := { name := "STITCH_SYNC", base := 0x40006008 }
def STITCH_SYNC_START : Fld := ⟨STITCH_SYNC, 0, 8⟩
def STITCH_SYNC_RESTART : Fld := ⟨STITCH_SYNC, 8, 8⟩
/-- STITCH_STAT: Running and pending engines (RO, R486). -/
def STITCH_STAT : Reg := { name := "STITCH_STAT", base := 0x4000600C }
def STITCH_STAT_RUN : Fld := ⟨STITCH_STAT, 0, 8⟩
def STITCH_STAT_PEND : Fld := ⟨STITCH_STAT, 8, 8⟩
/-- STITCH_GRPRES: Outcome of the latest start group (RO, R486). -/
def STITCH_GRPRES : Reg := { name := "STITCH_GRPRES", base := 0x40006010 }
def STITCH_GRPRES_MEMBERS : Fld := ⟨STITCH_GRPRES, 0, 8⟩
def STITCH_GRPRES_REFUSED : Fld := ⟨STITCH_GRPRES, 8, 8⟩
def STITCH_GRPRES_STARTED : Fld := ⟨STITCH_GRPRES, 16, 1⟩
def STITCH_GRPRES_WITHDRAWN : Fld := ⟨STITCH_GRPRES, 17, 1⟩
/-- STITCHe_STAT: State, PC, handshake (RO, R486). -/
def STITCHe_STAT : Reg := { name := "STITCHe_STAT", base := 0x40006100, count := 8, stride := 0x40 }
def STITCHe_STAT_STATE : Fld := ⟨STITCHe_STAT, 0, 3⟩
def STITCHe_STAT_PC : Fld := ⟨STITCHe_STAT, 8, 5⟩
def STITCHe_STAT_INJ_PEND : Fld := ⟨STITCHe_STAT, 16, 1⟩
def STITCHe_STAT_INJ_RUN : Fld := ⟨STITCHe_STAT, 17, 1⟩
def STITCHe_STAT_OFULL : Fld := ⟨STITCHe_STAT, 18, 1⟩
def STITCHe_STAT_IFULL : Fld := ⟨STITCHe_STAT, 19, 1⟩
/-- STITCHe_FLAGS: Sticky flags (W1C, R486). -/
def STITCHe_FLAGS : Reg := { name := "STITCHe_FLAGS", base := 0x40006104, count := 8, stride := 0x40, w1c := 0x000007FF }
def STITCHe_FLAGS_OEMPTY : Fld := ⟨STITCHe_FLAGS, 0, 1⟩
def STITCHe_FLAGS_IFULL : Fld := ⟨STITCHe_FLAGS, 1, 1⟩
def STITCHe_FLAGS_EVT : Fld := ⟨STITCHe_FLAGS, 2, 1⟩
def STITCHe_FLAGS_STALL : Fld := ⟨STITCHe_FLAGS, 3, 1⟩
def STITCHe_FLAGS_HALT : Fld := ⟨STITCHe_FLAGS, 4, 1⟩
def STITCHe_FLAGS_INJ_DONE : Fld := ⟨STITCHe_FLAGS, 5, 1⟩
def STITCHe_FLAGS_INJ_REJ : Fld := ⟨STITCHe_FLAGS, 6, 1⟩
def STITCHe_FLAGS_OUT_REJ : Fld := ⟨STITCHe_FLAGS, 7, 1⟩
def STITCHe_FLAGS_WR_REJ : Fld := ⟨STITCHe_FLAGS, 8, 1⟩
def STITCHe_FLAGS_RELAY_DROP : Fld := ⟨STITCHe_FLAGS, 9, 1⟩
def STITCHe_FLAGS_STOPPED : Fld := ⟨STITCHe_FLAGS, 10, 1⟩
/-- STITCHe_EVEN: Bit b enables STITCHe_FLAGS bit b (RW, R486). -/
def STITCHe_EVEN : Reg := { name := "STITCHe_EVEN", base := 0x40006108, count := 8, stride := 0x40, wmask := 0x000007FF }
/-- STITCHe_SOUT: Output shift register, by R481 (RW, R486). -/
def STITCHe_SOUT : Reg := { name := "STITCHe_SOUT", base := 0x4000610C, count := 8, stride := 0x40, wmask := 0xFFFFFFFF }
def STITCHe_SOUT_SOUT : Fld := ⟨STITCHe_SOUT, 0, 32⟩
/-- STITCHe_SIN: Input shift register, by R481 (RC, R486). -/
def STITCHe_SIN : Reg := { name := "STITCHe_SIN", base := 0x40006110, count := 8, stride := 0x40, rc := true }
def STITCHe_SIN_SIN : Fld := ⟨STITCHe_SIN, 0, 32⟩
/-- STITCHe_CNT: OCNT, ICNT, RC (RO, R486). -/
def STITCHe_CNT : Reg := { name := "STITCHe_CNT", base := 0x40006114, count := 8, stride := 0x40 }
def STITCHe_CNT_OCNT : Fld := ⟨STITCHe_CNT, 0, 6⟩
def STITCHe_CNT_ICNT : Fld := ⟨STITCHe_CNT, 8, 6⟩
def STITCHe_CNT_RC : Fld := ⟨STITCHe_CNT, 16, 6⟩
/-- STITCHe_CTR: C0 and C1 (RO, R486). -/
def STITCHe_CTR : Reg := { name := "STITCHe_CTR", base := 0x40006118, count := 8, stride := 0x40 }
def STITCHe_CTR_C0 : Fld := ⟨STITCHe_CTR, 0, 16⟩
def STITCHe_CTR_C1 : Fld := ⟨STITCHe_CTR, 16, 16⟩
/-- STITCHe_HSSET: Set flags (W1S, R486). -/
def STITCHe_HSSET : Reg := { name := "STITCHe_HSSET", base := 0x4000611C, count := 8, stride := 0x40 }
def STITCHe_HSSET_F : Fld := ⟨STITCHe_HSSET, 0, 4⟩
/-- STITCHe_HSCLR: Clear flags (W1C, R486). -/
def STITCHe_HSCLR : Reg := { name := "STITCHe_HSCLR", base := 0x40006120, count := 8, stride := 0x40, w1c := 0x0000000F }
def STITCHe_HSCLR_F : Fld := ⟨STITCHe_HSCLR, 0, 4⟩
/-- STITCHe_INJECT: Injection, by R483 (WO, R486). -/
def STITCHe_INJECT : Reg := { name := "STITCHe_INJECT", base := 0x40006124, count := 8, stride := 0x40 }
def STITCHe_INJECT_WORD : Fld := ⟨STITCHe_INJECT, 0, 16⟩
def STITCHe_INJECT_FORCE : Fld := ⟨STITCHe_INJECT, 16, 1⟩
/-- STITCHe_PINS: Samples, LATCH, DIRS (RO, R486). -/
def STITCHe_PINS : Reg := { name := "STITCHe_PINS", base := 0x40006128, count := 8, stride := 0x40 }
def STITCHe_PINS_IN : Fld := ⟨STITCHe_PINS, 0, 8⟩
def STITCHe_PINS_LATCH : Fld := ⟨STITCHe_PINS, 8, 8⟩
def STITCHe_PINS_DIRS : Fld := ⟨STITCHe_PINS, 16, 8⟩
/-- STITCHe_GROUP: Group copied at start (RO, R486). -/
def STITCHe_GROUP : Reg := { name := "STITCHe_GROUP", base := 0x4000612C, count := 8, stride := 0x40 }
def STITCHe_GROUP_PINBASE : Fld := ⟨STITCHe_GROUP, 0, 6⟩
def STITCHe_GROUP_PINCOUNT : Fld := ⟨STITCHe_GROUP, 8, 4⟩
def STITCHe_GROUP_NWORDS : Fld := ⟨STITCHe_GROUP, 16, 6⟩
/-- STITCHe_CLKDIV: Divider copied at start (RO, R486). -/
def STITCHe_CLKDIV : Reg := { name := "STITCHe_CLKDIV", base := 0x40006130, count := 8, stride := 0x40 }
def STITCHe_CLKDIV_CLKDIV : Fld := ⟨STITCHe_CLKDIV, 0, 16⟩
/-- STITCHe_CUR: Instruction in progress (RO, R486). -/
def STITCHe_CUR : Reg := { name := "STITCHe_CUR", base := 0x40006134, count := 8, stride := 0x40 }
def STITCHe_CUR_WORD : Fld := ⟨STITCHe_CUR, 0, 16⟩
def STITCHe_CUR_ADDR : Fld := ⟨STITCHe_CUR, 16, 5⟩
def STITCHe_CUR_INJ : Fld := ⟨STITCHe_CUR, 21, 1⟩
/-- STITCHe_SHCFG: Shift configuration (RO, R486). -/
def STITCHe_SHCFG : Reg := { name := "STITCHe_SHCFG", base := 0x40006138, count := 8, stride := 0x40 }
def STITCHe_SHCFG_FIELDS : Fld := ⟨STITCHe_SHCFG, 0, 11⟩
def STITCHe_SHCFG_ORDER : Fld := ⟨STITCHe_SHCFG, 11, 1⟩
/-- STITCHe_IMEMw: Instruction word w; written at start by R474 (RW, R486). -/
def STITCHe_IMEMw : Reg := { name := "STITCHe_IMEMw", base := 0x40006800, count := 8, stride := 0x80, count2 := 32, wmask := 0x0000FFFF, expert := true }
def STITCHe_IMEMw_WORD : Fld := ⟨STITCHe_IMEMw, 0, 16⟩

/-! ### spec/14_host_serial_timers.md, R501 -/
/-- HB_CTRL: Firmware service, PEC, register reads, alert (RW, R501). -/
def HB_CTRL : Reg := { name := "HB_CTRL", base := 0x40002000, wmask := 0x0000003B }
def HB_CTRL_FW_READY : Fld := ⟨HB_CTRL, 0, 1⟩
def HB_CTRL_EXPERT_UNLOCK : Fld := ⟨HB_CTRL, 1, 1⟩
def HB_CTRL_EXPERT : Fld := ⟨HB_CTRL, 2, 1⟩
def HB_CTRL_PEC_REQ : Fld := ⟨HB_CTRL, 3, 1⟩
def HB_CTRL_REGRD_EN : Fld := ⟨HB_CTRL, 4, 1⟩
def HB_CTRL_ALERT_FW : Fld := ⟨HB_CTRL, 5, 1⟩
/-- HB_STAT: Address, page, protection (RO, R501). -/
def HB_STAT : Reg := { name := "HB_STAT", base := 0x40002004 }
def HB_STAT_ADDR : Fld := ⟨HB_STAT, 0, 7⟩
def HB_STAT_ADDR_VALID : Fld := ⟨HB_STAT, 7, 1⟩
def HB_STAT_STRAP : Fld := ⟨HB_STAT, 8, 3⟩
def HB_STAT_FW_PEND : Fld := ⟨HB_STAT, 11, 1⟩
def HB_STAT_STRETCH : Fld := ⟨HB_STAT, 12, 1⟩
def HB_STAT_PAGE : Fld := ⟨HB_STAT, 16, 8⟩
def HB_STAT_WP : Fld := ⟨HB_STAT, 24, 8⟩
/-- HB_FLAGS: Sticky flags (W1C, R501). -/
def HB_FLAGS : Reg := { name := "HB_FLAGS", base := 0x40002008, w1c := 0x000000FF }
def HB_FLAGS_FW_CMD : Fld := ⟨HB_FLAGS, 0, 1⟩
def HB_FLAGS_PEC_ERR : Fld := ⟨HB_FLAGS, 1, 1⟩
def HB_FLAGS_INVALID : Fld := ⟨HB_FLAGS, 2, 1⟩
def HB_FLAGS_FW_TIMEOUT : Fld := ⟨HB_FLAGS, 3, 1⟩
def HB_FLAGS_STUCK : Fld := ⟨HB_FLAGS, 4, 1⟩
def HB_FLAGS_STUCK_CLR : Fld := ⟨HB_FLAGS, 5, 1⟩
def HB_FLAGS_ARA_WON : Fld := ⟨HB_FLAGS, 6, 1⟩
def HB_FLAGS_ADDR_SET : Fld := ⟨HB_FLAGS, 7, 1⟩
/-- HB_EVEN: Bit b enables HB_FLAGS bit b (RW, R501). -/
def HB_EVEN : Reg := { name := "HB_EVEN", base := 0x4000200C, wmask := 0x000000FF }
/-- HB_ALERT: Alert requests and pending bits (RO, R501). -/
def HB_ALERT : Reg := { name := "HB_ALERT", base := 0x40002010 }
def HB_ALERT_REQ : Fld := ⟨HB_ALERT, 0, 4⟩
def HB_ALERT_PENDING : Fld := ⟨HB_ALERT, 4, 4⟩
/-- HB_ALERTMASK: Bit k enables request k (RW, R501). -/
def HB_ALERTMASK : Reg := { name := "HB_ALERTMASK", base := 0x40002014, wmask := 0x0000000F, reset := 0x0000000F }
def HB_ALERTMASK_MASK : Fld := ⟨HB_ALERTMASK, 0, 4⟩
/-- HB_FWCMD: Offered command (RO, R501). -/
def HB_FWCMD : Reg := { name := "HB_FWCMD", base := 0x40002018 }
def HB_FWCMD_CODE : Fld := ⟨HB_FWCMD, 0, 8⟩
def HB_FWCMD_COUNT : Fld := ⟨HB_FWCMD, 8, 8⟩
def HB_FWCMD_READ : Fld := ⟨HB_FWCMD, 16, 1⟩
def HB_FWCMD_PEC : Fld := ⟨HB_FWCMD, 17, 1⟩
def HB_FWCMD_PAGE : Fld := ⟨HB_FWCMD, 18, 3⟩
def HB_FWCMD_ALL : Fld := ⟨HB_FWCMD, 21, 1⟩
def HB_FWCMD_VALID : Fld := ⟨HB_FWCMD, 31, 1⟩
/-- HB_FWVAL: Converted value, by R494 (RO, R501). -/
def HB_FWVAL : Reg := { name := "HB_FWVAL", base := 0x4000201C }
def HB_FWVAL_VALUE : Fld := ⟨HB_FWVAL, 0, 32⟩
/-- HB_FWACK: Firmware answer (WO, R501). -/
def HB_FWACK : Reg := { name := "HB_FWACK", base := 0x40002020 }
def HB_FWACK_DONE : Fld := ⟨HB_FWACK, 0, 1⟩
def HB_FWACK_ERROR : Fld := ⟨HB_FWACK, 1, 1⟩
def HB_FWACK_RESP_COUNT : Fld := ⟨HB_FWACK, 8, 6⟩
/-- HB_CNT: Counts (RO, R501). -/
def HB_CNT : Reg := { name := "HB_CNT", base := 0x40002024 }
def HB_CNT_TRANS : Fld := ⟨HB_CNT, 0, 16⟩
def HB_CNT_PECERR : Fld := ⟨HB_CNT, 16, 8⟩
def HB_CNT_STUCK : Fld := ⟨HB_CNT, 24, 8⟩
/-- HB_RXBUF: Data bytes received; byte 4j in bits [7:0] of word j (RO, R501). -/
def HB_RXBUF : Reg := { name := "HB_RXBUF", base := 0x40002040, count := 8, stride := 0x4 }
/-- HB_TXBUF: Data bytes to send, same layout (RW, R501). -/
def HB_TXBUF : Reg := { name := "HB_TXBUF", base := 0x40002060, count := 8, stride := 0x4, wmask := 0xFFFFFFFF }
/-- HB_PSTATn: Status of page n (RO, R501). -/
def HB_PSTATn : Reg := { name := "HB_PSTATn", base := 0x40002080, count := 8, stride := 0x4 }
def HB_PSTATn_WORD : Fld := ⟨HB_PSTATn, 0, 16⟩
def HB_PSTATn_MFR : Fld := ⟨HB_PSTATn, 16, 8⟩
/-- HB_XTO: Stretch limit (RW, R501). -/
def HB_XTO : Reg := { name := "HB_XTO", base := 0x40002100, wmask := 0x000000FF, expert := true, reset := 0x000000C8 }
def HB_XTO_FWTO : Fld := ⟨HB_XTO, 0, 8⟩

/-! ### spec/14_host_serial_timers.md, R511 -/
/-- UART_CTRL: Enable, path, framing (RW, R511). -/
def UART_CTRL : Reg := { name := "UART_CTRL", base := 0x40004000, count := 2, stride := 0x1000, wmask := 0x000007FB }
def UART_CTRL_EN : Fld := ⟨UART_CTRL, 0, 1⟩
def UART_CTRL_EXPERT_UNLOCK : Fld := ⟨UART_CTRL, 1, 1⟩
def UART_CTRL_EXPERT : Fld := ⟨UART_CTRL, 2, 1⟩
def UART_CTRL_PATH : Fld := ⟨UART_CTRL, 3, 2⟩
def UART_CTRL_D7 : Fld := ⟨UART_CTRL, 5, 1⟩
def UART_CTRL_PARITY : Fld := ⟨UART_CTRL, 6, 2⟩
def UART_CTRL_STOP2 : Fld := ⟨UART_CTRL, 8, 1⟩
def UART_CTRL_ECHO : Fld := ⟨UART_CTRL, 9, 1⟩
def UART_CTRL_RETRY_EN : Fld := ⟨UART_CTRL, 10, 1⟩
/-- UART_BAUD: Bit time; reset is DIV 200, FRAC 0, 62,500 b/s (RW, R511). -/
def UART_BAUD : Reg := { name := "UART_BAUD", base := 0x40004004, count := 2, stride := 0x1000, wmask := 0x000FFFFF, reset := 0x00000C80 }
def UART_BAUD_FRAC : Fld := ⟨UART_BAUD, 0, 4⟩
def UART_BAUD_DIV : Fld := ⟨UART_BAUD, 4, 16⟩
/-- UART_STAT: Queue levels, line state (RO, R511). -/
def UART_STAT : Reg := { name := "UART_STAT", base := 0x40004008, count := 2, stride := 0x1000, reset := 0x00080000 }
def UART_STAT_RXCOUNT : Fld := ⟨UART_STAT, 0, 7⟩
def UART_STAT_TXCOUNT : Fld := ⟨UART_STAT, 8, 5⟩
def UART_STAT_TXBUSY : Fld := ⟨UART_STAT, 16, 1⟩
def UART_STAT_HELDOFF : Fld := ⟨UART_STAT, 17, 1⟩
def UART_STAT_BRKSEND : Fld := ⟨UART_STAT, 18, 1⟩
def UART_STAT_RXIDLE : Fld := ⟨UART_STAT, 19, 1⟩
/-- UART_FLAGS: Sticky flags (W1C, R511). -/
def UART_FLAGS : Reg := { name := "UART_FLAGS", base := 0x4000400C, count := 2, stride := 0x1000, w1c := 0x000003FF }
def UART_FLAGS_RXDATA : Fld := ⟨UART_FLAGS, 0, 1⟩
def UART_FLAGS_RXERR : Fld := ⟨UART_FLAGS, 1, 1⟩
def UART_FLAGS_OVR : Fld := ⟨UART_FLAGS, 2, 1⟩
def UART_FLAGS_BRK : Fld := ⟨UART_FLAGS, 3, 1⟩
def UART_FLAGS_LINEFLT : Fld := ⟨UART_FLAGS, 4, 1⟩
def UART_FLAGS_LINEOK : Fld := ⟨UART_FLAGS, 5, 1⟩
def UART_FLAGS_TXEMPTY : Fld := ⟨UART_FLAGS, 6, 1⟩
def UART_FLAGS_COLL : Fld := ⟨UART_FLAGS, 7, 1⟩
def UART_FLAGS_COLL_DROP : Fld := ⟨UART_FLAGS, 8, 1⟩
def UART_FLAGS_TX_REJ : Fld := ⟨UART_FLAGS, 9, 1⟩
/-- UART_EVEN: Bit b enables UART_FLAGS bit b (RW, R511). -/
def UART_EVEN : Reg := { name := "UART_EVEN", base := 0x40004010, count := 2, stride := 0x1000, wmask := 0x000003FF }
/-- UART_RXQ: RX queue, by R509 (RC, R511). -/
def UART_RXQ : Reg := { name := "UART_RXQ", base := 0x40004014, count := 2, stride := 0x1000, rc := true }
/-- UART_TXQ: [8:0] character (WO, R511). -/
def UART_TXQ : Reg := { name := "UART_TXQ", base := 0x40004018, count := 2, stride := 0x1000 }
/-- UART_BRK: Break send (WO, R511). -/
def UART_BRK : Reg := { name := "UART_BRK", base := 0x4000401C, count := 2, stride := 0x1000 }
def UART_BRK_LEN : Fld := ⟨UART_BRK, 0, 12⟩
def UART_BRK_GO : Fld := ⟨UART_BRK, 31, 1⟩
/-- UART_RXTHR: [6:0] RX level for RXDATA, 1–64 (RW, R511). -/
def UART_RXTHR : Reg := { name := "UART_RXTHR", base := 0x40004020, count := 2, stride := 0x1000, wmask := 0x0000007F, reset := 0x00000001 }
def UART_RXTHR_THR : Fld := ⟨UART_RXTHR, 0, 7⟩
/-- UART_LOST: Characters lost, saturating (RO, R511). -/
def UART_LOST : Reg := { name := "UART_LOST", base := 0x40004024, count := 2, stride := 0x1000 }
/-- UART_XLINE: Line-fault and collision settings (RW, R511). -/
def UART_XLINE : Reg := { name := "UART_XLINE", base := 0x40004100, count := 2, stride := 0x1000, wmask := 0x0FFFFFFF, expert := true, reset := 0x00333100 }
def UART_XLINE_BRK_MAX : Fld := ⟨UART_XLINE, 0, 12⟩
def UART_XLINE_RETRY_MAX : Fld := ⟨UART_XLINE, 12, 4⟩
def UART_XLINE_PW : Fld := ⟨UART_XLINE, 16, 4⟩
def UART_XLINE_RETRY_SLOT : Fld := ⟨UART_XLINE, 20, 8⟩

/-! ### spec/14_host_serial_timers.md, R517 -/
/-- QSPI_CTRL: Enable, read mode, clock (RW, R517). -/
def QSPI_CTRL : Reg := { name := "QSPI_CTRL", base := 0x40003000, wmask := 0x0F0FFF3B, reset := 0x02000300 }
def QSPI_CTRL_EN : Fld := ⟨QSPI_CTRL, 0, 1⟩
def QSPI_CTRL_EXPERT_UNLOCK : Fld := ⟨QSPI_CTRL, 1, 1⟩
def QSPI_CTRL_EXPERT : Fld := ⟨QSPI_CTRL, 2, 1⟩
def QSPI_CTRL_ADDR4 : Fld := ⟨QSPI_CTRL, 3, 1⟩
def QSPI_CTRL_RDMODE : Fld := ⟨QSPI_CTRL, 4, 2⟩
def QSPI_CTRL_RDOP : Fld := ⟨QSPI_CTRL, 8, 8⟩
def QSPI_CTRL_DUMMY : Fld := ⟨QSPI_CTRL, 16, 4⟩
def QSPI_CTRL_DIV : Fld := ⟨QSPI_CTRL, 24, 4⟩
/-- QSPI_STAT: Activity (RO, R517). -/
def QSPI_STAT : Reg := { name := "QSPI_STAT", base := 0x40003004 }
def QSPI_STAT_BUSY : Fld := ⟨QSPI_STAT, 0, 1⟩
def QSPI_STAT_SPILL : Fld := ⟨QSPI_STAT, 1, 1⟩
def QSPI_STAT_LINE_VALID : Fld := ⟨QSPI_STAT, 2, 1⟩
/-- QSPI_FLAGS: Sticky flags (W1C, R517). -/
def QSPI_FLAGS : Reg := { name := "QSPI_FLAGS", base := 0x40003008, w1c := 0x00000007 }
def QSPI_FLAGS_CMD_DONE : Fld := ⟨QSPI_FLAGS, 0, 1⟩
def QSPI_FLAGS_CMD_FAIL : Fld := ⟨QSPI_FLAGS, 1, 1⟩
def QSPI_FLAGS_CMD_REJ : Fld := ⟨QSPI_FLAGS, 2, 1⟩
/-- QSPI_EVEN: Bit b enables QSPI_FLAGS bit b (RW, R517). -/
def QSPI_EVEN : Reg := { name := "QSPI_EVEN", base := 0x4000300C, wmask := 0x00000007 }
/-- QSPI_CMD: Command (WO, R517). -/
def QSPI_CMD : Reg := { name := "QSPI_CMD", base := 0x40003010 }
def QSPI_CMD_OP : Fld := ⟨QSPI_CMD, 0, 8⟩
def QSPI_CMD_ADDRLEN : Fld := ⟨QSPI_CMD, 8, 2⟩
def QSPI_CMD_DUMMY : Fld := ⟨QSPI_CMD, 10, 4⟩
def QSPI_CMD_LANES : Fld := ⟨QSPI_CMD, 14, 2⟩
def QSPI_CMD_LEN : Fld := ⟨QSPI_CMD, 16, 9⟩
def QSPI_CMD_DIR : Fld := ⟨QSPI_CMD, 25, 1⟩
def QSPI_CMD_POLL : Fld := ⟨QSPI_CMD, 26, 1⟩
def QSPI_CMD_WREN : Fld := ⟨QSPI_CMD, 27, 1⟩
def QSPI_CMD_ABORT : Fld := ⟨QSPI_CMD, 30, 1⟩
def QSPI_CMD_GO : Fld := ⟨QSPI_CMD, 31, 1⟩
/-- QSPI_ADDR: Command address (RW, R517). -/
def QSPI_ADDR : Reg := { name := "QSPI_ADDR", base := 0x40003014, wmask := 0xFFFFFFFF }
/-- QSPI_OPSTAT: Status word by R18 (RO, R517). -/
def QSPI_OPSTAT : Reg := { name := "QSPI_OPSTAT", base := 0x40003018 }
def QSPI_OPSTAT_STATE : Fld := ⟨QSPI_OPSTAT, 28, 4⟩
def QSPI_OPSTAT_PROGRESS : Fld := ⟨QSPI_OPSTAT, 16, 12⟩
def QSPI_OPSTAT_PARTIALS : Fld := ⟨QSPI_OPSTAT, 8, 8⟩
def QSPI_OPSTAT_REASON : Fld := ⟨QSPI_OPSTAT, 1, 7⟩
def QSPI_OPSTAT_ABORT_LATE : Fld := ⟨QSPI_OPSTAT, 0, 1⟩
/-- QSPI_POLLTO: [15:0] ms, 1–65,535 (RW, R517). -/
def QSPI_POLLTO : Reg := { name := "QSPI_POLLTO", base := 0x4000301C, wmask := 0x0000FFFF, reset := 0x00000FA0 }
def QSPI_POLLTO_MS : Fld := ⟨QSPI_POLLTO, 0, 16⟩
/-- QSPI_BUF: Data; byte 4j in bits [7:0] of word j (RW, R517). -/
def QSPI_BUF : Reg := { name := "QSPI_BUF", base := 0x40003100, count := 64, stride := 0x4, wmask := 0xFFFFFFFF }
/-- QSPI_XPOLL: [7:0] status opcode (RW, R517). -/
def QSPI_XPOLL : Reg := { name := "QSPI_XPOLL", base := 0x40003200, wmask := 0x000000FF, expert := true, reset := 0x00000005 }
def QSPI_XPOLL_OP : Fld := ⟨QSPI_XPOLL, 0, 8⟩

/-! ### spec/14_host_serial_timers.md, R524 -/
/-- TIMER_GCTRL: Global start, expert control (RW, R524). -/
def TIMER_GCTRL : Reg := { name := "TIMER_GCTRL", base := 0x40007000, wmask := 0x00000003 }
def TIMER_GCTRL_GSTART : Fld := ⟨TIMER_GCTRL, 0, 1⟩
def TIMER_GCTRL_EXPERT_UNLOCK : Fld := ⟨TIMER_GCTRL, 1, 1⟩
def TIMER_GCTRL_EXPERT : Fld := ⟨TIMER_GCTRL, 2, 1⟩
/-- TIMER_GSTAT: [15:0] bit t: timer t counts now (RO, R524). -/
def TIMER_GSTAT : Reg := { name := "TIMER_GSTAT", base := 0x40007004 }
/-- TIMER_GSET: [15:0] set EN, by R522 (WO, R524). -/
def TIMER_GSET : Reg := { name := "TIMER_GSET", base := 0x40007008 }
/-- TIMER_GCLR: [15:0] clear EN, by R522 (WO, R524). -/
def TIMER_GCLR : Reg := { name := "TIMER_GCLR", base := 0x4000700C }
/-- TIMER_XDBG: [0] FREEZE, by R519 (RW, R524). -/
def TIMER_XDBG : Reg := { name := "TIMER_XDBG", base := 0x40007080, wmask := 0x00000001, expert := true }
def TIMER_XDBG_FREEZE : Fld := ⟨TIMER_XDBG, 0, 1⟩
/-- TIMERt_CTRL: Mode, prescaler, chaining (RW, R524). -/
def TIMERt_CTRL : Reg := { name := "TIMERt_CTRL", base := 0x40007100, count := 16, stride := 0x20, wmask := 0x0003F7F7 }
def TIMERt_CTRL_EN : Fld := ⟨TIMERt_CTRL, 0, 1⟩
def TIMERt_CTRL_MODE : Fld := ⟨TIMERt_CTRL, 1, 2⟩
def TIMERt_CTRL_PRESC : Fld := ⟨TIMERt_CTRL, 4, 4⟩
def TIMERt_CTRL_SLAVE : Fld := ⟨TIMERt_CTRL, 8, 3⟩
def TIMERt_CTRL_MASTER : Fld := ⟨TIMERt_CTRL, 12, 4⟩
def TIMERt_CTRL_MSEL : Fld := ⟨TIMERt_CTRL, 16, 1⟩
def TIMERt_CTRL_LEGACY : Fld := ⟨TIMERt_CTRL, 17, 1⟩
/-- TIMERt_COUNT: c (RW, R524). -/
def TIMERt_COUNT : Reg := { name := "TIMERt_COUNT", base := 0x40007104, count := 16, stride := 0x20, wmask := 0xFFFFFFFF }
/-- TIMERt_MATCH: Match value (RW, R524). -/
def TIMERt_MATCH : Reg := { name := "TIMERt_MATCH", base := 0x40007108, count := 16, stride := 0x20, wmask := 0xFFFFFFFF, reset := 0xFFFFFFFF }
/-- TIMERt_RELOAD: Last count in PERIOD (RW, R524). -/
def TIMERt_RELOAD : Reg := { name := "TIMERt_RELOAD", base := 0x4000710C, count := 16, stride := 0x20, wmask := 0xFFFFFFFF, reset := 0xFFFFFFFF }
/-- TIMERt_RESID: [14:0] r (RO, R524). -/
def TIMERt_RESID : Reg := { name := "TIMERt_RESID", base := 0x40007110, count := 16, stride := 0x20 }
/-- TIMERt_FLAGS: Sticky flags (W1C, R524). -/
def TIMERt_FLAGS : Reg := { name := "TIMERt_FLAGS", base := 0x40007114, count := 16, stride := 0x20, w1c := 0x0000001F }
def TIMERt_FLAGS_MATCH : Fld := ⟨TIMERt_FLAGS, 0, 1⟩
def TIMERt_FLAGS_WRAP : Fld := ⟨TIMERt_FLAGS, 1, 1⟩
def TIMERt_FLAGS_DONE : Fld := ⟨TIMERt_FLAGS, 2, 1⟩
def TIMERt_FLAGS_CFG_REJ : Fld := ⟨TIMERt_FLAGS, 3, 1⟩
def TIMERt_FLAGS_MAKEUP : Fld := ⟨TIMERt_FLAGS, 4, 1⟩
/-- TIMERt_EVEN: Bit b enables TIMERt_FLAGS bit b (RW, R524). -/
def TIMERt_EVEN : Reg := { name := "TIMERt_EVEN", base := 0x40007118, count := 16, stride := 0x20, wmask := 0x0000001F }

/-! ### spec/14_host_serial_timers.md, R532 -/
/-- GPIO_CTRL: Expert control (RW, R532). -/
def GPIO_CTRL : Reg := { name := "GPIO_CTRL", base := 0x4000F000, wmask := 0x00000002 }
def GPIO_CTRL_EXPERT_UNLOCK : Fld := ⟨GPIO_CTRL, 1, 1⟩
def GPIO_CTRL_EXPERT : Fld := ⟨GPIO_CTRL, 2, 1⟩
/-- GPIO_IN: Levels of GP0–GP31, by R528 (RO, R532). -/
def GPIO_IN : Reg := { name := "GPIO_IN", base := 0x4000F010, count := 2, stride := 0x4 }
/-- GPIO_CLAIM: GP0–GP31 are GPIO pins while no PINMAP is in force (RW, R532). -/
def GPIO_CLAIM : Reg := { name := "GPIO_CLAIM", base := 0x4000F018, count := 2, stride := 0x4, wmask := 0xFFFFFFFF }
/-- GPIO_OUT: Output levels (RW, R532). -/
def GPIO_OUT : Reg := { name := "GPIO_OUT", base := 0x4000F020, count := 2, stride := 0x4, wmask := 0xFFFFFFFF }
/-- GPIO_SET: 1 sets the OUT bit (WO, R532). -/
def GPIO_SET : Reg := { name := "GPIO_SET", base := 0x4000F028, count := 2, stride := 0x4 }
/-- GPIO_CLR: 1 clears the OUT bit (WO, R532). -/
def GPIO_CLR : Reg := { name := "GPIO_CLR", base := 0x4000F030, count := 2, stride := 0x4 }
/-- GPIO_OE: Output enables (RW, R532). -/
def GPIO_OE : Reg := { name := "GPIO_OE", base := 0x4000F040, count := 2, stride := 0x4, wmask := 0xFFFFFFFF }
/-- GPIO_OD: Open-drain selection (RW, R532). -/
def GPIO_OD : Reg := { name := "GPIO_OD", base := 0x4000F048, count := 2, stride := 0x4, wmask := 0xFFFFFFFF }
/-- GPIO_PULL: Pull-up of claimed pins while no PINMAP is in force (RW, R532). -/
def GPIO_PULL : Reg := { name := "GPIO_PULL", base := 0x4000F050, count := 2, stride := 0x4, wmask := 0xFFFFFFFF }
/-- GPIO_EDGE: Edge selection; register m covers GP(16m) to GP(16m + 15) (RW, R532). -/
def GPIO_EDGE : Reg := { name := "GPIO_EDGE", base := 0x4000F060, count := 3, stride := 0x4, wmask := 0xFFFFFFFF }
/-- GPIO_FLAGS: Edge flags (W1C, R532). -/
def GPIO_FLAGS : Reg := { name := "GPIO_FLAGS", base := 0x4000F070, count := 2, stride := 0x4, w1c := 0xFFFFFFFF }
/-- GPIO_EVEN: Bit j enables FLAGS0 bit j (RW, R532). -/
def GPIO_EVEN : Reg := { name := "GPIO_EVEN", base := 0x4000F078, count := 2, stride := 0x4, wmask := 0xFFFFFFFF }
/-- GPIO_XFILT: Edge filter (RW, R532). -/
def GPIO_XFILT : Reg := { name := "GPIO_XFILT", base := 0x4000F100, wmask := 0x000000FF, expert := true }
def GPIO_XFILT_FILT : Fld := ⟨GPIO_XFILT, 0, 8⟩

/-! ### The whole map -/

/-- The register map of the RAIL block. -/
def railRegs : List Reg :=
  [RAIL_CTRL, RAIL_STAT, RAIL_FLAGS, RAIL_VTARGET, RAIL_SLEW, RAIL_LOADLINE, RAIL_ILIMIT, RAIL_SOFTSTART,
   RAIL_VREF, RAIL_ERR, RAIL_VSENSE, RAIL_IOUT, RAIL_ICMD, RAIL_VIN, RAIL_EVEN, RAIL_XCTL, RAIL_XSTAT,
   RAIL_XSLEWSTEP, RAIL_XLLGAIN, RAIL_XVERR, RAIL_XKCUR, RAIL_XKBAL, RAIL_XBALLIM, RAIL_XDMIN, RAIL_XDMAX,
   RAIL_XCBAL, RAIL_XKCB, RAIL_XGSHIFT, RAIL_XISLEW, RAIL_XGRAPH, RAIL_XCOEF, RAIL_XCOEFACT, RAIL_TE_CTRL,
   RAIL_TE_COUT, RAIL_TE_STAT, RAIL_TE_LAST, RAIL_TE_LASTT, RAIL_TE_UNDEL, RAIL_TE_HANDOFF, RAIL_TE_COUNT,
   RAIL_TE_FLAGS, RAIL_TE_EVEN, RAIL_XTEDET, RAIL_XTEARM, RAIL_XTEKSL, RAIL_XTEKQE, RAIL_XTEADD, RAIL_XTEHO,
   RAIL_PWM, RAIL_PHASE, RAIL_ADDSHED, RAIL_GUARD, RAIL_CAL, RAIL_SEQSTAT, RAIL_GCAUSE, RAIL_GDEV, RAIL_BOUND,
   RAIL_SUBST, RAIL_SPARES, RAIL_XSEQ, RAIL_XSHED, RAIL_XOC, RAIL_XGUARD, RAIL_XDIS, RAIL_XDISTM, RAIL_XCAL,
   RAIL_XCAL2]

/-- The register map of the HAWKMOTH block. -/
def hawkmothRegs : List Reg :=
  [HM_CTRL, HM_PORTCFG, HM_PORTSTAT, HM_FLAGS, HM_EVEN, HM_CNT_OK, HM_CNT_ERR, HM_LASTFRAME_HI, HM_LASTFRAME_LO,
   HM_RELAY_HI, HM_RELAY_LO, HM_TIME, HM_SIGSEL, HM_SIGDATA0, HM_SIGDATA1, HMRAIL_CTRL, HMRAIL_MAGSCALE,
   HMRAIL_STAT, HMRAIL_FLAGS, HMRAIL_EVEN, HMRAIL_PRED, HMRAIL_PREDT, HMRAIL_SCORE, HMRAIL_XTIME, HMRAIL_XKPB,
   HMRAIL_XBIAS, HMRAIL_XFIRE, HMRAIL_XLEARN, HMRAIL_XSIGCLASS]

/-- The register map of the SLICE block. -/
def sliceRegs : List Reg :=
  [SLICE_CTRL, SLICE_STAT, SLICE_FLAGS, SLICE_EVEN, SLICE_FCAUSE, SLICE_I, SLICE_IAVG, SLICE_BAL, SLICE_TON,
   SLICE_OFS, SLICE_KI, SLICE_LQ, SLICE_CALRES0, SLICE_CALRES1, SLICE_XOFS, SLICE_XKI, SLICE_XLQ, CL_CTRL,
   CL_OTLIM, CL_STAT, CL_FLAGS, CL_EVEN]

/-- The register map of the CHAIN block. -/
def chainRegs : List Reg :=
  [CHAIN_CTRL, CHAIN_STAT, CHAIN_FLAGS, CHAIN_EVEN, CHAIN_UPORT, CHAIN_DPORT, CHAIN_HOLD, CHAIN_RTIME,
   CHAIN_CNT_U, CHAIN_CNT_D, CHAIN_ENSTAT, CHAIN_SPANc_STAT, CHAIN_SPANc_SHARE, CHAIN_SPANc_MEMB, CHAIN_SPANc_CNT,
   CHAIN_SPANCMD, CHAIN_SPANCMDST, CHAIN_XTIME, CHAIN_XHOPADJ]

/-- The register map of the CFG block. -/
def cfgRegs : List Reg :=
  [CFG_CTRL, CFG_STAT, CFG_FLAGS, CFG_EVEN, CFG_SWAP, CFG_CHECK, CFG_GSTAT, CFG_GCOUNT, CFG_SCRUB, CFG_BGCRC,
   CFG_MINVER, CFG_VER_A, CFG_VER_B, CFG_WRERR, CFG_XSCRUB]

/-- The register map of the ACCUM block. -/
def accumRegs : List Reg :=
  [ACCUM_CTRL, ACCUM_FLAGS, ACCUM_EVEN, ACCUM_TSCAL, ACCUM_NEW, ACCUM_LIM, ACCUM_NEWEN, ACCUM_LIMEN, ACCUM_OWCMD,
   ACCUM_OWSTAT, ACCUM_OWDIFF, ACCUM_OWBGS, ACCUM_OWBGR, ACCUM_LOPCMD, ACCUM_LOPSTAT, ACCUM_LOPCFG, ACCUM_LOPREJ,
   ACCUM_LOPINFO, ACCUM_XOW, ACCUM_XOW2, ACCUMu_CFG, ACCUMu_AVG, ACCUMu_WMIN, ACCUMu_WMAX, ACCUMu_STAT,
   ACCUMu_LIMHI, ACCUMu_LIMLO, ACCUMu_CTRL, ACCUMu_XROUTE, ACCUM_RES]

/-- The register map of the LOG block. -/
def logRegs : List Reg :=
  [LOG_CTRL, LOG_STAT, LOG_FLAGS, LOG_EVEN, LOG_NEXT, LOG_ACK, LOG_UNREAD, LOG_SEQ, LOG_LOSS, LOG_COALCNT,
   LOG_SPILLBASE, LOG_SPILLSIZE, LOG_SPILLPTR, LOG_INCID, LOG_EPOCH, LOG_SWDATA, LOG_SWPOST, LOG_XCFG]

/-- The register map of the BD block. -/
def bdRegs : List Reg :=
  [BD_REG, BD_CTRL, BD_STAT, BD_TIME_LO, BD_TIME_HI, BD_ALARM_LO, BD_ALARM_HI, BD_SLEEPT_LO, BD_SLEEPT_HI]

/-- The register map of the SYSCTL block. -/
def sysctlRegs : List Reg :=
  [SYSCTL_CTRL, SYSCTL_MODE, SYSCTL_MODECMD, SYSCTL_FLAGS, SYSCTL_EVEN, SYSCTL_RESETCAUSE, SYSCTL_RESET,
   SYSCTL_SUPPLY, SYSCTL_WAKEEN, SYSCTL_WAKESRC, SYSCTL_SLEEPN, SYSCTL_MAKEUP_LO, SYSCTL_MAKEUP_HI, SYSCTL_WDOG,
   SYSCTL_WDOGKICK, SYSCTL_FAULTCMD, SYSCTL_OWNER, SYSCTL_CLK, SYSCTL_HKSTAT, SYSCTL_XSUP]

/-- The register map of the SECURE block. -/
def secureRegs : List Reg :=
  [SECURE_CTRL, SECURE_STAT, SECURE_FLAGS, SECURE_EVEN, SECURE_BOOTREC, SECURE_BOOTSEQ, SECURE_BOOTSVN,
   SECURE_BOOTTIME, SECURE_BOOTBAD, SECURE_MINVER, SECURE_SLOTS, SECURE_TAMPER, SECURE_OPCMD, SECURE_OPSTAT,
   SECURE_OPSRC, SECURE_OPLEN, SECURE_OPDST, SECURE_OPARG, SECURE_OPKEY, SECURE_DBGCHAL, SECURE_RES,
   SECURE_XGLITCH]

/-- The register map of the EVENT block. -/
def eventRegs : List Reg :=
  [EVENT_CTRL, EVENT_STAT, EVENT_ENr, EVENT_PENDr, EVENT_RAWr, EVENT_PRIOp, EVENT_SWSET, EVENT_SWCLR,
   EVENT_XFORCEr]

/-- The register map of the CORE block. -/
def coreRegs : List Reg :=
  [CORE_CTRL, CORE_STAT, CORE_FLAGS, CORE_CACHE, CORE_VBASE, CORE_ROLLCNT, CORE_CKPT, CORE_LASTMIS, CORE_SHBASEn,
   CORE_SHLIMn, CORE_HOCMD, CORE_HOSTAT, CORE_HOADDR, CORE_HOXFER, CORE_HOOWN, CORE_XWIN]

/-- The register map of the FLASHC block. -/
def flashcRegs : List Reg :=
  [FLASHC_CTRL, FLASHC_STAT, FLASHC_FLAGS, FLASHC_EVEN, FLASHC_CMD, FLASHC_ADDR, FLASHC_OPSTAT, FLASHC_OPINFO,
   FLASHC_SUSP, FLASHC_REJ, FLASHC_BRES, FLASHC_BBLANK, FLASHC_BWEAK, FLASHC_BPAIR, FLASHC_HALFE, FLASHC_ECCSTAT,
   FLASHC_ECCUE, FLASHC_ECCCE, FLASHC_SCRUB, FLASHC_XSCRUB, FLASHC_PBUF]

/-- The register map of the DMA block. -/
def dmaRegs : List Reg :=
  [DMA_CTRL, DMA_STAT, DMA_XARB, CHn_CTRL, CHn_DESC, CHn_STAT, CHn_CUR, CHn_FLAGS, CHn_EVEN, CHn_ERRADDR,
   CHn_BADCNT]

/-- The register map of the STITCH block. -/
def stitchRegs : List Reg :=
  [STITCH_CTRL, STITCH_EN, STITCH_SYNC, STITCH_STAT, STITCH_GRPRES, STITCHe_STAT, STITCHe_FLAGS, STITCHe_EVEN,
   STITCHe_SOUT, STITCHe_SIN, STITCHe_CNT, STITCHe_CTR, STITCHe_HSSET, STITCHe_HSCLR, STITCHe_INJECT,
   STITCHe_PINS, STITCHe_GROUP, STITCHe_CLKDIV, STITCHe_CUR, STITCHe_SHCFG, STITCHe_IMEMw]

/-- The register map of the HOSTBUS block. -/
def hostbusRegs : List Reg :=
  [HB_CTRL, HB_STAT, HB_FLAGS, HB_EVEN, HB_ALERT, HB_ALERTMASK, HB_FWCMD, HB_FWVAL, HB_FWACK, HB_CNT, HB_RXBUF,
   HB_TXBUF, HB_PSTATn, HB_XTO]

/-- The register map of the UART block. -/
def uartRegs : List Reg :=
  [UART_CTRL, UART_BAUD, UART_STAT, UART_FLAGS, UART_EVEN, UART_RXQ, UART_TXQ, UART_BRK, UART_RXTHR, UART_LOST,
   UART_XLINE]

/-- The register map of the QSPI block. -/
def qspiRegs : List Reg :=
  [QSPI_CTRL, QSPI_STAT, QSPI_FLAGS, QSPI_EVEN, QSPI_CMD, QSPI_ADDR, QSPI_OPSTAT, QSPI_POLLTO, QSPI_BUF,
   QSPI_XPOLL]

/-- The register map of the TIMER block. -/
def timerRegs : List Reg :=
  [TIMER_GCTRL, TIMER_GSTAT, TIMER_GSET, TIMER_GCLR, TIMER_XDBG, TIMERt_CTRL, TIMERt_COUNT, TIMERt_MATCH,
   TIMERt_RELOAD, TIMERt_RESID, TIMERt_FLAGS, TIMERt_EVEN]

/-- The register map of the GPIO block. -/
def gpioRegs : List Reg :=
  [GPIO_CTRL, GPIO_IN, GPIO_CLAIM, GPIO_OUT, GPIO_SET, GPIO_CLR, GPIO_OE, GPIO_OD, GPIO_PULL, GPIO_EDGE,
   GPIO_FLAGS, GPIO_EVEN, GPIO_XFILT]

/-- Reset values, part 0 (the Reset columns of the register tables). -/
def resetRegs0 : List (Nat × BitVec 32) :=
  [(0x40000004, 0x00000002#32), (0x40000014, 0x00000005#32), (0x4000001C, 0x0000000F#32),
   (0x40001004, 0x00100000#32), (0x40001034, 0x00000800#32), (0x40001044, 0x00000800#32),
   (0x40001100, 0x14010430#32), (0x40002014, 0x0000000F#32), (0x40002100, 0x000000C8#32),
   (0x40003000, 0x02000300#32), (0x4000301C, 0x00000FA0#32), (0x40003200, 0x00000005#32),
   (0x40004004, 0x00000C80#32), (0x40004008, 0x00080000#32), (0x40004020, 0x00000001#32),
   (0x40004100, 0x00333100#32), (0x40005004, 0x00000C80#32), (0x40005008, 0x00080000#32),
   (0x40005020, 0x00000001#32), (0x40005100, 0x00333100#32), (0x40007108, 0xFFFFFFFF#32),
   (0x4000710C, 0xFFFFFFFF#32), (0x40007128, 0xFFFFFFFF#32), (0x4000712C, 0xFFFFFFFF#32)]

/-- Reset values, part 1 (the Reset columns of the register tables). -/
def resetRegs1 : List (Nat × BitVec 32) :=
  [(0x40007148, 0xFFFFFFFF#32), (0x4000714C, 0xFFFFFFFF#32), (0x40007168, 0xFFFFFFFF#32),
   (0x4000716C, 0xFFFFFFFF#32), (0x40007188, 0xFFFFFFFF#32), (0x4000718C, 0xFFFFFFFF#32),
   (0x400071A8, 0xFFFFFFFF#32), (0x400071AC, 0xFFFFFFFF#32), (0x400071C8, 0xFFFFFFFF#32),
   (0x400071CC, 0xFFFFFFFF#32), (0x400071E8, 0xFFFFFFFF#32), (0x400071EC, 0xFFFFFFFF#32),
   (0x40007208, 0xFFFFFFFF#32), (0x4000720C, 0xFFFFFFFF#32), (0x40007228, 0xFFFFFFFF#32),
   (0x4000722C, 0xFFFFFFFF#32), (0x40007248, 0xFFFFFFFF#32), (0x4000724C, 0xFFFFFFFF#32),
   (0x40007268, 0xFFFFFFFF#32), (0x4000726C, 0xFFFFFFFF#32), (0x40007288, 0xFFFFFFFF#32),
   (0x4000728C, 0xFFFFFFFF#32), (0x400072A8, 0xFFFFFFFF#32), (0x400072AC, 0xFFFFFFFF#32)]

/-- Reset values, part 2 (the Reset columns of the register tables). -/
def resetRegs2 : List (Nat × BitVec 32) :=
  [(0x400072C8, 0xFFFFFFFF#32), (0x400072CC, 0xFFFFFFFF#32), (0x400072E8, 0xFFFFFFFF#32),
   (0x400072EC, 0xFFFFFFFF#32), (0x40009014, 0x08000000#32), (0x40009100, 0x00010100#32),
   (0x4000A000, 0x00000001#32), (0x4000A00C, 0x08000258#32), (0x4000A0E0, 0x00040400#32),
   (0x4000A0E4, 0x00080080#32), (0x4000A110, 0x02000000#32), (0x4000A114, 0x7FFFFFFF#32),
   (0x4000A118, 0x80000000#32), (0x4000A130, 0x02000000#32), (0x4000A134, 0x7FFFFFFF#32),
   (0x4000A138, 0x80000000#32), (0x4000A150, 0x02000000#32), (0x4000A154, 0x7FFFFFFF#32),
   (0x4000A158, 0x80000000#32), (0x4000A170, 0x02000000#32), (0x4000A174, 0x7FFFFFFF#32),
   (0x4000A178, 0x80000000#32), (0x4000A190, 0x02000000#32), (0x4000A194, 0x7FFFFFFF#32)]

/-- Reset values, part 3 (the Reset columns of the register tables). -/
def resetRegs3 : List (Nat × BitVec 32) :=
  [(0x4000A198, 0x80000000#32), (0x4000A1B0, 0x02000000#32), (0x4000A1B4, 0x7FFFFFFF#32),
   (0x4000A1B8, 0x80000000#32), (0x4000A1D0, 0x02000000#32), (0x4000A1D4, 0x7FFFFFFF#32),
   (0x4000A1D8, 0x80000000#32), (0x4000A1F0, 0x02000000#32), (0x4000A1F4, 0x7FFFFFFF#32),
   (0x4000A1F8, 0x80000000#32), (0x4000A210, 0x02000000#32), (0x4000A214, 0x7FFFFFFF#32),
   (0x4000A218, 0x80000000#32), (0x4000A230, 0x02000000#32), (0x4000A234, 0x7FFFFFFF#32),
   (0x4000A238, 0x80000000#32), (0x4000A250, 0x02000000#32), (0x4000A254, 0x7FFFFFFF#32),
   (0x4000A258, 0x80000000#32), (0x4000A270, 0x02000000#32), (0x4000A274, 0x7FFFFFFF#32),
   (0x4000A278, 0x80000000#32), (0x4000A290, 0x02000000#32), (0x4000A294, 0x7FFFFFFF#32)]

/-- Reset values, part 4 (the Reset columns of the register tables). -/
def resetRegs4 : List (Nat × BitVec 32) :=
  [(0x4000A298, 0x80000000#32), (0x4000A2B0, 0x02000000#32), (0x4000A2B4, 0x7FFFFFFF#32),
   (0x4000A2B8, 0x80000000#32), (0x4000A2D0, 0x02000000#32), (0x4000A2D4, 0x7FFFFFFF#32),
   (0x4000A2D8, 0x80000000#32), (0x4000A2F0, 0x02000000#32), (0x4000A2F4, 0x7FFFFFFF#32),
   (0x4000A2F8, 0x80000000#32), (0x4000A310, 0x02000000#32), (0x4000A314, 0x7FFFFFFF#32),
   (0x4000A318, 0x80000000#32), (0x4000A330, 0x02000000#32), (0x4000A334, 0x7FFFFFFF#32),
   (0x4000A338, 0x80000000#32), (0x4000A350, 0x02000000#32), (0x4000A354, 0x7FFFFFFF#32),
   (0x4000A358, 0x80000000#32), (0x4000A370, 0x02000000#32), (0x4000A374, 0x7FFFFFFF#32),
   (0x4000A378, 0x80000000#32), (0x4000A390, 0x02000000#32), (0x4000A394, 0x7FFFFFFF#32)]

/-- Reset values, part 5 (the Reset columns of the register tables). -/
def resetRegs5 : List (Nat × BitVec 32) :=
  [(0x4000A398, 0x80000000#32), (0x4000A3B0, 0x02000000#32), (0x4000A3B4, 0x7FFFFFFF#32),
   (0x4000A3B8, 0x80000000#32), (0x4000A3D0, 0x02000000#32), (0x4000A3D4, 0x7FFFFFFF#32),
   (0x4000A3D8, 0x80000000#32), (0x4000A3F0, 0x02000000#32), (0x4000A3F4, 0x7FFFFFFF#32),
   (0x4000A3F8, 0x80000000#32), (0x4000A410, 0x02000000#32), (0x4000A414, 0x7FFFFFFF#32),
   (0x4000A418, 0x80000000#32), (0x4000A430, 0x02000000#32), (0x4000A434, 0x7FFFFFFF#32),
   (0x4000A438, 0x80000000#32), (0x4000A450, 0x02000000#32), (0x4000A454, 0x7FFFFFFF#32),
   (0x4000A458, 0x80000000#32), (0x4000A470, 0x02000000#32), (0x4000A474, 0x7FFFFFFF#32),
   (0x4000A478, 0x80000000#32), (0x4000A490, 0x02000000#32), (0x4000A494, 0x7FFFFFFF#32)]

/-- Reset values, part 6 (the Reset columns of the register tables). -/
def resetRegs6 : List (Nat × BitVec 32) :=
  [(0x4000A498, 0x80000000#32), (0x4000A4B0, 0x02000000#32), (0x4000A4B4, 0x7FFFFFFF#32),
   (0x4000A4B8, 0x80000000#32), (0x4000A4D0, 0x02000000#32), (0x4000A4D4, 0x7FFFFFFF#32),
   (0x4000A4D8, 0x80000000#32), (0x4000A4F0, 0x02000000#32), (0x4000A4F4, 0x7FFFFFFF#32),
   (0x4000A4F8, 0x80000000#32), (0x4000A510, 0x02000000#32), (0x4000A514, 0x7FFFFFFF#32),
   (0x4000A518, 0x80000000#32), (0x4000A530, 0x02000000#32), (0x4000A534, 0x7FFFFFFF#32),
   (0x4000A538, 0x80000000#32), (0x4000A550, 0x02000000#32), (0x4000A554, 0x7FFFFFFF#32),
   (0x4000A558, 0x80000000#32), (0x4000A570, 0x02000000#32), (0x4000A574, 0x7FFFFFFF#32),
   (0x4000A578, 0x80000000#32), (0x4000A590, 0x02000000#32), (0x4000A594, 0x7FFFFFFF#32)]

/-- Reset values, part 7 (the Reset columns of the register tables). -/
def resetRegs7 : List (Nat × BitVec 32) :=
  [(0x4000A598, 0x80000000#32), (0x4000A5B0, 0x02000000#32), (0x4000A5B4, 0x7FFFFFFF#32),
   (0x4000A5B8, 0x80000000#32), (0x4000A5D0, 0x02000000#32), (0x4000A5D4, 0x7FFFFFFF#32),
   (0x4000A5D8, 0x80000000#32), (0x4000A5F0, 0x02000000#32), (0x4000A5F4, 0x7FFFFFFF#32),
   (0x4000A5F8, 0x80000000#32), (0x4000A610, 0x02000000#32), (0x4000A614, 0x7FFFFFFF#32),
   (0x4000A618, 0x80000000#32), (0x4000A630, 0x02000000#32), (0x4000A634, 0x7FFFFFFF#32),
   (0x4000A638, 0x80000000#32), (0x4000A650, 0x02000000#32), (0x4000A654, 0x7FFFFFFF#32),
   (0x4000A658, 0x80000000#32), (0x4000A670, 0x02000000#32), (0x4000A674, 0x7FFFFFFF#32),
   (0x4000A678, 0x80000000#32), (0x4000A690, 0x02000000#32), (0x4000A694, 0x7FFFFFFF#32)]

/-- Reset values, part 8 (the Reset columns of the register tables). -/
def resetRegs8 : List (Nat × BitVec 32) :=
  [(0x4000A698, 0x80000000#32), (0x4000A6B0, 0x02000000#32), (0x4000A6B4, 0x7FFFFFFF#32),
   (0x4000A6B8, 0x80000000#32), (0x4000A6D0, 0x02000000#32), (0x4000A6D4, 0x7FFFFFFF#32),
   (0x4000A6D8, 0x80000000#32), (0x4000A6F0, 0x02000000#32), (0x4000A6F4, 0x7FFFFFFF#32),
   (0x4000A6F8, 0x80000000#32), (0x4000A710, 0x02000000#32), (0x4000A714, 0x7FFFFFFF#32),
   (0x4000A718, 0x80000000#32), (0x4000A730, 0x02000000#32), (0x4000A734, 0x7FFFFFFF#32),
   (0x4000A738, 0x80000000#32), (0x4000A750, 0x02000000#32), (0x4000A754, 0x7FFFFFFF#32),
   (0x4000A758, 0x80000000#32), (0x4000A770, 0x02000000#32), (0x4000A774, 0x7FFFFFFF#32),
   (0x4000A778, 0x80000000#32), (0x4000A790, 0x02000000#32), (0x4000A794, 0x7FFFFFFF#32)]

/-- Reset values, part 9 (the Reset columns of the register tables). -/
def resetRegs9 : List (Nat × BitVec 32) :=
  [(0x4000A798, 0x80000000#32), (0x4000A7B0, 0x02000000#32), (0x4000A7B4, 0x7FFFFFFF#32),
   (0x4000A7B8, 0x80000000#32), (0x4000A7D0, 0x02000000#32), (0x4000A7D4, 0x7FFFFFFF#32),
   (0x4000A7D8, 0x80000000#32), (0x4000A7F0, 0x02000000#32), (0x4000A7F4, 0x7FFFFFFF#32),
   (0x4000A7F8, 0x80000000#32), (0x4000A810, 0x02000000#32), (0x4000A814, 0x7FFFFFFF#32),
   (0x4000A818, 0x80000000#32), (0x4000A830, 0x02000000#32), (0x4000A834, 0x7FFFFFFF#32),
   (0x4000A838, 0x80000000#32), (0x4000A850, 0x02000000#32), (0x4000A854, 0x7FFFFFFF#32),
   (0x4000A858, 0x80000000#32), (0x4000A870, 0x02000000#32), (0x4000A874, 0x7FFFFFFF#32),
   (0x4000A878, 0x80000000#32), (0x4000A890, 0x02000000#32), (0x4000A894, 0x7FFFFFFF#32)]

/-- Reset values, part 10 (the Reset columns of the register tables). -/
def resetRegs10 : List (Nat × BitVec 32) :=
  [(0x4000A898, 0x80000000#32), (0x4000A8B0, 0x02000000#32), (0x4000A8B4, 0x7FFFFFFF#32),
   (0x4000A8B8, 0x80000000#32), (0x4000A8D0, 0x02000000#32), (0x4000A8D4, 0x7FFFFFFF#32),
   (0x4000A8D8, 0x80000000#32), (0x4000A8F0, 0x02000000#32), (0x4000A8F4, 0x7FFFFFFF#32),
   (0x4000A8F8, 0x80000000#32), (0x4000B004, 0x00820000#32), (0x4000B100, 0x000028B4#32),
   (0x4000C004, 0x00000080#32), (0x4000D100, 0x00060064#32), (0x4000E100, 0x00000104#32),
   (0x50010004, 0x00FF0000#32), (0x50010104, 0x00FF0000#32), (0x50010204, 0x00FF0000#32),
   (0x50010304, 0x00FF0000#32), (0x50010404, 0x00FF0000#32), (0x50010504, 0x00FF0000#32),
   (0x50010604, 0x00FF0000#32), (0x50010704, 0x00FF0000#32), (0x50010804, 0x00FF0000#32)]

/-- Reset values, part 11 (the Reset columns of the register tables). -/
def resetRegs11 : List (Nat × BitVec 32) :=
  [(0x50010904, 0x00FF0000#32), (0x50010A04, 0x00FF0000#32), (0x50010B04, 0x00FF0000#32),
   (0x50010C04, 0x00FF0000#32), (0x50010D04, 0x00FF0000#32), (0x50010E04, 0x00FF0000#32),
   (0x50010F04, 0x00FF0000#32), (0x50011004, 0x00FF0000#32), (0x50011104, 0x00FF0000#32),
   (0x50011204, 0x00FF0000#32), (0x50011304, 0x00FF0000#32), (0x50011404, 0x00FF0000#32),
   (0x50011504, 0x00FF0000#32), (0x50011604, 0x00FF0000#32), (0x50011704, 0x00FF0000#32),
   (0x50011804, 0x00FF0000#32), (0x50011904, 0x00FF0000#32), (0x50011A04, 0x00FF0000#32),
   (0x50011B04, 0x00FF0000#32), (0x50011C04, 0x00FF0000#32), (0x50011D04, 0x00FF0000#32),
   (0x50011E04, 0x00FF0000#32), (0x50011F04, 0x00FF0000#32), (0x50020004, 0x00000018#32)]

/-- Reset values, part 12 (the Reset columns of the register tables). -/
def resetRegs12 : List (Nat × BitVec 32) :=
  [(0x50020008, 0x0000000C#32), (0xE0000000, 0x00000700#32), (0xE0000004, 0x00000001#32),
   (0xE0000100, 0x00000100#32), (0xF0000104, 0x00000004#32), (0x140008100, 0x00000020#32)]

/-- The register file at power-on reset: every register whose reset value is not 0 (R11). A value that the table gives
as image, boot, by scan or by strap is 0 here until it is written. -/
def resetRegs : List (Nat × BitVec 32) :=
  resetRegs0 ++ resetRegs1 ++ resetRegs2 ++ resetRegs3 ++ resetRegs4 ++ resetRegs5 ++ resetRegs6 ++ resetRegs7 ++ resetRegs8 ++ resetRegs9 ++ resetRegs10 ++ resetRegs11 ++ resetRegs12

end Sys2Proof.Machine
end

