-- ==== Sys2Proof/Machine/Store.lean ====
section
/-! DEFINITION. The sparse store of the register file and of the memories: a list of (address, value) pairs in ONE
canonical form, addresses strictly rising and no entry equal to what an unlisted address reads as. -/
namespace Sys2Proof.Machine

/-- A sparse store of `w`-bit cells. -/
abbrev Store (w : Nat) := List (Nat × BitVec w)

/-- The cell at `a`; `dflt a` where nothing is listed. -/
def Store.get {w : Nat} (dflt : Nat → BitVec w) : Store w → Nat → BitVec w
  | [], a => dflt a
  | (k, v) :: t, a => if a = k then v else Store.get dflt t a

/-- List `v` at `a` before the first higher address. -/
def Store.insert {w : Nat} : Store w → Nat → BitVec w → Store w
  | [], a, v => [(a, v)]
  | (k, u) :: t, a, v => if a < k then (a, v) :: (k, u) :: t else (k, u) :: Store.insert t a v

/-- Put `v` at `a`, keeping the canonical form. -/
def Store.set {w : Nat} (dflt : Nat → BitVec w) (m : Store w) (a : Nat) (v : BitVec w) : Store w :=
  let rest := m.filter fun c => c.1 != a
  if v = dflt a then rest else Store.insert rest a v

/-- Every listed address is above `a`, they rise strictly, and no entry is a default. -/
def Store.wfFrom {w : Nat} (dflt : Nat → BitVec w) : Option Nat → Store w → Bool
  | _, [] => true
  | lo, (k, v) :: t =>
    (match lo with
     | none => true
     | some a => decide (a < k)) && v != dflt k && Store.wfFrom dflt (some k) t

/-- The canonical form holds. -/
def Store.wf {w : Nat} (dflt : Nat → BitVec w) (m : Store w) : Bool := Store.wfFrom dflt none m

/-- What a register address reads as where nothing is listed: 0. -/
def regDflt (_ : Nat) : BitVec 32 := 0

/-- The register file: bus address to value (R11). -/
abbrev RegFile := Store 32

/-- What a byte of an addressed memory reads as where nothing has been written: 0xFF in the flash banks (an erased cell,
R438), 0 elsewhere: an unprogrammed fuse or OTP bit reads 0 (R453), the RAM after power-on is assumption 3. -/
def memDflt (a : Nat) : BitVec 8 := if 0x08000000 ≤ a ∧ a < 0x08400000 then 0xFF else 0

/-- The addressed memories of the device. A key below 2^32 is a bus address (cell 0 of a plane byte, core A's private
scratch); key `a + 2^32` is core B's private scratch byte `a`; keys `a + 2^33` and `a + 2^34` are cells 1 and 2 of
plane byte `a` (R224). -/
abbrev Mem := Store 8

/-- Read one byte of memory. -/
def Mem.read (m : Mem) (a : Nat) : Nat := (Store.get memDflt m a).toNat

/-- Write one byte of memory. -/
def Mem.write (m : Mem) (a v : Nat) : Mem := Store.set memDflt m a (BitVec.ofNat 8 v)

/-- The memory is in its canonical form. -/
def Mem.wf (m : Mem) : Bool := Store.wf memDflt m

/-- The bitwise majority of three cells (R224). -/
def majority (a b c : Nat) : Nat := (a &&& b) ||| (a &&& c) ||| (b &&& c)

/-- A plane byte as a read returns it: the majority of its three cells (R224). -/
def Mem.readPlane (m : Mem) (a : Nat) : Nat :=
  majority (m.read a) (m.read (a + 2 ^ 33)) (m.read (a + 2 ^ 34))

/-- Write a plane byte in all three cells (R224). -/
def Mem.writePlane (m : Mem) (a v : Nat) : Mem :=
  ((m.write a v).write (a + 2 ^ 33) v).write (a + 2 ^ 34) v

/-- Read `n` little-endian bytes from `a`. -/
def Mem.readN (m : Mem) : Nat → Nat → Nat
  | 0, _ => 0
  | n + 1, a => m.read a + 256 * Mem.readN m n (a + 1)

/-- Write `n` little-endian bytes of `v` from `a`. -/
def Mem.writeN (m : Mem) : Nat → Nat → Nat → Mem
  | 0, _, _ => m
  | n + 1, a, v => Mem.writeN (m.write a v) n (a + 1) (v / 256)

/-- Write a list of bytes from `a` upwards. -/
def Mem.writeBytes (m : Mem) : Nat → List Nat → Mem
  | _, [] => m
  | a, b :: t => Mem.writeBytes (m.write a b) (a + 1) t

/-- The `n` bytes from `a` upwards. -/
def Mem.bytes (m : Mem) (n a : Nat) : List Nat := (List.range n).map fun i => m.read (a + i)

/-- The `n` plane bytes from `a` upwards, as reads return them (R224). -/
def Mem.planeBytes (m : Mem) (n a : Nat) : List Nat := (List.range n).map fun i => m.readPlane (a + i)

/-- Fill `n` bytes from `a` with `v`. -/
def Mem.fill (m : Mem) (v : Nat) : Nat → Nat → Mem
  | 0, _ => m
  | n + 1, a => Mem.fill (m.write a v) v n (a + 1)

/-- The memory without every entry whose key satisfies `p`: those bytes read as unwritten again. -/
def Mem.drop (m : Mem) (p : Nat → Bool) : Mem := m.filter fun c => !p c.1

end Sys2Proof.Machine
end

