-- ==== Sys2Proof/Machine/State.lean ====
section
/-! DEFINITION. The state of one SK7216: plain data. `regs` is the one home of every architectural register, keyed by
bus address; the structures hold what the spec gives the machine beside its registers. Each field cites its rule;
INVENTORY.md lists them all with their reset values. -/
namespace Sys2Proof.Machine

/-- Where a rail stands in its life (R59, R85, R168, R214). -/
inductive RailPhase where
  | idle        -- not enabled
  | tonDelay    -- step 1 of R59
  | prebias     -- step 2 of R59
  | armed       -- a member of a spanning rail waiting for BT0 (R214)
  | running     -- the loop graph runs, the controlled ramp of R169 included
  | discharge   -- fast discharge (R168)
  deriving DecidableEq, Repr, Inhabited

/-- The states of a level-2 node (R66, R68, R69): input history (x[m-1], x[m-2], x[m-3]), the s40 states and the held
output. -/
structure NodeSt where
  hist : List Int := []
  st : List Int := []
  y : Int := 0
  deriving DecidableEq, Repr, Inhabited

/-- The loop graph's own state of one rail (R54, R56, R64, R71-R75, R80). -/
structure LoopSt where
  vslew : Nat := 0            -- u32, 16 fraction bits (R54)
  filt : Int := 0             -- IF, s40 (R56)
  it : Int := 0               -- IT of the latest decision (R56, R211)
  ls : Int := 0               -- IS of the latest decision (R67)
  err : Int := 0              -- e of the latest decision (R50)
  vrefPipe : List Nat := []   -- VREF formed by the latest seven decisions, oldest first (R57, R80)
  biasPipe : List Int := []   -- HMBIAS of the same decisions (R164)
  index : Nat := 0            -- decision index (R75)
  accE : Int := 0             -- sums of e and IS over the decisions since the previous level-2 update, and their number
  accI : Int := 0
  accN : Nat := 0
  preN : Nat := 0             -- samples of the pre-bias measurement taken (R59)
  vpre : Option Int := none   -- VPRE of the first window that has qualified (R59)
  skip : Nat := 0             -- decisions before the first switching one, whose samples are not used (R59)
  pgFrom : Option Nat := none -- cycle since which every sample is within 8 × PG_WIN, counted from the end of the ramp (R61)
  ish : Int := 0              -- the share command of the latest decision (R49, R76)
  n0 : NodeSt := {}
  n1 : NodeSt := {}
  cbal : Bool := false        -- charge-balance mode (R71)
  delta : Int := 0            -- blend offset (R72)
  cbalY : Int := 0            -- CBAL output of the previous decision
  limY : Int := 0             -- LIMIT output of the previous decision (R73)
  kn : Nat := 0               -- KN (R76)
  n : Nat := 0                -- N, the active count of R76
  deriving DecidableEq, Repr, Inhabited

/-- The transient engine of one rail (R94-R103). -/
structure TeSt where
  u : Int := 0                -- undelivered current U
  rate : Int := 1             -- RATE
  quiet : Nat := 0
  first : Bool := false
  h : Int := 0                -- handoff term H
  vHist : List Int := []      -- v of the latest eight decisions, newest first (R94)
  lde : List Int := []        -- LDE of the latest sixteen decisions, newest first (R125)
  upSeen : Bool := false      -- an up slope condition held in the previous decision (CONFIRM)
  dnSeen : Bool := false
  ds : Int := 0               -- the latest slope current (R95)
  rvd : Nat := 0              -- RVD (R100)
  rvo : Nat := 0              -- RVO (R100)
  evStart : Nat := 0          -- hold edge of the detecting decision (R125)
  evLde : Int := 0            -- LDE at the start of the event (R125)
  evLast : Option Nat := none -- time of the event's last placement
  learn : Bool := false       -- the event is one that R125 learns from
  placed : Bool := false      -- this decision has made a placement (no decay of H, R103)
  deriving DecidableEq, Repr, Inhabited

/-- Sequencer, guard and calibration state of one rail (R148-R179). -/
structure SeqSt where
  plan : List Nat := []       -- slice holding local position j (R148)
  planIdx : List Nat := []    -- rail-wide plan position of local position j (R243)
  spares : List Nat := []     -- the spare list (R141)
  vacSeen : List Nat := []    -- positions already reported vacant (R160)
  shedCnt : Nat := 0          -- R153
  ievalSum : Int := 0         -- R151
  ievalN : Nat := 0
  bEdge : Nat := 0            -- edge code of the next boundary (R212)
  tsw : Nat := 0              -- TSW in force (R147)
  ovCnt : Nat := 0            -- R164
  uvCnt : Nat := 0
  cause : Nat := 0            -- cause of the shutdown in progress, 0 none (R166)
  pend : List Nat := []       -- causes that arose outside a decision (R167)
  shutAt : Nat := 0           -- cycle in which the shutdown started
  fast : Bool := false        -- fast discharge in progress or due (R168)
  ramp : Bool := false        -- the shutdown in progress began as a controlled ramp (R166, R170)
  okCnt : Nat := 0            -- consecutive decisions with e at or above 0 (R168)
  tvin : Nat := 0             -- consecutive VINS samples below VIN_MIN (R166)
  rev : List Nat := []        -- the predictions whose reversal shed is due at the next boundary, by their numbers (R121, R154)
  calCur : Option Nat := none -- slice in rotating calibration (R172)
  calLast : Nat := 31         -- slice calibrated last (R172)
  calEnd : Nat := 0           -- cycle from which CAL_INT counts (R172)
  swapTo : Option Nat := none -- target plane of a waiting swap (R250)
  absent : Bool := true       -- the active plane holds no TOPOLOGY of the rail
  deriving DecidableEq, Repr, Inhabited

/-- One rail. -/
structure RailSt where
  phase : RailPhase := .idle
  lp : LoopSt := {}
  te : TeSt := {}
  sq : SeqSt := {}
  wait : Option (List (Nat × Nat)) := none   -- expert set of a waiting commit: (register offset, value) (R90)
  xset : List Nat := []                      -- offsets whose in-force value is a committed expert value (R17, R92)
  loaded : Bool := false                     -- image values have been loaded (R87)
  basic : List (Nat × Nat) := []             -- expert offsets that a basic write has set since the image, and the value (R92)
  startAt : Nat := 0                         -- cycle in which the start was accepted (R59)
  deriving DecidableEq, Repr, Inhabited

/-- Calibration state of one slice (R172-R179). -/
structure CalSt where
  win : List Int := []        -- the latest raw codes, newest first, at most 16 (ZERO condition)
  ofsN : Nat := 0             -- codes averaged so far (OFFSET)
  ofsSum : Int := 0
  ofsMin : Int := 0
  ofsMax : Int := 0
  ofs : Int := 0              -- OFS'
  pulses : Nat := 0           -- pulses made
  h0 : Nat := 0               -- hold edge (cycle) of the pulse in progress
  pulsing : Bool := false     -- the pulse drives HIGH
  taking : Bool := false      -- samples of the pulse are still to come
  i0 : Int := 0
  i1 : Int := 0
  a : Int := 0
  b : Int := 0
  z : Int := 0
  v : Int := 0
  since : Nat := 0            -- cycle in which the present wait for ZERO began
  ret : Bool := false         -- PASS, waiting to return at the next boundary (R177)
  abort : Bool := false       -- aborted, waiting for ZERO to return (R177)
  pos : Option Nat := none    -- local position to take back when it returns (R173, R177)
  readmit : Bool := false     -- the calibration is a readmission (R179)
  passed : Bool := false      -- readmission passed, waiting for the boundary (R160, R179)
  now : Bool := false         -- CAL_NOW pending (R172)
  lq : Nat := 0               -- lq and dcr of the result
  dcr : Nat := 0
  deriving DecidableEq, Repr, Inhabited

/-- Background open-wire pair of one input (R269). -/
structure BgSt where
  seen : Nat := 0             -- the slice's role and state when the sequence started
  j : Nat := 0                -- pair number
  second : Bool := false      -- in the second period of the pair
  run : Nat := 0              -- consecutive open pairs
  isVoid : Bool := false
  sp : Int := 0
  np : Nat := 0
  sn : Int := 0
  nn : Nat := 0
  deriving DecidableEq, Repr, Inhabited

/-- One slice sequencer (R141-R159). Role, state, level, rail, position and calibration step are SLICE_STAT's. -/
structure SliceSt where
  on : Bool := false          -- an on-time is in progress
  regular : Bool := false     -- it began at a period start (R145)
  onAt : Nat := 0             -- its on-edge, edge code
  base : Nat := 0             -- ton of R77, raised by R145, of the period
  tx : Nat := 0               -- extension of R101 in this on-time
  fOff : Nat := 0             -- forced off-edge of a placed pulse, 0 none (R101)
  used : Nat := 0             -- on-time already spent in this period
  perAt : Nat := 0            -- start of the period in progress, whatever a new offset makes of nextAt (R145, R149)
  upNew : Bool := false       -- an UP placement has acted on it since the latest D4 (R101)
  nextAt : Nat := 0           -- next own period start
  edgeAt : Nat := 0           -- edge code of the latest edge emitted
  off : Nat := 0              -- OFF_j
  rank : Nat := 0             -- j, its position in the active set (R148)
  whUntil : Nat := 0          -- end of the withheld interval, 0 none (R102)
  leaving : Bool := false     -- left the active set; tri-state once its on-time ends (R149)
  iSum : Int := 0             -- own-period average (R78)
  iN : Nat := 0
  avg : Int := 0
  hasAvg : Bool := false      -- it has completed a period as an active slice (R78)
  run : Bool := false         -- a period of its own is in progress (R78)
  hold : Bool := false        -- R156 holds the balance term in this period
  ocCnt : Nat := 0
  convCnt : Nat := 0
  imbCnt : Nat := 0
  attrCnt : Nat := 0
  i : Int := 0                -- latest I (R48)
  x : Int := 0                -- latest converter code, for the open-wire tests (R266)
  inv : Bool := false         -- latest INV tag
  ovr : Bool := false
  disTri : Bool := false      -- tri-stated by the IDIS rule of R168
  mark : Option Nat := none   -- prediction mark: the number of the prediction it was added for (R154)
  isinv : Bool := false       -- SLICECFG.ISINV in force (R234)
  present : Bool := false     -- SLICECFG.PRESENT in force (R234)
  cal : CalSt := {}
  bg : BgSt := {}
  xset : Bool := false        -- OFS, LQ or DCR in force came from an expert write (R187)
  wait : Nat := 0             -- expert trims that wait for the boundary: 1 OFS, 2 KI, 4 LQ and DCR (R186)
  deriving DecidableEq, Repr, Inhabited

/-- One cluster (R158, R185, R258). -/
structure ClusterSt where
  winEnd : Nat := 0           -- cycle in which the attribution window closes, 0 closed
  attr : Bool := false        -- a slice was attributed in this window
  refBad : Bool := false      -- reference fault (R258)
  seen : Bool := false        -- a TEMP sample has come since reset
  deriving DecidableEq, Repr, Inhabited

/-- A Hawkmoth prediction (R115). -/
structure Pred where
  down : Bool
  mr : Int
  ts : Nat
  rise : Nat
  src : Nat
  key : Nat := 0              -- ENGINE and TOKEN of a signature prediction (R127)
  id : Nat := 0               -- its number, which the marks of R154 carry
  tBias : Nat := 0            -- the HMRAIL expert values latched on becoming ACTIVE
  tFire : Nat := 0
  wLate : Nat := 0
  pbMax : Nat := 0
  biasStep : Nat := 1
  kpb : Nat := 0
  preFrac : Nat := 0
  hitFrac : Nat := 1
  armed : Bool := true        -- arms the engine (R117)
  biasOn : Bool := false      -- HMBIAS is governed by this prediction's bias rule
  j0 : Nat := 0               -- segments placed or passed
  ps : Int := 0               -- sum of their amounts (R118)
  opp : Nat := 0              -- opposite placements made since its schedule started (R121)
  resized : Option (Nat × Int) := none  -- segments and amount left at the last merge: (j0, RM)
  lde0 : Option Int := none
  tsp : Option Nat := none    -- hold edge at half the hit fraction (R125)
  lastPl : Option Nat := none -- time of the last segment or top-up placed before W_END (R125)
  hit : Bool := false
  missed : Bool := false
  closed : Bool := false      -- the learning event of its hit has been formed
  cancelled : Bool := false   -- its schedule is cancelled (R121)
  deriving DecidableEq, Repr, Inhabited

/-- A pending observation of a token (R123). -/
structure Obs where
  engine : Nat
  token : Nat
  time : Nat
  win : Nat := 0              -- XTIME.WIN as it stood when the token was observed (R139)
  deriving DecidableEq, Repr, Inhabited

/-- Hawkmoth's state for one rail (R115-R128). -/
structure HmRailSt where
  act : Option Pred := none
  next : Option Pred := none
  hmb : Int := 0              -- HMBIAS
  revStep : Int := 0          -- step of a reversal's return to 0, 0 none (R121)
  revCause : Bool := false    -- ACTIVE is to be reversed in the next decision (R121)
  revOld : List Pred := []    -- predictions no longer ACTIVE that are to be reversed in the next decision
  hits : List Pred := []      -- predictions no longer ACTIVE that have hit and whose W_END has not come (R125)
  acts : Nat := 0             -- predictions that have become ACTIVE, modulo 2^16, for the capture trigger of R273
  obs : List Obs := []        -- oldest first, at most 4
  sig : List (BitVec 32 × BitVec 32) := []  -- 64 entries as R140 lays them out; [] stands for all invalid
  wrAt : Option (Nat × Nat) := none  -- cycle and entry of the latest write by HM_SIGSEL (R126)
  -- (TSP, last placement, LDE change, down) of the events that ended and are to be learned, oldest first (R125)
  ev : List (Nat × Option Nat × Int × Bool) := []
  ageAt : Nat := 0            -- HmSt.cyc at the latest age tick (R127)
  deriving DecidableEq, Repr, Inhabited

/-- What POST or RELAY of a stitch engine hands to Hawkmoth (R485). -/
structure Handed where
  at_ : Nat                   -- the HM_TIME at which it is delivered
  engine : Nat
  frame : Bool                -- the 40-bit frame of RELAY; else the token of POST
  val : Nat
  deriving DecidableEq, Repr, Inhabited

/-- The intent port and Hawkmoth (R107-R113). -/
structure HmSt where
  xwritten : Nat := 0         -- bit n: HMRAILn holds an expert value (R136)
  cyc : Nat := 0              -- cycles that HM_TIME has counted since reset, without its modulus (R127)
  edgeAt : Option Nat := none            -- cycle of the port's latest edge, of its start or of its becoming stuck; none: idle
                                         -- for long (R107, R112)
  longOpen : Bool := false               -- the latest edges are those of a whole frame that is not LONG yet (R111)
  longAt : Option Nat := none            -- cycle of an edge that may follow edge 19 of a frame not accepted yet (R111)
  handed : List Handed := []             -- what stitch engines have handed over and is on its way, oldest first (R485)
  relays : List (Nat × Nat) := []        -- relayed frames on their way to acceptance: (TE, frame), oldest first (R113)
  matchAt : Option Nat := none           -- cycle in which the latest frame with a TAG of a rail was accepted (R310)
  rails : Vector HmRailSt 8 := .replicate 8 {}
  deriving DecidableEq, Repr, Inhabited
/-- One receive lane: its counters toward R190 and R204, its latest shares (R203) and its message streams (R205). Lane 0
is the clockwise stream, received on the upstream port; lane 1 is received on the downstream port. -/
structure LaneSt where
  good : Nat := 0             -- consecutive valid cells
  bad : Nat := 0              -- consecutive cells that were not valid
  late : Nat := 0             -- consecutive late cells (R204)
  share : List Nat := []      -- SHARE0 and SHARE1 of the latest valid cell
  seenAt : Nat := 0           -- cycle of the latest cell (R203)
  okAt : Nat := 0             -- cycle of the latest valid cell (R190, R203)
  upAt : Nat := 0             -- cycle of the latest entry to RUN (R209)
  mendAt : Nat := 0           -- cycle of the latest return from FAILED to RUN (R193)
  nbrOk : Bool := false       -- a training cell has reported the neighbour's position (R209)
  rx : List (List Nat) := []  -- nibbles of the message in progress of each owner's stream: 16 positions, 2 leads (R205)
  tx : List Nat := []         -- nibbles this device still has to send on this lane as general owner
  txLead : Vector (List Nat) 2 := .replicate 2 []   -- and as lead of each span channel (R200)
  txTyp : Vector Nat 2 := .replicate 2 0     -- type of the message whose nibbles leave in the slots of each channel's lead
  xSent : Vector Nat 2 := .replicate 2 0     -- SPAN_XFER messages of the channel's command that have left on this lane (R221)
  sentNo : Option Nat := none -- number of the latest cell sent on this lane's output
  out : Nat := 0              -- the latest cell sent on this lane's output
  deriving DecidableEq, Repr, Inhabited

/-- One span channel (R210-R221). Role, state, rail, lead and deputy are CHAIN_SPANc_STAT's, members and NR
CHAIN_SPANc_MEMB's, S and its lane CHAIN_SPANc_SHARE's. -/
structure SpanSt where
  used : Bool := false        -- a SPAN section in force names the channel
  s : Int := 0                -- the latest share received
  missRun : Nat := 0          -- consecutive cell periods without a share (R216)
  gotRun : Nat := 0           -- consecutive cell periods with a share
  icmd0 : Int := 0            -- ICMD_L0 (R216)
  sl : Int := 0               -- SL (R216)
  lastAuto : Int := 0         -- the ish of the latest decision in AUTO (R217)
  autoAt : Nat := 0           -- RT at which AUTO was entered (R217)
  noneSeen : Bool := false    -- the shares last received were NONE or absent on both lanes (R217)
  shut : Bool := false        -- this device writes SHUT (R218)
  plan : List Nat := []       -- PLAN: ring position staffing each rail-wide plan position (R243)
  planImg : List Nat := []    -- PLAN as the image gives it (R220)
  bt0 : Option Nat := none    -- BT0, RT, once known (R212)
  e : Nat := 0                -- E_k of the next boundary, edge codes modulo 2^37 (R212)
  k : Nat := 0                -- index of the next boundary
  -- announced NR changes: (boundary index, NR, what a boundary pre-add adds) (R213): the lowest plan position it adds and the
  -- number of its prediction, none without a pre-add (R151, R154)
  nrPlan : List (Nat × Nat × Option (Nat × Nat)) := []
  revAt : List Nat := []      -- boundary indices at which a reversal of the lead sheds (R154, R213)
  nrDue : List (Nat × Option (Nat × Nat)) := []  -- NR changes received after their cut, due at the next boundary
  marks : List (Nat × Nat × Nat) := []   -- rail-wide plan positions a pre-add has added: first, one past the last, prediction
  xfers : List (Nat × Nat × Nat × Nat) := [] -- (boundary index, from, to, plan position) (R219)
  ready : List (Nat × Nat × Bool × Nat) := [] -- latest SPAN_READY: (position, FREE, armed, staffed)
  target : List (Nat × Nat) := []        -- (VTARGET, RT) of the targets that wait, oldest first (R214)
  vpre : Option Int := none   -- VPRE of SPAN_START
  shutFrom : Option (Nat × Nat) := none  -- (cause, sender) of the latest SPAN_CAUSE
  cmd : Nat := 0              -- command running: 0 none, 1 WITHDRAW, 2 ADMIT, 3 MOVE_LEAD
  cmdPos : Nat := 0
  cmdBound : Nat := 0         -- boundary index named by the transfers
  freeSent : Option Nat := none          -- FREE as the latest SPAN_READY of this device gave it (R206)
  readyAt : Nat := 0          -- cycle of that report
  targetAt : Nat := 0         -- cycle of the latest SPAN_TARGET of an admission (R220)
  -- what a device that does not know BT0 has heard of NR: (cycle, low bits of the boundary index, NR) (R213, R220)
  heard : List (Nat × Nat × Nat) := []
  deriving DecidableEq, Repr, Inhabited

/-- The Trintanis ports (R189-R209). -/
structure ChainSt where
  lanes : Vector LaneSt 2 := .replicate 2 {}
  spans : Vector SpanSt 2 := .replicate 2 {}
  holdCyc : Nat := 0          -- cycles of holdover, of which CHAIN_HOLD shows µs (R196)
  -- messages whose second copy is still to come: (stream, lane of the first, contents) (R205)
  copies : List (Nat × Nat × Nat) := []
  rtSet : Bool := false       -- RT has been taken from the root (R197)
  rtAt : Nat := 0             -- cycle of its latest correction
  rtErr : Int := 0            -- cycles by which RT is still to be corrected (R197)
  rtNext : Option (Nat × Nat) := none    -- lane of the RT_SET and RT it names for the next superframe 0
  rtSent : Nat := 0           -- root: number of the latest 256 superframes in which RT_SET was sent, plus 1 (R206)
  cntHi : Nat := 0            -- high nibble of the superframe count received in cell 0 (R200)
  pllOk : Bool := false       -- the PLL has locked since reset (R192)
  lockAt : Nat := 0           -- cycle of its latest lock (R193)
  enumPhase : Nat := 0        -- root: 0 none, 1 lane 0 out, 2 DONE broadcast, 3 reversed, 4 DONE on the reversed path
  enumCells : Nat := 0        -- control cells still to send
  enumM : Nat := 0
  enumOk : Bool := false      -- the latest enumeration ended with DONE (MV of R206)
  enumBad : Bool := false     -- an enable whose image spans devices is refused (R208)
  enumSeen : Bool := false    -- an enumeration passes whose DONE has not come yet (R207)
  sized : Bool := false       -- the wait for a position has ended (R209)
  enumAt : Option Nat := none -- cycle in which the latest enumeration of the root was started or seen (R310)
  deriving DecidableEq, Repr, Inhabited

/-- Configuration state beside the CFG registers (R224-R250). -/
structure CfgSt where
  queue : List Nat := []      -- waiting requests, by their SOURCE code (R245, R256)
  fabAt : Nat := 0            -- cycle of the latest fabric-enable request (R301)
  qPlane : List (Nat × Nat × Nat) := []  -- (SOURCE, plane, rail) of a waiting swap or dry run
  devTo : Option Nat := none  -- target plane of an incomplete device swap
  swapOpen : Bool := false    -- a swap has not completed on every owner
  scrubPos : Nat := 0         -- next word of the scrubber: even words plane A, odd plane B (R225)
  scrubAt : Nat := 0          -- cycle from which it may visit that word
  changed : Nat := 0          -- owners whose sections changed their in-force state in this pass: bit n rail n, bit 8 the
                              -- device (R226)
  gpcfg : List Nat := []      -- GPCFG bytes in force (R234)
  vinsScale : Nat := 0        -- VINS_SCALE in force
  enpin : Nat := 0            -- ENPIN byte in force
  bankv : Nat := 0
  pinmap : Bool := false      -- a PINMAP is in force
  deriving DecidableEq, Repr, Inhabited

/-- One accumulator unit (R260-R265). -/
structure UnitSt where
  acc : Int := 0
  tags : Nat := 0
  n : Nat := 0
  wmin : Int := 0             -- running window extremes
  wmax : Int := 0
  wblk : Nat := 0             -- blocks of the window completed
  opened : Bool := false      -- the window holds a sample
  pMin : Nat := 0             -- published WMIN, WMAX and STAT, before the read shadow (R264)
  pMax : Nat := 0
  pStat : Nat := 0x02000000
  expert : Bool := false      -- routing in force came from XROUTE (R265)
  own : Nat := 0              -- routing to take again when a long operation releases the unit
  deriving DecidableEq, Repr, Inhabited

/-- The static open-wire test (R267, R268). -/
structure OwSt where
  running : Bool := false
  kind : Nat := 0
  index : Nat := 0
  n : Nat := 0                -- samples taken so far, 64 to a phase
  sum : Int := 0              -- of the last 32 of the phase
  sat : Nat := 0              -- of them saturated
  means : List Int := []      -- P+, P-, N+, N-
  allSat : Bool := false
  readmit : Bool := false     -- started by R179
  waiting : List Nat := []    -- readmitted slices that wait for the test in progress
  deriving DecidableEq, Repr, Inhabited

/-- The long operation (R271-R277). -/
structure LopSt where
  op : Nat := 0               -- 0 none running
  rail : Nat := 0
  c0 : Nat := 0               -- LOPCFG0-2 latched at the start
  c1 : Nat := 0
  c2 : Nat := 0
  startAt : Nat := 0
  acts0 : Nat := 0            -- HmRailSt.acts at the start
  ring : List (List Nat) := [] -- records kept before the trigger, newest first, at most 63
  trig : Bool := false
  idx : Int := 0              -- relative index of the next record
  blkN : Nat := 0             -- decisions in the block in progress
  blkFirst : Nat := 0
  blkFlags : Nat := 0
  point : Nat := 0            -- sweep point
  pinc : Nat := 0
  phi : Nat := 0
  wraps : Nat := 0
  nm : Nat := 0
  svc : Int := 0
  svs : Int := 0
  sic : Int := 0
  sis : Int := 0
  flags : Nat := 0
  next : Nat := 0             -- lowest slice number a pass has still to visit (R277)
  cur : Option Nat := none    -- slice of the pass in CAL
  waitAt : Nat := 0           -- cycle from which WAIT counts
  deriving DecidableEq, Repr, Inhabited

/-- The accumulators, the open-wire tests and the long operation. -/
structure AccumSt where
  units : Vector UnitSt 64 := .replicate 64 {}
  ow : OwSt := {}
  routes : List (Nat × Nat) := [] -- (SOURCE, unit) of every unit whose routing in force has EN 1, kept by setRoute
  bgRail : Vector BgSt 8 := .replicate 8 {}
  lop : LopSt := {}
  refVisit : Nat := 0         -- visits of housekeeping channel 23 (R257)
  hk : Vector Nat 24 := .replicate 24 0   -- latest code of every housekeeping channel
  deriving DecidableEq, Repr, Inhabited

/-- A log entry before it has a slot (R280). -/
structure LogEnt where
  cls : Nat
  typ : Nat
  src : Nat
  rt : Nat
  epoch : Nat
  data : List Nat
  inc : Nat := 0              -- number of the incident open at its arrival, 0 none; its group's key (R283)
  cyc : Nat := 0              -- the CCLK cycle of its arrival (R289)
  deriving DecidableEq, Repr, Inhabited

/-- What the log keeps of a slot that holds an entry, beside the 32 bytes in the log RAM (R283-R288). -/
structure SlotSt where
  slot : Nat
  seq : Nat
  cls : Nat
  typ : Nat
  src : Nat
  read : Bool := false
  group : Option Nat := none  -- key of its freeze group
  coal : Option Nat := none   -- coalescing period in which the coalesced record was created
  deriving DecidableEq, Repr, Inhabited

/-- The incident log (R280-R290). -/
structure LogSt where
  slots : List SlotSt := []   -- slots that hold an entry, in slot order
  intake : List LogEnt := []  -- the intake queue, oldest first, at most 64
  pinCore : Option Nat := none
  pinHost : Option Nat := none
  -- freeze groups held: (key, its incident has closed, entries frozen); the key is the incident's number, with multiples
  -- of 65,536 added once that number can be used again (R283, R290)
  groups : List (Nat × Bool × Nat) := []
  quietAt : Nat := 0          -- cycle of the latest class-0 or class-1 arrival
  period : Nat := 0           -- number of the coalescing period
  spill : List LogEnt := []   -- spill buffer, at most 8, oldest first
  spillSeq : List Nat := []   -- SEQ of each spilled entry
  deriving DecidableEq, Repr, Inhabited
/-- The answer of the latest bus access: the data a read returned, and the bus-error syndrome of R36 to R38 and R341, 0
none. -/
structure BusSt where
  data : Nat := 0
  err : Nat := 0
  deriving DecidableEq, Repr, Inhabited

/-- One stitch engine beside its registers (R470-R484). PC, state and the handshake bits are STITCHe_STAT's; SOUT, SIN, the
counts, the counters, LATCH, DIRS, the shift configuration and the instruction in progress are the registers' of R486. -/
structure EngSt where
  prog : List Nat := []       -- the 32 words copied at its latest start; [] before the first
  fl : Nat := 0               -- F0 to F3, bit k for Fk
  setAt : Nat := 0            -- the cycle in which the flags of setFl were set (R482)
  setFl : Nat := 0            -- flags set in that cycle, bit k for Fk
  tickAt : Nat := 0           -- the cycle of its next tick, or of a tick before which none was given (R473)
  seen : Nat := 0             -- 0 no tick since its start; 1 STITCHe_PINS.IN is the sample of the tick before tickAt; 2 it is not
  hist : List (Nat × Nat × Nat) := []    -- LATCH and DIRS since the tick in a cycle, latest first (R472)
  busy : Bool := false        -- STITCHe_CUR holds an instruction in progress
  low : Bool := false         -- clock mode 3: the first tick of the step in progress has passed (R479)
  left : Nat := 0             -- WAITT: ticks left
  inj : Option (Nat × Bool) := none      -- injection that waits: word and FORCE (R483)
  deriving DecidableEq, Repr, Inhabited

/-- A start group (R474). -/
structure StartGrp where
  no : Nat                    -- its number; the latest group's is StitchSt.asked
  members : Nat               -- mask of its engines
  todo : List Nat             -- engines still to be checked
  bad : Nat := 0              -- engines refused
  stat : Nat := 0             -- CFG_GSTAT of the latest refusal among them (R474)
  restart : Nat := 0          -- RESTART mask of the same STITCH_SYNC write (R475)
  deriving DecidableEq, Repr, Inhabited

/-- The stitch engines (R470-R485). -/
structure StitchSt where
  engs : Vector EngSt 8 := .replicate 8 {}
  groups : List StartGrp := []           -- groups whose start is still to come, oldest first
  asked : Nat := 0            -- groups requested since reset
  deriving DecidableEq, Repr, Inhabited

/-- Modes, resets, sleep and the battery domain beside their registers (R295-R325). -/
structure ModeSt where
  dormant : Bool := false     -- power-on reset is asserted: DORMANT (R295)
  due : Option Nat := none    -- cause of a SYS reset that waits for the end of the shutdowns (R304, R306)
  nLow : Bool := false        -- RESET_N is low (R306)
  warned : Nat := 0           -- cause code of the latest brown-out warning, 0 none since the latest reset (R305)
  sleep : Nat := 0            -- 0 timers run, 1 asleep before S0, 2 stopped since S0, 3 awake before S1 (R309-R311)
  s0 : Nat := 0               -- slow-edge count at S0
  gates : Nat := 0            -- bit t: the gate of timer t was open at S0 (R314)
  wakeAt : Option (Nat × Nat) := none    -- wake comparator: slow-edge count and timer (R315)
  edges : Nat := 0            -- slow edges counted
  good : Nat := 0             -- consecutive good edges of the slow clock (R316)
  phase : Nat := 0            -- cycles into the slow period, in units of 1/32768 s ÷ 400e6
  wdog : Nat := 0             -- slow periods counted by the watchdog (R325)
  timeHi : Nat := 0           -- held write of BD_TIME_HI (R322)
  alarmHi : Nat := 0          -- held write of BD_ALARM_HI
  timeLoad : Option Nat := none          -- BD_TIME to load at the next slow edge
  alarmLoad : Option Nat := none         -- BD_ALARM to load at the next slow edge
  timeSh : Nat := 0           -- read shadow of BD_TIME_HI
  alarmSh : Nat := 0          -- read shadow of BD_ALARM_HI
  sleepSh : Nat := 0          -- read shadow of BD_SLEEPT_HI
  srecSeq : Nat := 0          -- SEQ of the next shutdown-cause record (R319)
  lastSafe : Nat := 0         -- cause of the latest SAFE entry (R336)
  safeAt : Option Nat := none -- cycle of the latest SAFE entry (R301)
  sleepAt : Nat := 0          -- cycle in which the cores stopped for sleep (R301, R309)
  deriving DecidableEq, Repr, Inhabited


/-- One application core (R363, R366, R391, R410). LOCK, SPLIT, the fences, DBL and HALTED are CORE_STAT's. -/
structure CoreSt where
  g : Vector Word 16 := .replicate 16 0   -- g0 to g15
  pc : Word := 0
  psr : Word := 0
  tsbp : Word := 0
  ls : Vector Word 3 := .replicate 3 0    -- LS0 to LS2
  le : Vector Word 3 := .replicate 3 0    -- LE0 to LE2
  lc : Vector Word 3 := .replicate 3 0    -- LC0 to LC2
  atomMax : Word := 32
  cycHi : Word := 0           -- read shadow of CYCLE_HI (R366)
  instret : Word := 0
  run : Bool := true          -- it executes; false when it is out of service, parked or not yet started
  wfe : Bool := false         -- it waits in WFE (R392)
  halted : Bool := false      -- halted by R410
  debug : Bool := false       -- halted into core debug (R346, R392)
  banks : Nat := 0            -- SRAM banks its open window has accessed: bit b for bank b (R391)
  winAt : Nat := 0            -- CYCLE at which its latest window opened (R415)
  fresh : Bool := false       -- it has taken an event and not yet retired the first handler instruction (R413)
  deriving DecidableEq, Repr, Inhabited

/-- One access of the replay log (R418): a store, a load, or an MFS of CYCLE_LO or CYCLE_HI (size 0). -/
structure LogAcc where
  store : Bool
  addr : Nat
  size : Nat
  val : Nat
  deriving DecidableEq, Repr, Inhabited

/-- The core pair (R404-R425). -/
structure CpuSt where
  a : CoreSt := {}
  b : CoreSt := {}
  ckA : CoreSt := {}          -- checkpoint store of each core (R417)
  ckB : CoreSt := {}
  since : Nat := 0            -- instructions retired since the latest checkpoint
  undo : List (Nat × Nat) := []   -- undo log, newest first: word address and old word (R418)
  replayLog : List LogAcc := []   -- replay log, oldest first (R418)
  replay : Option (List LogAcc) := none  -- accesses still to be replayed (R419)
  ckDue : Bool := false       -- the checkpoint of a join waits for the close of a window (R417)
  misses : Nat := 0           -- mismatches since the latest checkpoint (R420)
  selfTest : Bool := false    -- the self-test of R420 runs
  bistPassed : Bool := false  -- a self-test since the latest checkpoint has passed on both cores
  parked : Bool := false      -- core A has parked (R422)
  joining : Bool := false     -- the state copy of JOIN runs (R422)
  splitAt : Nat := 0          -- cycle of the split
  bank : Nat := 0             -- T of the handover in progress
  cyc : Nat := 0              -- CCLK cycles since the latest SYS or power-on reset (R366)
  joinAt : Nat := 0           -- CYCLE at which JOIN was taken (R422)
  safeDue : Bool := false     -- the SAFE exception is due (R302, R404)
  swset : Nat := 0            -- software-raised events 120 to 127 (R427)
  brk : Nat := 0              -- imm7 of the latest BRK that halted into core debug (R392)
  deriving DecidableEq, Repr, Inhabited

/-- FLASHC and the error state of the memories (R434-R451). A RAM word stands by the memory key of its first byte, a
flash double word by the key of its first byte, a page by 32 × block + page. -/
structure FlashSt where
  op : Nat := 0               -- OP of the foreground command that runs, 0 none
  addr : Nat := 0             -- its address
  lvl : Nat := 0              -- level of an MREAD
  buf : List Nat := []        -- PBUF as copied at the acceptance of a PROGRAM (R443)
  fresh : Option Nat := none  -- cycle in which the erase that runs restarted after a suspension (R445)
  at_ : Nat := 0              -- cycle in which the command was accepted, or the pulses of an erase restart (R441, R445)
  done : Nat := 0             -- pulses of the erase before its latest restart (R445)
  noPulse : Bool := false     -- the PROGRAM that runs ends without a pulse: its page is not blank, or its block half erased (R441)
  fillAt : Option Nat := none -- cycle in which an MREAD has filled PBUF (R443)
  suspReq : Bool := false     -- a SUSPEND has been accepted (R445)
  incomplete : List Nat := [] -- blocks whose erase record has START set and END clear (R444)
  weak : List Nat := []       -- pages that are neither blank nor clean (R439)
  ce : List Nat := []         -- RAM words with a single-bit error (R434)
  ue : List Nat := []         -- RAM words with an uncorrectable error, the poisoned ones among them (R435, R436)
  fce : List Nat := []        -- flash double words with a single-bit error (R438)
  fue : List Nat := []        -- flash double words with an uncorrectable error
  scrub : Nat := 0            -- next word of the RAM scrubber (R437)
  scrubAt : Nat := 0          -- CYCLE of its latest read
  dt : List Nat := []         -- DT0 and DT1 of the factory calibration that is loaded, [] with none (R455, R456)
  deriving DecidableEq, Repr, Inhabited

/-- SECURE beside its registers (R330-R362). -/
structure SecSt where
  keys : Vector (List Nat) 8 := .replicate 8 []   -- the eight key slots: 32 bytes, or [] when empty (R339)
  op : Nat := 0               -- operation running, 0 none; its parameters are latched at its start
  src : Nat := 0
  len : Nat := 0
  dst : Nat := 0
  arg : Nat := 0
  at_ : Nat := 0              -- cycle in which it started
  fed : Bool := false         -- it has read what it reads at OPSRC at its start, no held bank being in the way (R391)
  input : List Nat := []      -- what it has read there, where fuses and OTP are programmed by it (R345, R361)
  armed : Bool := false       -- OPKEY holds 0x5EC7 (R359)
  sealTag : Vector (List Nat) 2 := .replicate 2 []  -- header tags of the seals of banks A and B (R335)
  tries : Nat := 0            -- DBG_TRIES, kept from power-on reset to power-on reset (R347)
  openAuth : Bool := false    -- an authenticated unlock since power-on reset (R346)
  debugged : Bool := false    -- a core-debug access since power-on reset (R346)
  tampers : Nat := 0          -- tamper detections since power-on reset (R356, R360)
  boots : Nat := 0            -- boots since power-on reset (R356)
  romAt : Nat := 0            -- cycle in which step 1 of the latest boot began (R334)
  romDone : Bool := false     -- the ROM has handed over, or the boot has ended (R341)
  jtagDrive : Option Nat := none   -- boundary-scan cells that a pin-driving JTAG instruction holds (R346, R556)
  deriving DecidableEq, Repr, Inhabited

/-- A DMA transfer in progress (R460): the next address of each side and the bytes left on it. -/
structure Move where
  sa : Nat := 0               -- next source address
  sn : Nat := 0               -- bytes left to read
  da : Nat := 0               -- next destination address
  dn : Nat := 0               -- bytes left to write
  funnel : List Nat := []     -- bytes read and not written, oldest first
  moved : List Nat := []      -- bytes written, latest first
  deriving DecidableEq, Repr, Inhabited

/-- One DMA channel beside its registers (R457-R464). -/
structure DmaSt where
  desc : List Nat := []       -- the words of the descriptor it has fetched
  move : Move := {}           -- its transfer, in state MOVE
  last : Bool := false        -- the channel served last
  deriving DecidableEq, Repr, Inhabited

/-- Latched status of one PMBus page (R495). -/
structure PageSt where
  other : Bool := false       -- STATUS_WORD bit 9
  byte : Nat := 0             -- STATUS_BYTE bits 5, 4 and 3
  vout : Nat := 0
  iout : Nat := 0
  temp : Nat := 0
  mfr : Nat := 0
  deriving DecidableEq, Repr, Inhabited

/-- The host port beside its registers (R488-R500). -/
structure HostSt where
  pages : Vector PageSt 8 := .replicate 8 {}
  cml : Nat := 0              -- STATUS_CML
  ack : Bool := true          -- the command code of the latest transaction was acknowledged
  resp : List Nat := []       -- bytes sent in the latest read, the PEC last
  xact : Option (Nat × HostXact) := none -- a firmware-served command that waits, stretched: its code and transaction
  reqOld : Nat := 0           -- the requests of R499 as last seen
  statAt : Option Nat := none -- cycle in which a latched status bit of R495 last became 1
  stretchAt : Nat := 0        -- cycle in which the latest stretch began (R491)
  deriving DecidableEq, Repr, Inhabited

/-- One UART beside its registers (R503-R510). -/
structure UartSt where
  rx : List Nat := []         -- RX queue, entries as UART_RXQ returns them, oldest first
  tx : List (Bool × Nat) := []   -- TX queue, oldest first: a break of so many bit times, or a character
  lost : Bool := false        -- characters were lost since the latest entry (OVR)
  colls : Nat := 0            -- collisions of the character at the head (R507)
  retry : Bool := false       -- the head waits for the idle time before it is sent again
  line : List Bool := []      -- levels driven by the latest frame or break sent, 16 samples to a bit (R504)
  path : Nat := 0             -- path in force (R503)
  lineAt : Nat := 0           -- end of the latest collision or line fault, after which the line must stay high (R507, R508)
  sentAt : Nat := 0           -- cycle in which the latest frame or break began
  bitT : Nat := 0             -- its bit time in cycles (R504)
  busyTo : Nat := 0           -- cycle in which it ends
  busyBrk : Bool := false     -- it is a break
  low9 : Bool := false        -- sample 9 of the latest last stop bit read low (R505)
  deriving DecidableEq, Repr, Inhabited

/-- The QSPI controller beside its registers (R513-R516). -/
structure QspiSt where
  cmd : Option Nat := none    -- the command that runs: the value of QSPI_CMD
  line : Option (Nat × List Nat) := none   -- prefetch line: its aligned address and 32 bytes
  waits : Bool := false       -- it has not begun: a spill goes before it (R516)
  sent : List Nat := []       -- bytes written to the external flash by the latest transfers: what held a command up, and it
  dummy : Nat := 0            -- dummy clocks of the latest transfer but a poll, after its address (R515)
  lanes : Nat × Nat × Nat := (1, 1, 1)   -- its lanes: of the opcode, the address and the data (R513, R518)
  wel : Bool := false         -- the latest write enable, 0x06 sent as a command, is not used up yet (R514)
  polling : Bool := false     -- the data phase of a command with POLL is over (R515)
  pollFrom : Nat := 0         -- cycle in which its polling began
  pollAt : Nat := 0           -- earliest cycle of its next poll
  deriving DecidableEq, Repr, Inhabited

/-- One GPIO pin beside the registers (R526-R529). -/
structure GpioSt where
  filt : Nat := 0             -- filtered levels, bit j for GPj
  known : Nat := 0            -- bit j: an edge has told the filtered level of GPj since its input buffer turned on
  edgeAt : Vector Nat 40 := .replicate 40 0   -- one more than the cycle of the latest edge of GPj, 0 before the first
  on : Nat := 0               -- bit j: the input buffer of GPj is on
  fresh : Nat := 0            -- bit j: it has turned on and taken no sample yet (R529)
  balls : List (Nat × Nat) := []   -- which balls the device drives and to what, bit j for GPj: this cycle's first, 24 cycles
  held : Vector Nat 40 := .replicate 40 0     -- CCLK cycles for which a level that GPj drives itself has differed from its filtered one
  hits : Nat := 0             -- flags set in cycle hitAt, bit j for GPj (R529)
  hitAt : Nat := 0            -- cycle of those flags
  deriving DecidableEq, Repr, Inhabited

/-- The timers beside their registers (R519-R523). -/
structure TimerSt where
  trig : Nat := 0             -- bit t: a TRIGGER slave has had its first master event
  coded : Nat := 0            -- bit t: COUNT was written while the timers are held (R523)
  deriving DecidableEq, Repr, Inhabited
/-- Everything of the device but its addressed memories and the queue of waiting commands. -/
structure Dev where
  now : Nat := 0              -- FCLK cycles since reset of the model; the idle tick advances it (assumption 2)
  free : Nat := 0             -- the free-value counter (assumption 1); the model's own
  regs : RegFile := []        -- every register, by bus address (R11, R39)
  act : RegFile := []         -- rail expert registers: the values in force (R90); `regs` holds the staged ones
  img : RegFile := []         -- image values of image registers (R253)
  rails : Vector RailSt 8 := .replicate 8 {}
  slices : Vector SliceSt 32 := .replicate 32 {}
  clusters : Vector ClusterSt 8 := .replicate 8 {}
  hm : HmSt := {}
  chain : ChainSt := {}
  cfg : CfgSt := {}
  accum : AccumSt := {}
  log : LogSt := {}
  stitch : StitchSt := {}
  mode : ModeSt := {}
  cpu : CpuSt := {}
  flash : FlashSt := {}
  sec : SecSt := {}
  dma : Vector DmaSt 16 := .replicate 16 {}
  host : HostSt := {}
  uart : Vector UartSt 2 := .replicate 2 {}
  qspi : QspiSt := {}
  gpio : GpioSt := {}
  timer : TimerSt := {}
  bus : BusSt := {}
  deriving DecidableEq, Repr, Inhabited

/-- The machine: the commands that wait, first in first out, the addressed memories, and the device. -/
structure State where
  pending : List Instr := []
  mem : Mem := []
  dev : Dev := {}
  deriving DecidableEq, Repr, Inhabited

/-- A core at the ROM's start (R411): supervisor, deterministic mode, in lockstep. -/
def coreAtRom : CoreSt :=
  { pc := 0, psr := 0x6001, tsbp := 0x2007E000 }

/-- The device as power-on reset leaves it (R307): every register at its reset value, nothing in force. -/
def Dev.power : Dev :=
  { regs := resetRegs
    cpu := { a := coreAtRom, b := coreAtRom, ckA := coreAtRom, ckB := coreAtRom } }

/-- The machine right after power-on reset is released (R295, R300, R307): mode BOOT, the ROM about to start, no command
waiting, no memory written. -/
def State.reset : State := { pending := [], mem := [], dev := Dev.power }

/-- Why a command could stop the machine. No command of this model raises one: every row of the opcode table has an
effect the spec gives (NOTES.md, Stops). -/
inductive Fault where
  /-- The model's own inconsistency. Raised by no meaning; safe, since nothing reaches it. -/
  | unreachable
  deriving DecidableEq, Repr

/-- Why a command could have no meaning. -/
inductive Refusal where
  /-- The row is not modelled. Raised by no arm of `exec` once every row has its meaning; safe. -/
  | notModelled (mnemonic : String)
  deriving DecidableEq, Repr

end Sys2Proof.Machine
end

