-- ==== Sys2Proof/Machine/Ops.lean ====
section
/-! DEFINITION. The named operations over the device's registers and structures: reading and writing registers and
fields, flags, free values, the arrival of a log entry (R289). Every chapter's commands are built from these. -/
namespace Sys2Proof.Machine

/-! ### Registers and fields -/

/-- The register at bus address `a`. -/
def Dev.rd (d : Dev) (a : Nat) : Nat := (Store.get regDflt d.regs a).toNat

/-- Put `v` into the register at bus address `a`: a hardware update, with no access rule. -/
def Dev.wr (d : Dev) (a v : Nat) : Dev := { d with regs := Store.set regDflt d.regs a (BitVec.ofNat 32 v) }

/-- Instance `n` of a register. -/
def Dev.r (d : Dev) (g : Reg) (n : Nat := 0) : Nat := d.rd (g.addr n)

/-- Set instance `n` of a register. -/
def Dev.setR (d : Dev) (g : Reg) (n v : Nat) : Dev := d.wr (g.addr n) v

/-- Element `k` of instance `n` of a register array. -/
def Dev.r2 (d : Dev) (g : Reg) (n k : Nat) : Nat := d.rd (g.addr2 n k)

/-- Set element `k` of instance `n` of a register array. -/
def Dev.setR2 (d : Dev) (g : Reg) (n k v : Nat) : Dev := d.wr (g.addr2 n k) v

/-- A field, unsigned. -/
def Dev.f (d : Dev) (x : Fld) (n : Nat := 0) : Nat := bits (d.r x.reg n) x.lo x.width

/-- A field, two's complement. -/
def Dev.fs (d : Dev) (x : Fld) (n : Nat := 0) : Int := toS x.width (d.f x n)

/-- A one-bit field. -/
def Dev.b (d : Dev) (x : Fld) (n : Nat := 0) : Bool := d.f x n == 1

/-- Set a field. -/
def Dev.setF (d : Dev) (x : Fld) (n v : Nat) : Dev := d.setR x.reg n (putBits (d.r x.reg n) x.lo x.width v)

/-- Set a field from a signed value. -/
def Dev.setFs (d : Dev) (x : Fld) (n : Nat) (v : Int) : Dev := d.setF x n (ofS x.width v)

/-- Set a one-bit field. -/
def Dev.setB (d : Dev) (x : Fld) (n : Nat) (v : Bool) : Dev := d.setF x n (b2n v)

/-- Set a sticky flag (R13). -/
def Dev.raise (d : Dev) (x : Fld) (n : Nat := 0) : Dev := d.setF x n 1

/-- Set a sticky flag when `c` holds. -/
def Dev.raiseIf (d : Dev) (c : Bool) (x : Fld) (n : Nat := 0) : Dev := if c then d.raise x n else d

/-- Add `k` to a saturating counter field. -/
def Dev.incSat (d : Dev) (x : Fld) (n : Nat := 0) (k : Nat := 1) : Dev := d.setF x n (satAdd x.width (d.f x n) k)

/-- Add 1 to a counter field modulo its width. -/
def Dev.inc (d : Dev) (x : Fld) (n : Nat := 0) : Dev := d.setF x n (d.f x n + 1)

/-! ### The rail expert registers in force (R90) -/

/-- A rail expert register as it is in force. -/
def Dev.ar (d : Dev) (g : Reg) (n : Nat) : Nat := (Store.get regDflt d.act (g.addr n)).toNat

/-- Set a rail expert register in force. -/
def Dev.setAr (d : Dev) (a v : Nat) : Dev := { d with act := Store.set regDflt d.act a (BitVec.ofNat 32 v) }

/-- A field of a rail expert register in force. -/
def Dev.a (d : Dev) (x : Fld) (n : Nat) : Nat := bits (d.ar x.reg n) x.lo x.width

/-- A field of a rail expert register in force, two's complement. -/
def Dev.as (d : Dev) (x : Fld) (n : Nat) : Int := toS x.width (d.a x n)

/-- A field in force whose value 0 acts as 1 (R133, R181). -/
def Dev.a1 (d : Dev) (x : Fld) (n : Nat) : Nat := max 1 (d.a x n)

/-- Coefficient slot `k` in force, Q2.22 (R88). -/
def Dev.coef (d : Dev) (n k : Nat) : Int := toS 24 (d.r2 RAIL_XCOEFACT n k)

/-- An image value (R253). -/
def Dev.im (d : Dev) (a : Nat) : Nat := (Store.get regDflt d.img a).toNat

/-- Record an image value. -/
def Dev.setIm (d : Dev) (a v : Nat) : Dev := { d with img := Store.set regDflt d.img a (BitVec.ofNat 32 v) }

/-! ### The clocks (R22, R25) -/

/-- The fabric domain is stopped: the system domain runs from the start-up oscillator (R25). -/
def Dev.fabricStopped (d : Dev) : Bool := !d.b SYSCTL_CLK_SRC

/-- FCLK periods in a CCLK cycle: two, and the nominal eight of the 50 MHz start-up oscillator while the system domain runs
from it (R22, R25). -/
def Dev.cclk (d : Dev) : Nat := if d.fabricStopped then 8 else 2

/-! ### Structures by index -/

def Dev.rail (d : Dev) (n : Nat) : RailSt := d.rails.getD n {}
def Dev.setRail (d : Dev) (n : Nat) (x : RailSt) : Dev := { d with rails := d.rails.setIfInBounds n x }
def Dev.modRail (d : Dev) (n : Nat) (f : RailSt → RailSt) : Dev := d.setRail n (f (d.rail n))
def Dev.modLp (d : Dev) (n : Nat) (f : LoopSt → LoopSt) : Dev := d.modRail n fun x => { x with lp := f x.lp }
def Dev.modTe (d : Dev) (n : Nat) (f : TeSt → TeSt) : Dev := d.modRail n fun x => { x with te := f x.te }
def Dev.modSq (d : Dev) (n : Nat) (f : SeqSt → SeqSt) : Dev := d.modRail n fun x => { x with sq := f x.sq }
def Dev.slice (d : Dev) (i : Nat) : SliceSt := d.slices.getD i {}
def Dev.setSlice (d : Dev) (i : Nat) (x : SliceSt) : Dev := { d with slices := d.slices.setIfInBounds i x }
def Dev.modSlice (d : Dev) (i : Nat) (f : SliceSt → SliceSt) : Dev := d.setSlice i (f (d.slice i))
def Dev.modCal (d : Dev) (i : Nat) (f : CalSt → CalSt) : Dev := d.modSlice i fun x => { x with cal := f x.cal }
def Dev.cluster (d : Dev) (k : Nat) : ClusterSt := d.clusters.getD k {}
def Dev.modCluster (d : Dev) (k : Nat) (f : ClusterSt → ClusterSt) : Dev :=
  { d with clusters := d.clusters.setIfInBounds k (f (d.cluster k)) }
def Dev.hr (d : Dev) (n : Nat) : HmRailSt := d.hm.rails.getD n {}
def Dev.modHr (d : Dev) (n : Nat) (f : HmRailSt → HmRailSt) : Dev :=
  { d with hm := { d.hm with rails := d.hm.rails.setIfInBounds n (f (d.hr n)) } }
def Dev.lane (d : Dev) (l : Nat) : LaneSt := d.chain.lanes.getD l {}
def Dev.modLane (d : Dev) (l : Nat) (f : LaneSt → LaneSt) : Dev :=
  { d with chain := { d.chain with lanes := d.chain.lanes.setIfInBounds l (f (d.lane l)) } }
def Dev.span (d : Dev) (c : Nat) : SpanSt := d.chain.spans.getD c {}
def Dev.modSpan (d : Dev) (c : Nat) (f : SpanSt → SpanSt) : Dev :=
  { d with chain := { d.chain with spans := d.chain.spans.setIfInBounds c (f (d.span c)) } }
def Dev.unit (d : Dev) (u : Nat) : UnitSt := d.accum.units.getD u {}
def Dev.modUnit (d : Dev) (u : Nat) (f : UnitSt → UnitSt) : Dev :=
  { d with accum := { d.accum with units := d.accum.units.setIfInBounds u (f (d.unit u)) } }
def Dev.modLop (d : Dev) (f : LopSt → LopSt) : Dev := { d with accum := { d.accum with lop := f d.accum.lop } }
def Dev.modCfg (d : Dev) (f : CfgSt → CfgSt) : Dev := { d with cfg := f d.cfg }
def Dev.modLog (d : Dev) (f : LogSt → LogSt) : Dev := { d with log := f d.log }

/-- Run `g` once for each element of `l`, in order. -/
def Dev.each {α : Type} (d : Dev) (l : List α) (g : α → Dev → Dev) : Dev := l.foldl (fun d x => g x d) d

/-- Run `g` when `c` holds. -/
def Dev.when (d : Dev) (c : Bool) (g : Dev → Dev) : Dev := if c then g d else d

/-! ### Free values -/

/-- A fresh free value of `w` bits (assumption 1). -/
def Dev.fresh (d : Dev) (w : Nat) : Nat × Dev := (Config.freeValue d.free % 2 ^ w, { d with free := d.free + 1 })

/-- `n` free bytes (assumption 1). -/
def Dev.freshBytes (d : Dev) (n : Nat) : List Nat × Dev :=
  (((Config.freeBytes d.free n).map BitVec.toNat ++ List.replicate n 0).take n, { d with free := d.free + 1 })

/-! ### The arrival of a log entry (R280, R289) -/

/-- The number `k` of an incident of which entries may still be held can be used again: its group's key leaves the range of
the numbers. -/
def rekey (k : Nat) : Nat := if k = 0 then 0 else k + 65536

/-- Every freeze group held gets a key that no later incident has, as the numbers restart at a SYS reset (R283, R290). -/
def Dev.rekeyGroups (d : Dev) : Dev :=
  d.modLog fun l =>
    { l with groups := l.groups.map fun g => (rekey g.1, g.2)
             slots := l.slots.map fun x => { x with group := x.group.map rekey }
             spill := l.spill.map fun e => { e with inc := rekey e.inc } }

/-- An incident opens when a class-0 entry arrives while none is open (R283): the number skips values whose low 8 bits are
0; with fewer than 4 freeze groups held it forms one, otherwise FREEZE_SKIP is set and coalescing begins (R284). -/
def Dev.openIncident (d : Dev) : Dev :=
  if d.b LOG_INCID_OPEN then d else
  let k := (d.f LOG_INCID_NUMBER + 1) % 2 ^ 16
  let k := if k % 256 = 0 then k + 1 else k
  let d := if d.log.groups.any fun g => g.1 == k then d.rekeyGroups else d
  let d := d.setR LOG_INCID 0 (k + 2 ^ 16) |>.setB LOG_STAT_INCIDENT 0 true |>.raise LOG_FLAGS_INC_OPEN
  if d.log.groups.length < 4 then
    (d.modLog fun l => { l with groups := l.groups ++ [(k, false, 0)] }).setF LOG_STAT_GROUPS 0 (d.log.groups.length + 1)
  else (d.raise LOG_FLAGS_FREEZE_SKIP).setB LOG_STAT_COALESCE 0 true

/-- PMBus page `n`. -/
def Dev.page (d : Dev) (n : Nat) : PageSt := d.host.pages.getD n {}

/-- The alert request STATUS is 1 for this cycle, which sets its PENDING bit while it is enabled (R499). -/
def Dev.statRise (d : Dev) : Dev :=
  let d := { d with host := { d.host with statAt := some d.now } }
  let d := d.setF HB_ALERT_REQ 0 (d.f HB_ALERT_REQ ||| 2)
  if bit (d.f HB_ALERTMASK_MASK) 1 then d.setF HB_ALERT_PENDING 0 (d.f HB_ALERT_PENDING ||| 2) else d

/-- Latched status bits of page `n` become 1 (R495, R499). -/
def Dev.pageLatch (d : Dev) (n : Nat) (f : PageSt → PageSt) : Dev :=
  if f (d.page n) = d.page n then d
  else { d with host := { d.host with pages := d.host.pages.setIfInBounds n (f (d.page n)) } }.statRise

/-- `k` entries of class `cls` are lost (R287); LOSSY latches on every page (R495). -/
def Dev.logLoss (d : Dev) (cls k : Nat) : Dev :=
  if k = 0 then d else
  let d := (d.setR LOG_LOSS cls (satAdd 32 (d.r LOG_LOSS cls) k)).raise LOG_FLAGS_LOSS |>.setB LOG_STAT_LOSSY 0 true
  d.each (List.range 8) fun n d => d.pageLatch n fun p => { p with mfr := p.mfr ||| 0x80 }

/-- The order of the arrivals of one CCLK cycle (R289): by class, fabric and interface types (below 0x100, R281) before
those of the system, by source index. -/
def LogEnt.rank (e : LogEnt) : Nat := e.cls * 512 + b2n (decide (e.typ ≥ 0x100)) * 256 + e.src

/-- `e` among the arrivals of its cycle, after those of its own rank. -/
def LogEnt.insert (e : LogEnt) : List LogEnt → List LogEnt
  | [] => [e]
  | x :: t => if e.rank < x.rank then e :: x :: t else x :: e.insert t

/-- Admission to the intake queue `q` (R289): classes 1 to 3 while fewer than 48 places are taken, class 0 while fewer than 64
are. The queue after it, and what is lost. -/
def takeIn (q : List LogEnt) : List LogEnt → List LogEnt × List LogEnt
  | [] => (q, [])
  | e :: t =>
    if q.length < (if e.cls = 0 then 64 else 48) then takeIn (q ++ [e]) t
    else ((takeIn q t).1, e :: (takeIn q t).2)

/-- An entry of class `cls`, TYPE `typ` and SRC `src` arrives at the intake queue, in its place among the arrivals of this
CCLK cycle (R289). An arrival that is not admitted is lost and counted by R287. Its time is RT and LOG_EPOCH at the
arrival, and it carries the number of the open incident (R280, R283), as do the arrivals that queue behind it in the
cycle in which it opens one. -/
def Dev.post (d : Dev) (cls typ src : Nat) (data : List Nat) : Dev :=
  let opens := cls = 0 && !d.b LOG_INCID_OPEN
  let d := if cls = 0 then d.openIncident else d
  let inc := if d.b LOG_INCID_OPEN then d.f LOG_INCID_NUMBER else 0
  let e : LogEnt := ⟨cls, typ, src, d.r CHAIN_RTIME, d.r LOG_EPOCH, data, inc, d.now / d.cclk⟩
  let d := if cls ≤ 1 then d.modLog fun l => { l with quietAt := d.now } else d
  let older := d.log.intake.filter fun x => x.cyc != e.cyc
  let same := (d.log.intake.filter fun x => x.cyc == e.cyc).map fun x => if opens && x.inc = 0 then { x with inc := inc } else x
  let r := takeIn older (e.insert same)
  (d.modLog fun l => { l with intake := r.1 }).each r.2 fun x d => d.logLoss x.cls 1

/-! ### The ring position and the host address (R489) -/

/-- The address of the host port for `strap` and position `pos`, none without one (R489). -/
def hostAddr (strap pos : Nat) : Option Nat :=
  if strap = 0 || strap = 7 || pos ≥ 16 then none else
  let a := 16 * strap + pos
  some (if a = 0x28 then 0x70 else if a = 0x37 then 0x71 else if a = 0x61 then 0x72 else a)

/-- HB_STAT shows the address (R489, R502); ADDR_SET when it takes effect. A root uses position 0. -/
def Dev.showAddr (d : Dev) : Dev :=
  let was := d.f HB_STAT_ADDR + 128 * d.f HB_STAT_ADDR_VALID
  match hostAddr (d.f HB_STAT_STRAP) (if d.b CHAIN_STAT_ROOT then 0 else d.f CHAIN_STAT_POS) with
  | some a => ((d.setF HB_STAT_ADDR 0 a).setB HB_STAT_ADDR_VALID 0 true).raiseIf (was != a + 128) HB_FLAGS_ADDR_SET
  | none => (d.setF HB_STAT_ADDR 0 0).setB HB_STAT_ADDR_VALID 0 false

/-- The ring position becomes `p`, 16 for none. -/
def Dev.setPos (d : Dev) (p : Nat) : Dev := (d.setF CHAIN_STAT_POS 0 p).showAddr

/-! ### What a read returns -/

/-- A bus read returns `v` to the master. -/
def Dev.answer (d : Dev) (v : Nat) : Dev := { d with bus := { d.bus with data := v % 2 ^ 32, err := 0 } }

/-! ### Outcomes -/

/-- What a step of this machine answers. -/
abbrev Outcome := Host.Outcome State Fault Refusal

/-- A command of the main domain: without its supplies, in DORMANT, nothing answers it (R43, R295). -/
def State.live (s : State) (f : State → State) : Outcome := .next (if s.dev.mode.dormant then s else f s)

/-- A command of the main domain whose effect is on the device alone: the memories and the queue keep their contents. -/
def State.onDev (s : State) (f : Dev → Dev) : Outcome := s.live fun s => { s with dev := f s.dev }

/-- A happening of the fabric domain: none while that domain is stopped (R22, R25). -/
def State.onFabric (s : State) (f : Dev → Dev) : Outcome := s.onDev fun d => if d.fabricStopped then d else f d

end Sys2Proof.Machine
end

