-- ==== Sys2Proof/Machine/Access.lean ====
section
/-! DEFINITION. What a bus access meets before it reaches a register: the register at an address (R11, R36), the expert
pages (R16), and the writes that SAFE refuses (R303). -/
namespace Sys2Proof.Machine

/-! ### Bus syndromes (R36-R38, R303, R407, R422, R435) -/

abbrev synUnmapped : Nat := 1
abbrev synSize : Nat := 2
abbrev synPriv : Nat := 3
abbrev synNoExec : Nat := 4
abbrev synPlaneInForce : Nat := 5
abbrev synNotOwner : Nat := 6
abbrev synSafeLock : Nat := 7
abbrev synErasePending : Nat := 8
abbrev synEcc : Nat := 9

/-- The access ends in a bus error with syndrome `k`; a read returns no data. -/
def Dev.busFail (d : Dev) (k : Nat) : Dev := { d with bus := { d.bus with data := 0, err := k } }

/-- The access ends well. -/
def Dev.busOk (d : Dev) : Dev := { d with bus := { d.bus with err := 0 } }

/-! ### The register at an address -/

/-- The instance and the element of register `g` that lie at bus address `a`. -/
def Reg.at (g : Reg) (a : Nat) : Option (Nat × Nat) :=
  if a < g.base then none else
  let off := a - g.base
  let n := if g.stride = 0 then 0 else off / g.stride
  let rest := off - g.stride * n
  let k := if g.count2 = 1 then 0 else rest / g.stride2
  if n < g.count && k < g.count2 && rest == (if g.count2 = 1 then 0 else g.stride2 * k) then some (n, k) else none

/-- The register tables of the block that holds bus address `a` (R35, R39). -/
def blockRegs (a : Nat) : List Reg :=
  match a / 0x1000 with
  | 0x40000 => sysctlRegs
  | 0x40001 => chainRegs
  | 0x40002 => hostbusRegs
  | 0x40003 => qspiRegs
  | 0x40004 => uartRegs
  | 0x40005 => uartRegs
  | 0x40006 => stitchRegs
  | 0x40007 => timerRegs
  | 0x40008 => dmaRegs
  | 0x40009 => flashcRegs
  | 0x4000A => accumRegs
  | 0x4000B => secureRegs
  | 0x4000C => eventRegs
  | 0x4000D => logRegs
  | 0x4000E => cfgRegs
  | 0x4000F => gpioRegs
  | k =>
    if 0x50000 ≤ k && k < 0x50008 then railRegs
    else if 0x50010 ≤ k && k < 0x50012 then sliceRegs
    else if 0x50020 ≤ k && k < 0x50021 then hawkmothRegs
    else if k = 0xE0000 then coreRegs
    else if k = 0xF0000 then bdRegs
    else []

/-- The register at bus address `a`, with its instance and element. -/
def regAt (a : Nat) : Option (Reg × Nat × Nat) :=
  (blockRegs a).findSome? fun g => (g.at a).map fun x => (g, x.1, x.2)

/-- The EXPERT_UNLOCK bit that governs the expert page at bus address `a` (R16). -/
def Dev.unlocked (d : Dev) (a : Nat) : Bool :=
  match a / 0x1000 with
  | 0x40000 => d.b SYSCTL_CTRL_EXPERT_UNLOCK
  | 0x40001 => d.b CHAIN_CTRL_EXPERT_UNLOCK
  | 0x40002 => d.b HB_CTRL_EXPERT_UNLOCK
  | 0x40003 => d.b QSPI_CTRL_EXPERT_UNLOCK
  | 0x40004 => d.b UART_CTRL_EXPERT_UNLOCK 0
  | 0x40005 => d.b UART_CTRL_EXPERT_UNLOCK 1
  | 0x40006 => d.b STITCH_CTRL_EXPERT_UNLOCK
  | 0x40007 => d.b TIMER_GCTRL_EXPERT_UNLOCK
  | 0x40008 => d.b DMA_CTRL_EXPERT_UNLOCK
  | 0x40009 => d.b FLASHC_CTRL_EXPERT_UNLOCK
  | 0x4000A => d.b ACCUM_CTRL_EXPERT_UNLOCK
  | 0x4000B => d.b SECURE_CTRL_EXPERT_UNLOCK
  | 0x4000C => d.b EVENT_CTRL_EXPERT_UNLOCK
  | 0x4000D => d.b LOG_CTRL_EXPERT_UNLOCK
  | 0x4000E => d.b CFG_CTRL_EXPERT_UNLOCK
  | 0x4000F => d.b GPIO_CTRL_EXPERT_UNLOCK
  | k =>
    if 0x50000 ≤ k && k < 0x50008 then d.b RAIL_CTRL_EXPERT_UNLOCK (k - 0x50000)
    else if 0x50010 ≤ k && k < 0x50012 then d.b SLICE_CTRL_EXPERT_UNLOCK ((a - 0x50010000) / 0x100)
    else if k = 0x50020 then d.b HM_CTRL_EXPERT_UNLOCK
    else if k = 0xE0000 then d.b CORE_CTRL_EXPERT_UNLOCK
    else true

/-- The address lies on an expert page, but for `g`'s own field: a register marked so in its table (R16). -/
def Reg.locked (g : Reg) (d : Dev) (a : Nat) : Bool := g.expert && !d.unlocked a

/-! ### The mode and SAFE (R303, R324) -/

/-- SYSCTL_MODE.MODE codes. -/
abbrev modeStandby : Nat := 1
abbrev modeBoot : Nat := 2
abbrev modeConfigure : Nat := 3
abbrev modeRegulate : Nat := 4
abbrev modeSafe : Nat := 5

/-- The mode. -/
def Dev.modeNow (d : Dev) : Nat := d.f SYSCTL_MODE_MODE

/-- A write to bus address `a` that SAFE refuses (R303). -/
def safeLocks (a : Nat) : Bool :=
  (0x50000000 ≤ a && a < 0x50030000) || (0x40006000 ≤ a && a < 0x40007000) || a == CHAIN_SPANCMD.addr 0 ||
    (0x4000E000 ≤ a && a < 0x4000F000 && a != CFG_FLAGS.addr 0 && a != CFG_CHECK.addr 0) ||
    (0x30000000 ≤ a && a < 0x30038000) || a == FLASHC_CMD.addr 0

/-- A bus write to instance `n` of register `g` with effect `f` (R16, R303): in SAFE a locked register ends it in a bus
error; on a locked expert page it has no effect. -/
def Dev.storeTo (d : Dev) (g : Reg) (n : Nat) (f : Dev → Dev) : Dev :=
  if d.modeNow = modeSafe && safeLocks (g.addr n) then d.busFail synSafeLock
  else if g.locked d (g.addr n) then d.busOk
  else f d.busOk

end Sys2Proof.Machine
end

