-- ==== Sys2Proof/Machine/Slice.lean ====
section
/-! DEFINITION. The slices: roles and states, output levels and edges, current samples and their tags, slice faults
(R47-R49, R141-R149, R157-R159). -/
namespace Sys2Proof.Machine

/-! ### Roles and states (R141, R185) -/

/-- SLICE_STAT.ROLE codes. -/
abbrev roleNone : Nat := 0
abbrev roleMember : Nat := 1
abbrev roleSpare : Nat := 2

/-- SLICE_STAT.STATE codes. -/
abbrev stActive : Nat := 0
abbrev stShed : Nat := 1
abbrev stEngine : Nat := 2
abbrev stFree : Nat := 3
abbrev stCal : Nat := 4
abbrev stFaulted : Nat := 5
abbrev stReadmit : Nat := 6

/-- SLICE_STAT.LEVEL codes (R144). -/
abbrev lvTri : Nat := 0
abbrev lvLow : Nat := 1
abbrev lvHigh : Nat := 2

def Dev.sRole (d : Dev) (i : Nat) : Nat := d.f SLICE_STAT_ROLE i
def Dev.sState (d : Dev) (i : Nat) : Nat := d.f SLICE_STAT_STATE i
def Dev.sRail (d : Dev) (i : Nat) : Nat := d.f SLICE_STAT_RAIL i
def Dev.sPos (d : Dev) (i : Nat) : Nat := d.f SLICE_STAT_POSITION i
def Dev.setState (d : Dev) (i s : Nat) : Dev := d.setF SLICE_STAT_STATE i s

/-- The member and spare slices of rail `n`, in ascending slice number. -/
def Dev.slicesOf (d : Dev) (n : Nat) : List Nat :=
  (List.range 32).filter fun i => d.sRole i != roleNone && d.sRail i == n

/-- A slice that switches and is summed by ISUM: ACTIVE or ENGINE_ADDED (R98, R141). -/
def Dev.isOn (d : Dev) (i : Nat) : Bool :=
  d.sRole i == roleMember && (d.sState i == stActive || d.sState i == stEngine)

/-- The slices of rail `n` that switch. -/
def Dev.onSlices (d : Dev) (n : Nat) : List Nat := (d.slicesOf n).filter d.isOn

/-- The ACTIVE slices of rail `n`. -/
def Dev.activeSlices (d : Dev) (n : Nat) : List Nat :=
  (d.slicesOf n).filter fun i => d.sRole i == roleMember && d.sState i == stActive

/-- The FREE spares of rail `n` in spare-list order (R160). -/
def Dev.freeSpares (d : Dev) (n : Nat) : List Nat :=
  (d.rail n).sq.spares.filter fun i => d.sRole i == roleSpare && d.sState i == stFree

/-- A position's member staffs it unless FAULTED or READMIT (R142). -/
def Dev.staffs (d : Dev) (i : Nat) : Bool := d.sState i != stFaulted && d.sState i != stReadmit

/-- HM: the staffed positions of rail `n` on this device (R165). -/
def Dev.staffed (d : Dev) (n : Nat) : Nat := ((d.rail n).sq.plan.filter d.staffs).length

/-- Bring RAIL_SEQSTAT, RAIL_STAT.ACTIVE_N, RAIL_TE_STAT.NENG and RAIL_SPARES up to date (R85, R131, R181). A position that is
staffed and later left vacant counts anew (R160). DESIGN CHOICE (log 78): CAL_RUN and CALSLICE show rotating calibrations and
calibration passes, not readmissions, and CALSLICE keeps the latest slice while none runs. -/
def Dev.showSeq (d : Dev) (n : Nat) : Dev :=
  let sq := (d.rail n).sq
  let neng := ((d.slicesOf n).filter fun i => d.sRole i == roleMember && d.sState i == stEngine).length
  let d := d.modSq n fun q => { q with vacSeen := q.vacSeen.filter fun j => !d.staffs (sq.plan.getD j 0) }
  let d := d.setF RAIL_SEQSTAT_NPOS n sq.plan.length
  let d := d.setF RAIL_SEQSTAT_HM n (d.staffed n)
  let d := d.setF RAIL_SEQSTAT_FREE n (d.freeSpares n).length
  let d := d.setB RAIL_SEQSTAT_CAL_RUN n sq.calCur.isSome
  let d := d.setF RAIL_SEQSTAT_CALSLICE n (sq.calCur.getD (d.f RAIL_SEQSTAT_CALSLICE n))
  let d := d.setF RAIL_STAT_ACTIVE_N n (d.activeSlices n).length
  let d := d.setF RAIL_TE_STAT_NENG n neng
  d.setR RAIL_SPARES n ((List.range 4).foldl (fun v s =>
    match sq.spares[s]? with
    | some i => v + (i + 0x80) * 2 ^ (8 * s)
    | none => v) 0)

/-! ### The latched PMBus status of a rail (R495) -/

/-- The status bits latched by a shutdown with cause `c`: STATUS_BYTE, STATUS_VOUT, OTHER, STATUS_MFR_SPECIFIC (R495). -/
def PageSt.shut (p : PageSt) (c : Nat) : PageSt :=
  match c with
  | 1 => { p with byte := p.byte ||| 0x20, vout := p.vout ||| 0x80 }
  | 2 => { p with vout := p.vout ||| 0x10 }
  | 3 => { p with other := true, mfr := p.mfr ||| 0x08 }
  | 4 => { p with other := true, mfr := p.mfr ||| 0x10 }
  | 5 => { p with other := true, mfr := p.mfr ||| 0x20 }
  | 6 => { p with other := true, mfr := p.mfr ||| 0x20 }
  | 7 => { p with other := true, mfr := p.mfr ||| 0x40 }
  | 10 => { p with byte := p.byte ||| 0x08 }
  | _ => p

/-- Latch every status bit of page `n` whose condition holds now (R495, R496). -/
def Dev.hostScan (d : Dev) (n : Nat) : Dev :=
  let cls := ((d.slicesOf n).map (· / 4)).eraseDups
  let ot := cls.any fun k => (d.cluster k).seen && decide (d.fs CL_STAT_TEMP k ≥ d.fs CL_OTLIM_OT_FAULT k)
  let warn := cls.any fun k => (d.cluster k).seen && decide (d.fs CL_STAT_TEMP k ≥ d.fs CL_OTLIM_OT_WARN k)
  let fl := b2n (d.b RAIL_FLAGS_SUBST n) + 2 * b2n (d.b RAIL_FLAGS_SPARES_OUT n) + 4 * b2n (d.b RAIL_FLAGS_CAL_FAIL n)
    + 0x80 * b2n (d.b LOG_STAT_LOSSY)
  let lim := d.b RAIL_FLAGS_LIM_ENTER n && d.b RAIL_STAT_LIM_HIGH n
  d.pageLatch n fun p =>
    let p := { p with mfr := p.mfr ||| fl, iout := p.iout ||| (if lim then 0x20 else 0),
                      temp := p.temp ||| (0x80 * b2n ot + 0x40 * b2n warn) }
    if d.b RAIL_STAT_SHUTTING n then p.shut (d.f RAIL_GCAUSE_CAUSE n) else p

/-! ### Levels and edges (R144) -/

/-- The edge code of the first edge the decision in progress can still place: the decision is at D3, its edges leave
the delay line three cycles later (R80). -/
def Dev.w0 (d : Dev) : Nat := 32 * (d.now + 3)

/-- Drive slice `i` to a level with an edge at edge code `t`. -/
def Dev.drive (d : Dev) (i lv t : Nat) : Dev :=
  if d.f SLICE_STAT_LEVEL i = lv then d
  else (d.setF SLICE_STAT_LEVEL i lv).modSlice i fun x => { x with edgeAt := t }

/-- Drive slice `i` to the tri-state level at once, ending any on-time (R159). -/
def Dev.tri (d : Dev) (i t : Nat) : Dev :=
  (d.drive i lvTri t).modSlice i fun x =>
    { x with on := false, regular := false, tx := 0, fOff := 0, whUntil := 0, leaving := false }

/-! ### Calibration endings that other blocks cause -/

/-- Low 16 bits of the rail's decision index. -/
def Dev.decIdx (d : Dev) (n : Nat) : Nat := (d.rail n).lp.index % 2 ^ 16

/-- A slice that becomes a member or a spare, or stops being one, has no condition of R157 in progress. -/
def Dev.freshCond (d : Dev) (i : Nat) : Dev :=
  d.modSlice i fun s => { s with ocCnt := 0, convCnt := 0, imbCnt := 0, attrCnt := 0 }

/-- Slice `i` takes no part in readmission any more: its static open-wire test, if it runs, ends as any other (R159, R179). -/
def OwSt.dropReadmit (w : OwSt) (i : Nat) : OwSt :=
  { w with readmit := w.readmit && !(w.kind == 0 && w.index == i), waiting := w.waiting.filter (· != i) }

/-- Slice `i` becomes FAULTED with cause `cause` (R159): tri-state at once, SLICE_FCAUSE, SLICE_FLAGS.FAULT, a class-0
SLICE_FAULT entry. A slice in calibration stays a spare; its cover stays a member (R176). A readmission in progress ends, also
while its open-wire test runs or waits. -/
def Dev.faultSlice (d : Dev) (i cause : Nat) : Dev :=
  let n := d.sRail i
  let before := d.sState i
  let d := d.post 0 0x001 i [cause + n * 2 ^ 8 + before * 2 ^ 12, d.decIdx n]
  let d := d.tri i d.w0
  let d := d.setF SLICE_FCAUSE_CAUSE i cause |>.setF SLICE_FCAUSE_DECISION i (d.decIdx n)
  let d := d.setState i stFaulted |>.raise SLICE_FLAGS_FAULT i |>.setF SLICE_STAT_CALSTEP i 0
  let d := if cause = 4 then d.pageLatch n fun p => { p with byte := p.byte ||| 0x10, iout := p.iout ||| 0x80 } else d
  let d := d.setB SLICE_STAT_COVER i false
  let d := match (d.slice i).cal.pos with
    | some p => match (d.rail n).sq.plan[p]? with
      | some c => d.setB SLICE_STAT_COVER c false
      | none => d
    | none => d
  let d := d.modSlice i fun x =>
    { x with cal := {}, ocCnt := 0, convCnt := 0, imbCnt := 0, attrCnt := 0, mark := none, bg := {} }
  let d := if (d.rail n).sq.calCur == some i then
      d.modSq n fun q => { q with calCur := none, calEnd := d.now } else d
  let d := { d with accum := { d.accum with ow := d.accum.ow.dropReadmit i } }
  d.showSeq n

/-- A readmission fails: the slice is FAULTED again in its role (R179). -/
def Dev.readmitFail (d : Dev) (i cause result : Nat) : Dev :=
  let d := d.setF SLICE_CALRES0_RESULT i result |>.raise SLICE_FLAGS_READMIT_FAIL i
  let d := d.raise RAIL_FLAGS_CAL_FAIL (d.sRail i) |>.hostScan (d.sRail i)
  d.faultSlice i cause

/-- Abort the calibration of slice `i` (R177): its result is ABORTED, it keeps its previous trims and returns once its
ZERO condition holds. A readmission that is aborted fails (R179). -/
def Dev.abortCal (d : Dev) (i : Nat) : Dev :=
  if d.sState i = stCal then
    let d := d.setF SLICE_CALRES0_RESULT i 6
    let d := if (d.slice i).cal.pulsing then d.tri i d.w0 else d
    d.modCal i fun c => { c with abort := true, ret := false, pulsing := false, taking := false }
  else if d.sState i = stReadmit && !(d.slice i).cal.passed && d.f SLICE_STAT_CALSTEP i != 0 then d.readmitFail i 7 6
  else d

/-- Abort every calibration of rail `n` (R167, R177). -/
def Dev.abortCals (d : Dev) (n : Nat) : Dev := d.each (d.slicesOf n) fun i d => d.abortCal i

/-! ### Current samples (R48, R49) -/

/-- The converter code as the fabric uses it: negated under ISINV (R48, R234). -/
def Dev.rawCode (d : Dev) (i : Nat) (raw : BitVec 12) : Int :=
  if (d.slice i).isinv then -raw.toInt else raw.toInt

/-- R48 before saturation, with a given offset. -/
def Dev.phaseExact (d : Dev) (i : Nat) (r ofs : Int) : Int := rshr ((r - ofs) * d.fs SLICE_KI_KI i) 22

/-- SPREAD (R174). -/
def spreadOf (l : List Int) : Int := l.foldl max (l.headD 0) - l.foldl min (l.headD 0)

/-- CAL_TH in force, at least 8 (R181). -/
def Dev.calTh (d : Dev) (n : Nat) : Nat := max 8 (d.a RAIL_XCAL_CAL_TH n)

/-- NPL by RAIL_CAL.NPSEL (R181). -/
def Dev.npl (d : Dev) (n : Nat) : Nat := match d.f RAIL_CAL_NPSEL n with | 0 => 4 | 1 => 8 | _ => 16

/-- The ZERO condition: 16 consecutive raw codes with a spread of SPREAD or less (R174). -/
def Dev.calZero (d : Dev) (n i : Nat) : Bool :=
  let win := (d.slice i).cal.win
  win.length == 16 && decide (spreadOf win ≤ d.a RAIL_XCAL2_SPREAD n)

/-- The calibration's use of one raw code `r` taken at hold edge `h` (R174): the ZERO window, the offset average, and
the currents of a pulse. The step CAL_ZERO of a slice in calibration happens here. -/
def Dev.calSample (d : Dev) (n i : Nat) (r : Int) (h : Nat) : Dev :=
  if d.sState i != stCal && d.sState i != stReadmit then d else
  let d := d.modCal i fun c => { c with win := (r :: c.win).take 16 }
  let c := (d.slice i).cal
  let step := d.f SLICE_STAT_CALSTEP i
  let zero := d.calZero n i
  if c.abort then d
  else if step = 1 then
    if zero then (d.setF SLICE_STAT_CALSTEP i 2).modCal i fun c => { c with ofsN := 0, ofsSum := 0, ofsMin := 0, ofsMax := 0 }
    else d
  else if step = 2 then
    if c.ofsN < 256 then d.modCal i fun c =>
      { c with ofsN := c.ofsN + 1, ofsSum := c.ofsSum + r
               ofsMin := if c.ofsN = 0 then r else min c.ofsMin r
               ofsMax := if c.ofsN = 0 then r else max c.ofsMax r }
    else d
  else if step = 3 then
    if c.taking then
      let iv := satS 12 (d.phaseExact i r c.ofs)
      if h = c.h0 + 8 then d.modCal i fun c => { c with i0 := iv }
      else if h = c.h0 + 2 * (4 + d.calTh n) then d.modCal i fun c => { c with i1 := iv }
      else if h = c.h0 + 2 * (4 + 2 * d.calTh n) then d.modCal i fun c =>
        { c with a := c.a + (c.i1 - c.i0), b := c.b + (iv - c.i1), z := c.z + c.i0, taking := false }
      else d
    else if zero && decide (c.pulses ≥ d.npl n) then d.setF SLICE_STAT_CALSTEP i 4
    else d
  else d

/-- Take one sample of slice `i` for a decision of rail `n` (R48, R49), with the fault conditions CONV, OC and STAGE of
R157 and R158 counted; the lowest confirmed code faults the slice. -/
def Dev.sampleSlice (d : Dev) (n i : Nat) (raw : BitVec 12) (convFault : Bool) : Dev :=
  let r := d.rawCode i raw
  let x := d.phaseExact i r (d.fs SLICE_OFS_OFS i)
  let iv := satS 12 x
  let ovr := raw.toInt == -2048 || raw.toInt == 2047 || x != iv
  let inv := convFault || (d.cluster (i / 4)).refBad
  let d := d.setR SLICE_I i (ofS 12 iv + b2n ovr * 2 ^ 12 + b2n inv * 2 ^ 13 + d.decIdx n * 2 ^ 16)
  let d := d.modSlice i fun s => { s with i := iv, x := raw.toInt, ovr := ovr, inv := inv
                                          iSum := s.iSum + iv, iN := s.iN + 1 }
  let d := d.calSample n i r (d.now - 14)
  if d.sRole i = roleNone || d.sState i = stFaulted then d else
  let s := d.slice i
  let k := i / 4
  let testing := d.accum.ow.running && d.accum.ow.kind == 0 && d.accum.ow.index == i
  let free := d.sState i = stFree
  let ioc : Int := if free then 16 else d.a RAIL_XOC_IOC n
  let ineg : Int := if free then 16 else d.a RAIL_XOC_INEG n
  let ocNow := !testing && (decide (iv ≥ ioc) || decide (iv ≤ -ineg) || ovr)
  let oc := if ocNow then s.ocCnt + 1 else 0
  let conv := if inv && !testing then s.convCnt + 1 else 0
  let watch := d.b CL_STAT_ATTR_RUN k || d.b CL_STAT_STGFLT k
  let att := if watch && decide (r ≥ d.fs CL_CTRL_FLVL k) then s.attrCnt + 1 else 0
  let d := d.modSlice i fun s => { s with ocCnt := oc, convCnt := conv, attrCnt := att }
  if att ≥ 4 then
    let d := (d.raise CL_FLAGS_STG_ATTR k).modCluster k fun c => { c with attr := true }
    d.faultSlice i 1
  else if conv ≥ 64 then d.faultSlice i 3
  else if oc ≥ d.a1 RAIL_XOC_OCCNT n then d.faultSlice i 4
  else d

/-! ### On-times of a switching slice (R77, R101, R145, R146) -/

/-- TONMIN in force. -/
def Dev.tonMin (d : Dev) (n : Nat) : Nat := d.a RAIL_XSEQ_TONMIN n

/-- TONMAX = TSW - TOFFMIN (R145). -/
def Dev.tonMax (d : Dev) (n : Nat) : Nat := (d.rail n).sq.tsw - d.a RAIL_XSEQ_TOFFMIN n

/-- Where the on-time in progress begins within the period in progress: its on-edge, or the period start when that is
later. -/
def SliceSt.onBase (s : SliceSt) : Nat := max s.onAt s.perAt

/-- The latest edge code at which the on-time in progress may end (R145): TONMAX less what the period in progress has spent. A
pulse that reaches past the next period start within that counts there from the period start on (R101). -/
def Dev.onLimit (d : Dev) (n i : Nat) : Nat :=
  let s := d.slice i
  let here := s.onBase + (d.tonMax n - s.used)
  if here < s.nextAt then here else s.nextAt + d.tonMax n

/-- The off-edge of the on-time in progress before the limit of TONMAX: the regular one of R145 with its extension (R101), or
the forced one of a placed pulse, whichever is later; no earlier than TONMIN. -/
def Dev.offWanted (d : Dev) (n i ton : Nat) : Nat :=
  let s := d.slice i
  let reg := if s.regular then s.onAt + max ton (d.tonMin n) + s.tx else 0
  max (max reg s.fOff) (s.onAt + d.tonMin n)

/-- The off-edge of the on-time in progress (R101, R145). -/
def Dev.offEdge (d : Dev) (n i ton : Nat) : Nat := min (d.offWanted n i ton) (d.onLimit n i)

/-- The placement that has acted on slice `i` since the latest D4 meets the on-time limit, with the on-time that R77 gives in
this D4 (R101). -/
def Dev.noteCapped (d : Dev) (n i ton : Nat) : Dev :=
  let capped := (d.slice i).upNew && (d.slice i).on && decide (d.onLimit n i < d.offWanted n i ton)
  let d := d.modSlice i fun s => { s with upNew := false }
  if capped then (d.raise RAIL_TE_FLAGS_CAPPED n).setB RAIL_TE_STAT_CAPPED n true else d

/-- Diode emulation is in force (R146, R169). -/
def Dev.diode (d : Dev) (n : Nat) : Bool :=
  (d.b RAIL_STAT_SOFTSTART n || d.b RAIL_PWM_DE_EN n) && !d.b RAIL_STAT_SHUTTING n

/-- The level of a slice in its withheld interval when it stops driving HIGH (R102): tri-state under DN_TRI while its sample
is above 0. -/
def Dev.withheldLevel (d : Dev) (n i : Nat) : Nat :=
  if d.b RAIL_TE_CTRL_DN_TRI n && decide ((d.slice i).i > 0) then lvTri else lvLow

/-- A slice that stops switching at edge code `b` completes its on-time at the off-edge that stands now, or drives tri-state
from `b` on (R149). What is left of it counts in the period that starts there (R101, R145). -/
def Dev.leave (d : Dev) (n i b : Nat) : Dev :=
  let s := d.slice i
  if s.on then
    let off := d.offEdge n i s.base
    d.modSlice i fun x => { x with leaving := true, fOff := off, perAt := b, used := 0 }
  else d.drive i lvTri b

/-- D4 for a slice that has left: its off-edge to tri-state, when it falls due in this decision's two cycles (R149). -/
def Dev.placeLeaving (d : Dev) (i : Nat) : Dev :=
  let s := d.slice i
  let off := max s.fOff d.w0
  if !s.on || !s.leaving || off ≥ d.w0 + 64 then d else
  let d := d.drive i lvTri off
  let d := if s.regular then d.setF SLICE_TON_TON i (off - s.onAt) else d
  d.modSlice i fun s => { s with on := false, regular := false, used := s.used + (off - s.onBase), tx := 0, fOff := 0
                                 whUntil := 0, leaving := false }

/-- D4 for one slice with a duty of `ton` edge codes: the off-edge is moved, and placed when it falls due in this
decision's two cycles; an off-edge already passed is placed at once (R77). In the off-time, the level follows diode
emulation (R146) and the withheld interval (R102), whose end drives LOW again. -/
def Dev.placeEdges (d : Dev) (n i ton : Nat) : Dev :=
  let d := d.noteCapped n i ton
  let s := d.slice i
  if s.on then
    let off := max (d.offEdge n i ton) d.w0
    if off < d.w0 + 64 then
      let d := d.drive i (if s.whUntil > off then d.withheldLevel n i else lvLow) off
      let d := if s.regular then d.setF SLICE_TON_TON i (off - s.onAt) else d
      d.modSlice i fun s => { s with on := false, regular := false, used := s.used + (off - s.onBase), tx := 0
                                     fOff := 0, base := ton }
    else d.modSlice i fun s => { s with base := ton }
  else
    let d := d.modSlice i fun s => { s with base := ton }
    if s.whUntil > d.w0 then
      if d.f SLICE_STAT_LEVEL i = lvTri then d.drive i (d.withheldLevel n i) d.w0 else d.drive i lvLow d.w0
    else
      let d := if s.whUntil != 0 then (d.modSlice i fun s => { s with whUntil := 0 }).drive i lvLow d.w0 else d
      if d.diode n && decide (s.i ≤ 0) && d.f SLICE_STAT_LEVEL i == lvLow then d.drive i lvTri d.w0 else d

/-- An on-edge of slice `i` at edge code `t`, as a forced pulse of length `len` (R101). A slice in its withheld interval
leaves it. -/
def Dev.forcePulse (d : Dev) (i t len : Nat) : Dev :=
  (d.drive i lvHigh t).modSlice i fun s =>
    { s with on := true, regular := false, onAt := t, fOff := t + len, tx := 0, whUntil := 0, upNew := true }

/-- SLICE_PERIOD_BOUNDARY, R78 and R145: the slice's own period starts at `nextAt`. Its average of the period just ended
updates the balance term unless R156 holds it; the imbalance condition of R157 is counted; then the on-edge is placed
unless ton is 0, the withheld interval covers it, or the slice does not switch; an off-edge that falls due in the same two
cycles is placed with it. -/
def Dev.slicePeriod (d : Dev) (i : Nat) : Dev :=
  if !d.isOn i then d else
  let n := d.sRail i
  let s := d.slice i
  let had := s.run && s.iN != 0
  let avg := if had then satS 12 (rdiv s.iSum s.iN) else s.avg
  let active := d.sState i == stActive
  let d := d.modSlice i fun s =>
    { s with avg := avg, hasAvg := s.hasAvg || (had && active), run := true, iSum := 0, iN := 0, hold := false }
  let d := d.setR SLICE_IAVG i (ofS 12 avg)
  let avgs := ((d.activeSlices n).filter fun j => (d.slice j).hasAvg).map fun j => (d.slice j).avg
  let mean := satS 12 (meanI avgs)
  let lim : Int := d.a RAIL_XBALLIM_BALLIM n
  let bal := d.fs SLICE_BAL_BAL i
  let d := if active && had && !s.hold then
      d.setFs SLICE_BAL_BAL i (clampI (bal + d.as RAIL_XKBAL_KBAL n * (mean - avg)) (-lim) lim) else d
  let bal := d.fs SLICE_BAL_BAL i
  let diff := avg - mean
  let bad := active && decide ((diff.natAbs : Int) > 16 * d.a RAIL_XSHED_IDEV n) &&
    ((decide (diff > 0) && decide (bal = -lim)) || (decide (diff < 0) && decide (bal = lim)))
  let imb := if bad then s.imbCnt + 1 else 0
  let d := d.modSlice i fun s => { s with imbCnt := imb }
  if imb ≥ 8 then d.faultSlice i 6 else
  let t := s.nextAt
  let off := d.offEdge n i s.base   -- of an on-time that is still running: it merges with the new one (R101)
  let d := d.modSlice i fun s => { s with nextAt := t + (d.rail n).sq.tsw, perAt := t, used := 0 }
  if s.base = 0 then d.setF SLICE_TON_TON i 0
  else if t < s.whUntil then d
  else if s.on then d.modSlice i fun s => { s with regular := true, onAt := t, fOff := off, tx := 0 }
  else
    let d := (d.drive i lvHigh t).modSlice i fun s => { s with on := true, regular := true, onAt := t, tx := 0, fOff := 0 }
    d.placeEdges n i s.base

end Sys2Proof.Machine
end

