-- ==== Sys2Proof/Machine/Units.lean ====
section
/-! DEFINITION. The accumulator and tracker units: averaging, window extremes, limits, restart, routing and the read
shadow (R259-R265). -/
namespace Sys2Proof.Machine

/-- The published STAT of unit `u` with bit field `[lo + w - 1 : lo]` set to `v`. -/
def Dev.setPStat (d : Dev) (u lo w v : Nat) : Dev :=
  d.modUnit u fun x => { x with pStat := putBits x.pStat lo w v }

/-- Restart a unit (R263): the block and the window start again, FRESH is 0; the published values stay. IDLE is 1 until
the stream delivers. -/
def Dev.unitRestart (d : Dev) (u : Nat) : Dev :=
  let d := d.modUnit u fun x => { x with acc := 0, tags := 0, n := 0, wblk := 0, opened := false }
  (d.setPStat u 28 1 0).setPStat u 25 1 1

/-- Give unit `u` the routing `v` (R265) and restart it. HELD of ACCUMu_CFG is `held`. -/
def Dev.setRoute (d : Dev) (u v : Nat) (held : Bool) : Dev :=
  let d := d.setR ACCUMu_CFG u (v % 2 ^ 31 + b2n held * 2 ^ 31)
  let rest := d.accum.routes.filter fun p => p.2 != u
  let routes := if bit v 24 then rest ++ [(v % 256, u)] else rest
  let d := { d with accum := { d.accum with routes := routes } }
  d.unitRestart u

/-- A block of unit `u` completes with sum `acc` (R260-R262): AVG, SEQ, TAGS, the comparison bits, FRESH and the NEW bit
are published together; at the end of a window, WMIN and WMAX with them. -/
def Dev.unitPublish (d : Dev) (u : Nat) : Dev :=
  let x := d.unit u
  let avg := rshr x.acc (d.f ACCUMu_CFG_SHIFT u)
  let d := d.setR ACCUMu_AVG u (ofS 32 avg)
  let above := decide (avg > toS 32 (d.r ACCUMu_LIMHI u))
  let below := decide (avg < toS 32 (d.r ACCUMu_LIMLO u))
  let rise := (above && !bit x.pStat 26) || (below && !bit x.pStat 27)
  let d := d.setPStat u 0 16 (bits x.pStat 0 16 + 1) |>.setPStat u 16 9 x.tags
  let d := d.setPStat u 26 1 (b2n above) |>.setPStat u 27 1 (b2n below) |>.setPStat u 28 1 1
  let d := d.setR ACCUM_NEW (u / 32) (putBits (d.r ACCUM_NEW (u / 32)) (u % 32) 1 1)
  let d := if rise then d.setR ACCUM_LIM (u / 32) (putBits (d.r ACCUM_LIM (u / 32)) (u % 32) 1 1) else d
  let last := x.wblk + 1 ≥ 2 ^ d.f ACCUMu_CFG_WIN u
  d.modUnit u fun x =>
    { x with acc := 0, tags := 0, n := 0, wblk := if last then 0 else x.wblk + 1, opened := x.opened && !last
             pMin := if last then ofS 32 x.wmin else x.pMin, pMax := if last then ofS 32 x.wmax else x.pMax }

/-- ACCUM_SAMPLE: unit `u` takes sample `x` (R260, R261). -/
def Dev.unitTake (d : Dev) (u : Nat) (x : Int) (tagged : Bool) : Dev :=
  let d := d.setPStat u 25 1 0
  let d := d.modUnit u fun s =>
    { s with acc := s.acc + x, tags := s.tags + b2n tagged, n := s.n + 1
             wmin := if s.opened then min s.wmin x else x, wmax := if s.opened then max s.wmax x else x
             opened := true }
  if (d.unit u).n ≥ 2 ^ d.f ACCUMu_CFG_NAVG u then d.unitPublish u else d

/-- Stream `src` delivers sample `x` to every unit routed to it (R259). -/
def Dev.stream (d : Dev) (src : Nat) (x : Int) (tagged : Bool) : Dev :=
  d.each (d.accum.routes.filter fun p => p.1 == src) fun p d => d.unitTake p.2 x tagged

/-- Stream `src` stops delivering: its units restart (R263). -/
def Dev.streamStops (d : Dev) (src : Nat) : Dev :=
  d.each (d.accum.routes.filter fun p => p.1 == src) fun p d => d.unitRestart p.2

/-- The current streams of the slices of `l` stop: they are no longer PRESENT (R259, R263). -/
def Dev.slicesGone (d : Dev) (l : List Nat) : Dev := d.each l fun i d => d.streamStops (1 + i)

/-- The slices that are PRESENT (R234). -/
def Dev.presentSlices (d : Dev) : List Nat := (List.range 32).filter fun i => (d.slice i).present

/-- ACCUM_CTRL.EXPERT: some expert value of ACCUM is in force (R279). -/
def Dev.showAccumExpert (d : Dev) : Dev :=
  d.setB ACCUM_CTRL_EXPERT 0 (d.r ACCUM_XOW != 0x00040400 || d.r ACCUM_XOW2 != 0x00080080 ||
    d.accum.units.any fun x => x.expert)

/-- The streams of rail `n` stop: it left ENABLED (R259). -/
def Dev.railStreamsStop (d : Dev) (n : Nat) : Dev :=
  d.each [0x21 + n, 0x29 + n, 0x31 + n, 0x39 + n, 0x59 + n] fun s d => d.streamStops s

end Sys2Proof.Machine
end

