-- ==== Sys2Proof/Machine/LongOp.lean ====
section
/-! DEFINITION. The status word of the long operations and how a long operation of ACCUM ends (R18-R21, R272). -/
namespace Sys2Proof.Machine

/-- STATE codes of R18. -/
abbrev opIdle : Nat := 0
abbrev opRunning : Nat := 1
abbrev opDone : Nat := 2
abbrev opAborted : Nat := 3
abbrev opFailed : Nat := 4

/-- A status word of R18 from its fields. -/
def opWord (state progress partials reason : Nat) (late : Bool) : Nat :=
  state % 16 * 2 ^ 28 + progress % 4096 * 2 ^ 16 + partials % 256 * 2 ^ 8 + reason % 128 * 2 + b2n late

/-- Release the units a capture holds: they restart under their own routing (R263, R273). -/
def Dev.lopRelease (d : Dev) : Dev :=
  if d.b ACCUM_LOPINFO_HELD then
    let u := d.f ACCUM_LOPINFO_UBASE
    let d := d.each [u, u + 1, u + 2] fun k d => d.setRoute k (d.unit k).own false
    d.setB ACCUM_LOPINFO_HELD 0 false
  else d

/-- The running long operation ends in `state` with `reason` (R272): LOP_DONE or LOP_BAD, a class-3 LOP_END entry, units
released. A slice that a pass has in calibration ends by the abort rule of R177, and CAL_INT counts from the end of the pass
(R277). With no operation running nothing happens. -/
def Dev.lopEnd (d : Dev) (state reason : Nat) : Dev :=
  if d.f ACCUM_LOPSTAT_STATE != opRunning then d else
  let d := d.setF ACCUM_LOPSTAT_STATE 0 state |>.setF ACCUM_LOPSTAT_REASON 0 reason
  let d := d.lopRelease
  let d := if state = opDone then d.raise ACCUM_FLAGS_LOP_DONE else d.raise ACCUM_FLAGS_LOP_BAD
  let d := d.post 3 0x031 (d.f ACCUM_LOPINFO_OP) [d.r ACCUM_LOPSTAT]
  let l := d.accum.lop
  let d := match l.cur with
    | some i => if l.op = 3 && state != opDone then d.abortCal i else d
    | none => d
  let d := if l.op = 3 then d.modSq l.rail fun q => { q with calEnd := d.now } else d
  d.modLop fun l => { l with op := 0, cur := none }

/-- The long operation on rail `n` ends (R272). -/
def Dev.lopEndRail (d : Dev) (n state reason : Nat) : Dev :=
  if d.accum.lop.op != 0 && d.accum.lop.rail == n then d.lopEnd state reason else d

/-- A record of four words enters the result window, and PARTIALS increases by 1 (R271). -/
def Dev.lopRecord (d : Dev) (ws : List Nat) : Dev :=
  let q := d.f ACCUM_LOPSTAT_PARTIALS
  let d := d.each (List.range 4) fun k d => d.setR ACCUM_RES (4 * q + k) (ws.getD k 0)
  d.setF ACCUM_LOPSTAT_PARTIALS 0 (q + 1)

/-- PROGRESS increases by 1. -/
def Dev.lopProgress (d : Dev) : Dev := d.setF ACCUM_LOPSTAT_PROGRESS 0 (d.f ACCUM_LOPSTAT_PROGRESS + 1)

end Sys2Proof.Machine
end

