-- ==== Sys2Proof/Machine/ChainMsg.lean ====
section
/-! DEFINITION. The message streams of the ring as this device sends them: lanes, latencies, the cell grid and the queues
(R197, R200-R206). -/
namespace Sys2Proof.Machine

/-! ### Per-port fields: lane 0 is received on the upstream port, lane 1 on the downstream port (R189) -/

/-- The field of port `l` of a pair of fields. -/
def pf (l : Nat) (u d : Fld) : Fld := if l = 0 then u else d

def rxF (l : Nat) : Fld := pf l CHAIN_UPORT_RX CHAIN_DPORT_RX
def nbrF (l : Nat) : Fld := pf l CHAIN_UPORT_NBR CHAIN_DPORT_NBR
def headF (l : Nat) : Fld := pf l CHAIN_UPORT_HEAD CHAIN_DPORT_HEAD
def tapF (l : Nat) : Fld := pf l CHAIN_UPORT_TAP CHAIN_DPORT_TAP
def ckRoleF (l : Nat) : Fld := pf l CHAIN_UPORT_CKROLE CHAIN_DPORT_CKROLE
def ckValidF (l : Nat) : Fld := pf l CHAIN_UPORT_CKVALID CHAIN_DPORT_CKVALID

def Dev.isRoot (d : Dev) : Bool := d.b CHAIN_STAT_ROOT
def Dev.pos (d : Dev) : Nat := d.f CHAIN_STAT_POS
def Dev.modChain (d : Dev) (f : ChainSt → ChainSt) : Dev := { d with chain := f d.chain }

/-! ### Latencies (R197, R203) -/

/-- Ring size for arithmetic; 1 where it is unknown. -/
def Dev.ringM (d : Dev) : Nat := max 1 (d.f CHAIN_STAT_M)

/-- The trace delay of the link from position `k` to the next: this device's own two links are in its CHAIN_XHOPADJ, the
others in those of other devices (R197). -/
def Dev.linkAdj (d : Dev) (k : Nat) : Nat :=
  if k = d.pos % d.ringM then d.f CHAIN_XHOPADJ_D_ADJ
  else if (k + 1) % d.ringM = d.pos % d.ringM then d.f CHAIN_XHOPADJ_U_ADJ
  else Config.linkAdj k

/-- The root's realignment in cycles (R201). -/
def Dev.realign (d : Dev) : Nat := if d.isRoot then d.f CHAIN_STAT_REALIGN else Config.rootRealign % 32

/-- Latency of a path of `hops` hops that ends here on lane `l`, in edge codes: 24 ns and the link's adjustment per hop, and
the root's realignment when the path runs through position 0 (R197, R203). -/
def Dev.pathLatency (d : Dev) (hops l : Nat) : Nat :=
  let m := d.ringM
  let p := d.pos % m
  let back := fun k => if l = 0 then (p + 16 * m - k) % m else (p + k) % m
  let links := (List.range hops).map fun k => if l = 0 then back (k + 1) else back k
  let through := (List.range hops).any fun k => k ≥ 1 && back k == 0
  (rdiv ((hops : Int) * 3072) 10).toNat + (links.map d.linkAdj).sum + (if through then 32 * d.realign else 0)

/-- Hops from position `src` to this device on lane `l`. -/
def Dev.hopsFrom (d : Dev) (src l : Nat) : Nat :=
  let m := d.ringM
  let p := d.pos % m
  if l = 0 then (p + m - src % m) % m else (src % m + m - p) % m

/-- Latency from position `src` on lane `l`, in edge codes (R203). -/
def Dev.latency (d : Dev) (src l : Nat) : Nat := d.pathLatency (d.hopsFrom src l) l

/-- Latency of the root's cells on lane `l`, in cycles: with the realignment on the counter-clockwise path, and around the
whole loop at the root itself (R197, R201). -/
def Dev.rootLatency (d : Dev) (l : Nat) : Nat :=
  let e := if d.isRoot then d.pathLatency d.ringM l + 32 * d.realign
    else d.latency 0 l + (if l = 1 then 32 * d.realign else 0)
  (rdiv e 32).toNat

/-! ### The cell grid (R200-R202) -/

/-- The number of the cell received in this cycle on lane `l`, counted from RT 0 of the root: it is whole 32 cycles after
its first bit. -/
def Dev.rxCellNo (d : Dev) (l : Nat) : Nat := tsub (d.r CHAIN_RTIME + 16) (d.rootLatency l + 32) / 32

/-- The offset from this device's RT to the grid of the cells it sends on lane `l`: the root and the head of a stream send
on their own RT grid. -/
def Dev.gridOff (d : Dev) (l : Nat) : Nat := if d.isRoot || d.b (headF l) then 0 else d.rootLatency l + 32

/-- The number of the cell sent in this cycle on lane `l`. -/
def Dev.txCellNo (d : Dev) (l : Nat) : Nat := tsub (d.r CHAIN_RTIME + 16) (d.gridOff l) / 32

/-- This device is the lead of span channel `c`. -/
def Dev.isLead (d : Dev) (c : Nat) : Bool := d.f CHAIN_SPANc_STAT_ROLE c == 1

/-- First cell of the slots of the lead of channel `c`, which are fourteen in each superframe (R200). -/
def leadLo (c : Nat) : Nat := if c = 0 then 2 else 16

/-- The slots of a lead among the cells before number `x`. -/
def leadSlots (c x : Nat) : Nat := 14 * (x / 32) + min 14 (x % 32 - leadLo c)

/-! ### Messages (R205, R206) -/

/-- A message as 64 bits: START, TYPE, SRC, CH, PAYLOAD, CRC-8 over bits 59 to 8 (R205). -/
def chainMsg (typ src ch payload : Nat) : Nat :=
  let body := (typ % 16 * 16 + src % 16) * 16 + ch % 4
  let body := body * 2 ^ 40 + payload % 2 ^ 40
  (0xA * 2 ^ 52 + body) * 2 ^ 8 + crc8Bits 52 body

/-- The sixteen nibbles of a message, first nibble first. -/
def msgNibbles (m : Nat) : List Nat := (List.range 16).map fun k => bits m (4 * (15 - k)) 4

/-- The nibbles that wait on lane `l` for the slots of the lead of channel `c`. -/
def Dev.leadQueue (d : Dev) (l c : Nat) : List Nat := (d.lane l).txLead.getD c []

/-- Queue a message for sending on both lanes (R205), with the payload that each lane has: SPAN_START to SIG_RELAY go out in
the slots of the channel's lead, the others in those of the general owner (R200, R206). -/
def Dev.sendOn (d : Dev) (typ ch : Nat) (payload : Nat → Nat) : Dev :=
  d.each [0, 1] fun l d => d.modLane l fun x =>
    let nib := msgNibbles (chainMsg typ d.pos ch (payload l))
    if 2 ≤ typ && typ ≤ 6 then { x with txLead := x.txLead.setIfInBounds ch (x.txLead.getD ch [] ++ nib) }
    else { x with tx := x.tx ++ nib }

/-- Queue a message that is the same on both lanes. -/
def Dev.sendMsg (d : Dev) (typ ch payload : Nat) : Dev := d.sendOn typ ch fun _ => payload

/-- The queue `q` without the messages of type `typ` of which no nibble has left. -/
def dropMsgs (typ : Nat) (q : List Nat) : List Nat :=
  let r := q.length % 16
  let msgs := (List.range (q.length / 16)).map fun k => (q.drop (r + 16 * k)).take 16
  q.take r ++ (msgs.filter fun m => m.getD 1 0 != typ).flatten

/-- Queue a message of the general owner before all others of which no nibble has left, in the place of one of its type. -/
def Dev.sendFirst (d : Dev) (typ ch payload : Nat) : Dev :=
  let nib := msgNibbles (chainMsg typ d.pos ch payload)
  d.each [0, 1] fun l d => d.modLane l fun x =>
    let q := dropMsgs typ x.tx
    { x with tx := q.take (q.length % 16) ++ nib ++ q.drop (q.length % 16) }

/-- The number of the next cell that this device sends on lane `l`. -/
def Dev.nextCellNo (d : Dev) (l : Nat) : Nat :=
  if (d.lane l).sentNo = some (d.txCellNo l) then d.txCellNo l + 1 else d.txCellNo l

/-- Cycles until `q` nibbles more than those that wait have left on lane `l`, the last cell whole, in the slots of the lead of
channel `c`: where this device forwards cells, `gridOff` holds the 32 cycles of a cell already (R201, R202). -/
def Dev.laneWait (d : Dev) (l c q : Nat) : Nat :=
  let k := (d.leadQueue l c).length + q
  if k = 0 then 0 else
  let last := leadSlots c (d.nextCellNo l) + k - 1
  let whole := if d.isRoot || d.b (headF l) then 32 else 0
  32 * (32 * (last / 14) + leadLo c + last % 14) + whole - tsub (d.r CHAIN_RTIME) (d.gridOff l)

/-- This device sends cells on lane `l` that are no training cells: the lane is in RUN, or the device heads its stream (R201,
R202). -/
def Dev.sendsCells (d : Dev) (l : Nat) : Bool := d.f (rxF l) == 2 || d.b (headF l)

/-- Cycles until `q` nibbles more than those that wait have left on every lane on which this device sends (R205). -/
def Dev.txWait (d : Dev) (c q : Nat) : Nat :=
  let one := fun l => if d.sendsCells l then d.laneWait l c q else 0
  if d.sendsCells 0 || d.sendsCells 1 then max (one 0) (one 1) else d.laneWait 0 c q

/-- PLAN_LEAD in cycles, at least 4 µs (R223). -/
def Dev.planLead (d : Dev) : Nat := max 4 (d.f CHAIN_XTIME_PLAN_LEAD) * 400

/-- This device's SPAN_READY report on channel `c` (R206). -/
def Dev.sendReady (d : Dev) (c free staffed : Nat) (armed : Bool) : Dev :=
  d.sendMsg 8 c (min free 7 * 2 ^ 37 + b2n armed * 2 ^ 36 + staffed * 2 ^ 30)

/-- SPAN_TARGET names `v` for RT `t` (R206, R214). -/
def Dev.sendTarget (d : Dev) (c v t : Nat) : Dev := d.sendMsg 4 c (v % 2 ^ 16 * 2 ^ 24 + t % 2 ^ 24)

/-- SIG_RELAY for a prediction of lead time `lead` (R129, R206, R215): REM is what remains of it at the RT at which the
message's last nibble leaves on its lane. -/
def Dev.sendRelay (d : Dev) (c : Nat) (down : Bool) (mag lead rise : Nat) : Dev :=
  d.sendOn 6 c fun l =>
    b2n down * 2 ^ 39 + mag * 2 ^ 29 + min 2047 (lead - d.laneWait l c 16) * 2 ^ 18 + rise * 2 ^ 12

end Sys2Proof.Machine
end

