-- ==== Sys2Proof/Machine/Uart.lean ====
section
/-! DEFINITION. The isolated-link UARTs (R503-R512). A received character comes as the samples of its frame, 16 to a
bit, from where the search is armed; a sent frame with the bits read back on the line. -/
namespace Sys2Proof.Machine

def Dev.ua (d : Dev) (u : Nat) : UartSt := d.uart.getD u {}
def Dev.modUart (d : Dev) (u : Nat) (f : UartSt → UartSt) : Dev := { d with uart := d.uart.setIfInBounds u (f (d.ua u)) }

/-- UART_CTRL.PATH codes in force (R503). -/
abbrev uaPulse : Nat := 1
abbrev uaHalf : Nat := 2

/-- One bit time in cycles of 400 MHz: 16 × DIV + FRAC of CCLK, DIV 0 as 1 (R504, R512). -/
def Dev.uaBitTime (d : Dev) (u : Nat) : Nat := (16 * max 1 (d.f UART_BAUD_DIV u) + d.f UART_BAUD_FRAC u) * d.cclk

/-- The line cannot have been high for `k` bit times since it was last driven low by a collision or a fault. -/
def Dev.uaTooSoon (d : Dev) (u k : Nat) : Bool := d.now < (d.ua u).lineAt + k * d.uaBitTime u

/-- The characters in a TX queue: a break is none (R510). -/
def UartSt.chars (x : UartSt) : Nat := (x.tx.filter fun e => !e.1).length

/-- A frame or break is being sent (R512). -/
def Dev.uaBusy (d : Dev) (u : Nat) : Bool := decide (d.now < (d.ua u).busyTo)

/-- UART_STAT as it reads: TXBUSY and BRKSEND while a frame or break is being sent (R512). -/
def Dev.uaStat (d : Dev) (u : Nat) : Nat :=
  d.r UART_STAT u + b2n (d.uaBusy u) * 2 ^ 16 + b2n (d.uaBusy u && (d.ua u).busyBrk) * 2 ^ 18

/-- The TX pin of UART `u` (R503, R507): the level of the sample in progress, else idle high; in HALF it is open-drain and
a high releases it. DESIGN CHOICE (log 29): the FRAC samples of DIV + 1 cycles lie evenly in the bit (R504). -/
def Dev.uaTx (d : Dev) (u : Nat) : Option Bool :=
  let x := d.ua u
  let v := !d.uaBusy u || x.line.getD ((d.now - x.sentAt) * 16 / x.bitT) true
  if v && x.path == uaHalf then none else some v

/-- Bring UART_STAT's levels up to date (R512). -/
def Dev.showUart (d : Dev) (u : Nat) : Dev :=
  (d.setF UART_STAT_RXCOUNT u (d.ua u).rx.length).setF UART_STAT_TXCOUNT u (min 16 (d.ua u).chars)

/-- Data bits, parity and stop bits of a frame (R503, R512). -/
def Dev.uaData (d : Dev) (u : Nat) : Nat := if d.b UART_CTRL_D7 u then 7 else 8
def Dev.uaParity (d : Dev) (u : Nat) : Nat := let p := d.f UART_CTRL_PARITY u; if p = 3 then 0 else p
def Dev.uaStops (d : Dev) (u : Nat) : Nat := if d.b UART_CTRL_STOP2 u then 2 else 1

/-- Bits of a frame, the start bit first. -/
def Dev.uaBits (d : Dev) (u : Nat) : Nat := 1 + d.uaData u + b2n (d.uaParity u != 0) + d.uaStops u

/-- An entry enters the RX queue (R509): when the queue is full it is lost and counted, and the next entry carries OVR. -/
def Dev.uaQueue (d : Dev) (u e : Nat) : Dev :=
  let x := d.ua u
  if x.rx.length ≥ 64 then
    ((d.modUart u fun x => { x with lost := true }).setR UART_LOST u (satAdd 32 (d.r UART_LOST u) 1)).raise UART_FLAGS_OVR u
  else
    let e := e + b2n x.lost * 2 ^ 13 + 2 ^ 15
    let d := d.modUart u fun x => { x with rx := x.rx ++ [e], lost := false }
    let d := d.raiseIf (x.rx.length + 1 == max 1 (d.f UART_RXTHR_THR u)) UART_FLAGS_RXDATA u
    d.showUart u

/-- The majority of three samples. -/
def maj3 (a b c : Bool) : Bool := (a && b) || (a && c) || (b && c)

/-- Bit `b` of a frame by its samples (R505, R506): its value, and whether its three samples disagree. -/
def uaBit (pulse : Bool) (s : List Bool) (b : Nat) : Bool × Bool :=
  let at_ := fun k => s.getD (16 * b + k - 1) true
  if pulse then ((List.range 9).all fun k => at_ (4 + k), false)
  else
    let v := maj3 (at_ 7) (at_ 8) (at_ 9)
    (v, at_ 7 != at_ 8 || at_ 8 != at_ 9)

/-- The parity bit that data with `ones` ones carries: parity 1 even, 2 odd. -/
def uaParityBit (kind ones : Nat) : Bool := if kind = 1 then ones % 2 == 1 else ones % 2 == 0

/-- The samples are those of a break (R508): low for the whole frame of `n` bits, or for 2 bit times in the PULSE path. -/
def uaBreakIn (pulse : Bool) (s : List Bool) (n : Nat) : Bool :=
  let low := fun (a k : Nat) => (List.range k).all fun i => !s.getD (a + i) true
  if pulse then (List.range s.length).any fun a => low a 32 else low 0 (16 * n)

/-- The samples from sample 1 of a start bit on, where the search in `s` finds one (R505): the first sample that reads low is
sample 1; a start bit whose majority is 1 is a false start, and the search goes on at sample 10. Every false start takes
nine samples at least, which bounds `fuel`. -/
def uaStart : Nat → List Bool → Option (List Bool)
  | 0, _ => none
  | fuel + 1, s =>
    match s.dropWhile id with
    | [] => none
    | f => if maj3 (f.getD 6 true) (f.getD 7 true) (f.getD 8 true) then uaStart fuel (f.drop 9) else some f

/-- The samples from sample 1 of a start bit on (R505, R506): a line that is low as the search re-arms, and was low at sample
9 of the stop bit, starts at sample 9; in the PULSE path the first low sample is sample 7. -/
def uaFrom (pulse low9 : Bool) (s : List Bool) : Option (List Bool) :=
  if pulse then
    match s.dropWhile id with
    | [] => none
    | f => some (List.replicate 6 true ++ f)
  else uaStart s.length (if low9 && !s.headD true then false :: s else s)

/-- The samples of a frame, from sample 1 of its start bit on, are received (R505, R506, R509). The search re-arms:
STAT.RXIDLE shows whether the line is high then. -/
def Dev.uaTake (d : Dev) (u : Nat) (s : List Bool) : Dev :=
  let pulse := (d.ua u).path == uaPulse
  let nd := d.uaData u
  let par := d.uaParity u
  let last := d.uaBits u - 1
  let vals := (List.range (last + 1)).map fun b => uaBit pulse s b
  let v := fun b => (vals.getD b (true, false)).1
  let data := (List.range nd).foldl (fun x k => x + b2n (v (1 + k)) * 2 ^ k) 0
  let ones := ((List.range nd).filter fun k => v (1 + k)).length
  if uaBreakIn pulse s (last + 1) then d   -- a break: UART_BREAK_RX
  else
    let d := d.modUart u fun x => { x with low9 := !pulse && !s.getD (16 * last + 8) true }
    let pe := par != 0 && v (1 + nd) != uaParityBit par ones
    let fe := !v last
    let noise := vals.any fun x => x.2
    let data := if nd = 7 && par != 0 then data + b2n (v (1 + nd)) * 2 ^ 8 else data
    let d := d.raiseIf (pe || fe || noise) UART_FLAGS_RXERR u
    d.uaQueue u (data + b2n pe * 2 ^ 9 + b2n fe * 2 ^ 10 + b2n noise * 2 ^ 11)

/-- The line's samples from where the search is armed on (R505, R506). DESIGN CHOICE (log 29): the row brings one character;
a sample that it does not bring reads high, and STAT.RXIDLE is the level of the last one it brings. -/
def Dev.uaReceive (d : Dev) (u : Nat) (s : List Bool) : Dev :=
  if !d.b UART_CTRL_EN u || d.b UART_STAT_HELDOFF u || s.isEmpty then d else
  let low9 := (d.ua u).low9
  let d := (d.modUart u fun x => { x with low9 := false }).setB UART_STAT_RXIDLE u (s.getLastD true)
  match uaFrom ((d.ua u).path == uaPulse) low9 s with
  | none => d
  | some f => d.uaTake u f

/-- UART_RX_CHARACTER. -/
def execUartRxCharacter (u : Fin 2) (samples : List Bool) (s : State) : Outcome :=
  s.onDev fun d => d.uaReceive u samples

/-- UART_XLINE.BRK_MAX: lower values act as 16. -/
def Dev.uaBrkMax (d : Dev) (u : Nat) : Nat := max 16 (d.f UART_XLINE_BRK_MAX u)

/-- A low of `len` sixteenths of a bit is a break (R508): the whole frame, 2 bit times in the PULSE path, and no line fault.
-/
def Dev.uaIsBreak (d : Dev) (u len : Nat) : Bool :=
  decide (16 * (if (d.ua u).path = uaPulse then 2 else d.uaBits u) ≤ len) && decide (len < 16 * d.uaBrkMax u)

/-- UART_BREAK_RX (R508): one entry with BRK and BRKLEN. -/
def execUartBreakRx (u : Fin 2) (len : Half) (s : State) : Outcome := s.onDev fun d =>
  if !d.b UART_CTRL_EN u || d.b UART_STAT_HELDOFF u || !d.uaIsBreak u len.toNat then d
  else ((d.raise UART_FLAGS_BRK u).uaQueue u (2 ^ 12 + len.toNat * 2 ^ 16)).setB UART_STAT_RXIDLE u true

/-- UART_LINE_FAULT (R508): a low of BRK_MAX bit times. -/
def execUartLineFault (u : Fin 2) (s : State) : Outcome := s.onDev fun d =>
  if !d.b UART_CTRL_EN u || d.b UART_STAT_HELDOFF u then d else
  let d := (d.raise UART_FLAGS_LINEFLT u).uaQueue u (2 ^ 12 + 2 ^ 14 + 0xFFFF * 2 ^ 16)
  let d := (d.post 2 0x052 u [d.uaBrkMax u]).modUart u fun x => { x with lineAt := d.now, low9 := false }
  (d.setB UART_STAT_HELDOFF u true).setB UART_STAT_RXIDLE u false

/-- UART_LINE_OK (R508): the line has been high for 11 bit times; the hold-off ends. -/
def execUartLineOk (u : Fin 2) (s : State) : Outcome := s.onDev fun d =>
  if !d.b UART_STAT_HELDOFF u || d.uaTooSoon u 11 then d
  else ((d.setB UART_STAT_HELDOFF u false).setB UART_STAT_RXIDLE u true).raise UART_FLAGS_LINEOK u

/-- The levels of a frame that carries character `c`, one to a bit (R503). -/
def Dev.uaFrame (d : Dev) (u c : Nat) : List Bool :=
  let nd := d.uaData u
  let bs := (List.range nd).map fun k => bit c k
  let par := d.uaParity u
  [false] ++ bs ++ (if par = 0 then [] else [uaParityBit par (bs.filter id).length]) ++ List.replicate (d.uaStops u) true

/-- UART_XLINE.PW: values but 1 to 8 act as 3. -/
def Dev.uaPw (d : Dev) (u : Nat) : Nat := let w := d.f UART_XLINE_PW u; if 1 ≤ w ∧ w ≤ 8 then w else 3

/-- The 16 samples that the transmitter drives for a bit (R504, R506): in the PULSE path a 0 is low from sample 7 for PW
samples, a 1 high throughout. -/
def Dev.uaWave (d : Dev) (u : Nat) (v : Bool) : List Bool :=
  (List.range 16).map fun k => v || (d.ua u).path == uaPulse && !(decide (6 ≤ k) && decide (k < 6 + d.uaPw u))

/-- The samples of a frame that is driven until sample 10 of bit `b`, from which the line is released (R507). -/
def uaCut (s : List Bool) (b : Nat) : List Bool :=
  s.take (16 * b + 9) ++ List.replicate (s.length - (16 * b + 9)) true

/-- The head of the TX queue leaves it. DESIGN CHOICE (log 77): TXEMPTY is set as the last one leaves. -/
def Dev.uaPop (d : Dev) (u : Nat) : Dev :=
  let d := d.modUart u fun x => { x with tx := x.tx.drop 1, colls := 0, retry := false }
  (d.raiseIf (d.ua u).tx.isEmpty UART_FLAGS_TXEMPTY u).showUart u

/-- A frame or break begins (R503, R504): its levels, and how long it lasts, in sixteenths of a bit. -/
def Dev.uaDrive (d : Dev) (u : Nat) (brk : Bool) (line : List Bool) (len : Nat) : Dev :=
  d.modUart u fun x =>
    { x with line := line, sentAt := d.now, bitT := d.uaBitTime u, busyTo := d.now + len * d.uaBitTime u / 16, busyBrk := brk }

/-- The transmitter, while it sends nothing, sends the head of the TX queue (R503, R506 to R508). In HALF a bit that is read
back otherwise is a collision: the line is released, COLL, and the character waits for its retry or is dropped. DESIGN
CHOICE (log 29): COLL_DROP is set with RETRY_EN 0 too. -/
def Dev.uaSend (d : Dev) (u : Nat) (back : List Bool) : Dev :=
  if !d.b UART_CTRL_EN u || d.uaBusy u then d else
  match (d.ua u).tx with
  | [] => d
  | (true, len) :: _ => (d.uaDrive u true (List.replicate (16 * len) false) (16 * len)).uaPop u
  | (false, c) :: _ =>
    let fr := d.uaFrame u c
    let half := (d.ua u).path == uaHalf
    let wave := fr.flatMap (d.uaWave u)
    let hit := if half then (List.range fr.length).find? fun b => fr.getD b true != back.getD b (fr.getD b true) else none
    match hit with
    | some b =>
      let d := d.uaDrive u false (uaCut wave b) (16 * b + 9)
      let k := (d.ua u).colls + 1
      let d := d.raise UART_FLAGS_COLL u
      if !d.b UART_CTRL_RETRY_EN u || k ≥ max 1 (d.f UART_XLINE_RETRY_MAX u) then (d.raise UART_FLAGS_COLL_DROP u).uaPop u
      else d.modUart u fun x => { x with colls := k, retry := true, lineAt := x.busyTo }
    | none =>
      let d := (d.uaDrive u false wave wave.length).uaPop u
      let par := d.uaParity u
      let c8 := if d.uaData u = 7 && par != 0 then
          c % 128 + b2n (uaParityBit par ((List.range 7).filter fun k => bit c k).length) * 2 ^ 8
        else c % 2 ^ d.uaData u
      if half && d.b UART_CTRL_ECHO u then d.uaQueue u c8 else d

/-- UART_TX_FRAME (R503, R507). -/
def execUartTxFrame (u : Fin 2) (readback : List Bool) (s : State) : Outcome :=
  s.onDev fun d => if (d.ua u).retry then d else d.uaSend u readback

/-- UART_RETRY (R507): the line has been idle for 11 + RETRY_SLOT bit times. -/
def execUartRetry (u : Fin 2) (readback : List Bool) (s : State) : Outcome :=
  s.onDev fun d =>
    if (d.ua u).retry && !d.uaBusy u && !d.uaTooSoon u (11 + d.f UART_XLINE_RETRY_SLOT u) then
      (d.modUart u fun x => { x with retry := false }).uaSend u readback
    else d

/-- A write of UART_TXQ (R510). -/
def Dev.uaWrite (d : Dev) (u v : Nat) : Dev :=
  if (d.ua u).chars ≥ 16 then d.raise UART_FLAGS_TX_REJ u
  else (d.modUart u fun x => { x with tx := x.tx ++ [(false, v % 512)] }).showUart u
def execUartTxqWrite (u : Fin 2) (v : Word) (s : State) : Outcome :=
  s.onDev fun d => d.storeTo UART_TXQ u fun d => d.uaWrite u v.toNat

/-- A read of UART_RXQ (R509). -/
def Dev.uaRead (d : Dev) (u : Nat) : Dev :=
  match (d.ua u).rx with
  | [] => d.answer 0
  | e :: t => ((d.modUart u fun x => { x with rx := t }).showUart u).answer e
def execUartRxqRead (u : Fin 2) (s : State) : Outcome := s.onDev fun d => d.uaRead u

/-- A write of UART_BRK (R508): with GO a low of LEN bit times follows the characters already queued. -/
def Dev.uaBreak (d : Dev) (u v : Nat) : Dev :=
  if bit v 31 && v % 4096 != 0 then d.modUart u fun x => { x with tx := x.tx ++ [(true, v % 4096)] } else d
def execUartBreakSend (u : Fin 2) (v : Word) (s : State) : Outcome :=
  s.onDev fun d => d.storeTo UART_BRK u fun d => d.uaBreak u v.toNat

/-- The frame or break being sent stops at the end of the bit in progress in cycle `now` (R510). -/
def UartSt.cut (x : UartSt) (now : Nat) : UartSt :=
  if now < x.busyTo then
    let b := (now - x.sentAt) / x.bitT + 1
    { x with line := x.line.take (16 * b), busyTo := min x.busyTo (x.sentAt + b * x.bitT) }
  else x

/-- Clearing EN stops the transmitter and empties both queues (R510). -/
def Dev.uaStop (d : Dev) (u : Nat) : Dev :=
  ((d.setB UART_CTRL_EN u false).modUart u fun x =>
    { x.cut d.now with rx := [], tx := [], colls := 0, retry := false, lost := false, low9 := false }).showUart u
def execUartEnClear (u : Fin 2) (s : State) : Outcome :=
  s.onDev fun d => d.storeTo UART_CTRL u fun d => d.uaStop u

/-- A write of UART_CTRL (R503, R510, R512): a path change takes effect only while EN is 0. -/
def Dev.uaCtrl (d : Dev) (u v : Nat) : Dev :=
  let off := !d.b UART_CTRL_EN u
  let p := bits v 3 2
  let d := d.setR UART_CTRL u (v &&& 0x7FB ||| d.r UART_CTRL u &&& 4)
  let d := if off || !bit v 0 then d.modUart u fun x => { x with path := if p = 3 then 0 else p } else d
  if bit v 0 then d else d.uaStop u

end Sys2Proof.Machine
end

