-- ==== Sys2Proof/Machine/Gpio.lean ====
section
/-! DEFINITION. General-purpose I/O (R526-R533). -/
namespace Sys2Proof.Machine

/-- The function code of pin `j` in the PINMAP in force (R235). -/
def Dev.gpFunc (d : Dev) (j : Nat) : Nat := d.cfg.gpcfg.getD j 0 % 16

/-- Pin `j` is a GPIO pin (R526). -/
def Dev.isGpio (d : Dev) (j : Nat) : Bool :=
  if d.cfg.pinmap then d.gpFunc j == 1 else bit (d.r GPIO_CLAIM (j / 32)) (j % 32)

/-- The input buffer of pin `j` is on (R528). -/
def Dev.gpInput (d : Dev) (j : Nat) : Bool :=
  d.isGpio j || (d.cfg.pinmap && decide (2 ≤ d.gpFunc j) && decide (d.gpFunc j ≤ 5))

/-- The internal pull of pin `j` is on: GPCFG.PULL of any pin while a PINMAP is in force, else that of a GPIO pin (R235,
R526). -/
def Dev.gpPull (d : Dev) (j : Nat) : Bool :=
  if d.cfg.pinmap then bit (d.cfg.gpcfg.getD j 0) 7 else d.isGpio j && bit (d.r GPIO_PULL (j / 32)) (j % 32)

/-- Pin `j` is a fault mirror, and of which rail (R235). -/
def Dev.gpMirror (d : Dev) (j : Nat) : Option Nat :=
  if d.cfg.pinmap && d.gpFunc j == 5 then some (bits (d.cfg.gpcfg.getD j 0) 4 3) else none

/-- LATCH and DIRS of an engine as the ticks up to `k` cycles before cycle `t` left them, none driven before the first
(R472). -/
def drivenAt (t k : Nat) : List (Nat × Nat × Nat) → Nat × Nat
  | [] => (0, 0)
  | x :: h => if x.1 + k ≤ t then x.2 else drivenAt t k h

/-- What the stitch engine of whose group pin `j` is one drives on it: its LATCH bit, while its DIRS bit is 1, as its ticks
up to this cycle left them (R471). -/
def Dev.gpStitch (d : Dev) (j : Nat) : Option Bool :=
  (List.range 8).findSome? fun e =>
    let p := j - d.f STITCHe_GROUP_PINBASE e
    let v := drivenAt d.now 0 (d.stitch.engs.getD e {}).hist
    if d.f STITCHe_GROUP_PINBASE e ≤ j && p < d.f STITCHe_GROUP_PINCOUNT e && bit v.2 p then some (bit v.1 p) else none

/-- Pin `j` is the TX pin of a UART, and of which (R235). -/
def Dev.gpTx (d : Dev) (j : Nat) : Option Nat :=
  let f := d.gpFunc j
  if d.cfg.pinmap && (f == 3 || f == 4) && bits (d.cfg.gpcfg.getD j 0) 4 3 == 0 then some (f - 3) else none

/-- What pin `j` drives from the next cycle on (R235, R471, R503, R527): a group pin of a stitch engine the engine's level; a
fault mirror is low while GUARD_TRIP of its rail is 1; a TX pin its UART's level; none while the pin is released or is none
of them and no driving GPIO pin. -/
def Dev.gpDrive (d : Dev) (j : Nat) : Option Bool :=
  let out := bit (d.r GPIO_OUT (j / 32)) (j % 32)
  match d.gpStitch j with
  | some v => some v
  | none =>
  match d.gpMirror j with
  | some n => some !d.b RAIL_FLAGS_GUARD_TRIP n
  | none =>
  match d.gpTx j with
  | some u => d.uaTx u
  | none =>
  if !d.isGpio j || !bit (d.r GPIO_OE (j / 32)) (j % 32) then none
  else if bit (d.r GPIO_OD (j / 32)) (j % 32) && out then none
  else some out

/-- The bits of word `k` that belong to a pin with its input buffer on (R528). -/
def Dev.gpMask (d : Dev) (k : Nat) : Nat :=
  (List.range (if k = 0 then 32 else 8)).foldl (fun v j => v + b2n (d.gpInput (32 * k + j)) * 2 ^ j) 0

/-- The bits of word `k` that exist: all of register 0, eight of register 1 (R532). -/
def gpBits (k : Nat) : Nat := if k = 0 then 0xFFFFFFFF else 0xFF

/-- A write of GPIO_SETk (R527), in SAFE too (R531). -/
def Dev.gpSet (d : Dev) (k v : Nat) : Dev := d.setR GPIO_OUT k (d.r GPIO_OUT k ||| (v &&& gpBits k))
def execGpioSet (k : Fin 2) (v : Word) (s : State) : Outcome :=
  s.onDev fun d => d.storeTo GPIO_SET k fun d => d.gpSet k v.toNat

/-- A write of GPIO_CLRk (R527), in SAFE too (R531). -/
def Dev.gpClr (d : Dev) (k v : Nat) : Dev :=
  d.setR GPIO_OUT k (d.r GPIO_OUT k - (d.r GPIO_OUT k &&& v))
def execGpioClr (k : Fin 2) (v : Word) (s : State) : Outcome :=
  s.onDev fun d => d.storeTo GPIO_CLR k fun d => d.gpClr k v.toNat

/-! ### The levels at the balls and the edge filter (R528, R529) -/

/-- Something can drive a general pin: an engine has driven one, an output enable is 1, or a PINMAP is in force. -/
def Dev.gpDrives (d : Dev) : Bool :=
  d.cfg.pinmap || d.r GPIO_OE != 0 || d.r GPIO_OE 1 != 0 || (List.range 8).any fun e => !(d.stitch.engs.getD e {}).hist.isEmpty

/-- What the device drives on the balls in the next cycle: which pins, and the high ones among them (R472, R527). -/
def Dev.gpNext (d : Dev) : Nat × Nat :=
  if d.gpDrives then
    (List.range 40).foldl (fun v j =>
      match d.gpDrive j with
      | some x => (v.1 + 2 ^ j, v.2 + b2n x * 2 ^ j)
      | none => v) (0, 0)
  else (0, 0)

/-- The balls pass into the next cycle. A history in which nothing is driven is the empty one. -/
def Dev.gpBalls (d : Dev) : Dev :=
  let l := (d.gpNext :: d.gpio.balls).take 24
  { d with gpio := { d.gpio with balls := if l.all fun x => x.1 == 0 then [] else l } }

/-- The level of pin `j` in GPIO_IN, where the device itself drove the ball two CCLK cycles ago (R528). DESIGN CHOICE (log
77): the pad delay of R550 is left out. -/
def Dev.gpOwn (d : Dev) (j : Nat) : Option Bool :=
  let x := d.gpio.balls.getD (2 * d.cclk + d.now % d.cclk) (0, 0)
  if bit x.1 j then some (bit x.2 j) else none

/-- The input buffers follow the pins' functions: one that turns on has no sample yet, and a filtered level is known only
while the buffer stays on (R529). -/
def Dev.gpScan (d : Dev) : Dev :=
  let on := d.gpMask 0 + d.gpMask 1 * 2 ^ 32
  let g := d.gpio
  { d with gpio := { g with on := on, known := g.known &&& on, fresh := (g.fresh ||| (on - (on &&& g.on))) &&& on } }

/-- Bit `j` of GPIO_IN where the model knows it (R528): what the device drives, or, with no filter, the level of the latest
edge. -/
def Dev.gpLevel (d : Dev) (j : Nat) : Option Bool :=
  match d.gpOwn j with
  | some v => some v
  | none => if bit d.gpio.known j && d.f GPIO_XFILT_FILT 0 == 0 then some (bit d.gpio.filt j) else none

/-- A read of GPIO_INk (R528): a pin without an input buffer reads 0, a level that nothing tells is free. -/
def Dev.gpRead (d : Dev) (k : Nat) : Dev :=
  let (x, d) := d.fresh 32
  d.answer ((List.range (if k = 0 then 32 else 8)).foldl (fun v j =>
    v + b2n (d.gpInput (32 * k + j) && (d.gpLevel (32 * k + j)).getD (bit x j)) * 2 ^ j) 0)

/-- The filtered level of pin `j` is `level` from now on, with no edge. -/
def Dev.gpFilt (d : Dev) (j : Nat) (level : Bool) : Dev :=
  let d := d.setR GPIO_IN (j / 32) (putBits (d.r GPIO_IN (j / 32)) (j % 32) 1 (b2n level))
  { d with gpio := { d.gpio with filt := putBits d.gpio.filt j 1 (b2n level), known := putBits d.gpio.known j 1 1 } }

/-- The flags set in this cycle, which a write of 1 in it leaves at 1 (R13, R529). -/
def Dev.gpKept (d : Dev) : Nat := if d.gpio.hitAt = d.now then d.gpio.hits else 0

/-- The filtered level of pin `j` has an edge to `level` (R529): a selected one sets its flag. -/
def Dev.gpFollow (d : Dev) (j : Nat) (level : Bool) : Dev :=
  let mode := bits (d.r GPIO_EDGE (j / 16)) (2 * (j % 16)) 2
  let d := d.gpFilt j level
  let d := { d with gpio := { d.gpio with edgeAt := d.gpio.edgeAt.setIfInBounds j (d.now + 1) } }
  if if level then mode % 2 == 1 else decide (mode ≥ 2) then
    let d := d.setR GPIO_FLAGS (j / 32) (d.r GPIO_FLAGS (j / 32) ||| 2 ^ (j % 32))
    { d with gpio := { d.gpio with hits := d.gpKept ||| 2 ^ j, hitAt := d.now } }
  else d

/-- One CCLK cycle of the filter of pin `j` (R529), where the device drives the ball itself: the first sample of a buffer
that turned on is its filtered level; a new level that has held for FILT + 1 cycles is followed. Whether it is new is free
where the level before is not known. -/
def Dev.gpFilter (d : Dev) (j : Nat) : Dev :=
  let hold := fun (d : Dev) (k : Nat) => { d with gpio := { d.gpio with held := d.gpio.held.setIfInBounds j k } }
  match if d.gpInput j then d.gpOwn j else none with
  | none => if d.gpio.held.getD j 0 = 0 then d else hold d 0
  | some v =>
    if bit d.gpio.fresh j then hold (d.gpFilt j v) 0
    else if bit d.gpio.known j && bit d.gpio.filt j == v then hold d 0
    else
      let k := d.gpio.held.getD j 0 + 1
      if k ≤ d.f GPIO_XFILT_FILT 0 then hold d k
      else if bit d.gpio.known j then hold (d.gpFollow j v) 0
      else
        let (x, d) := d.fresh 1
        hold (if bit x 0 then d.gpFollow j v else d.gpFilt j v) 0

/-- One CCLK cycle of the edge filters (R529). -/
def Dev.gpCycle (d : Dev) : Dev :=
  let d := if d.gpio.balls.isEmpty then d else d.each (List.range 40) fun j d => d.gpFilter j
  { d with gpio := { d.gpio with fresh := 0 } }

/-- A new edge of pin `j` can have passed the filter: FILT + 1 cycles of CCLK after the one before (R529). -/
def Dev.gpDue (d : Dev) (j : Nat) : Bool :=
  let e := d.gpio.edgeAt.getD j 0
  e == 0 || decide (e - 1 + (d.f GPIO_XFILT_FILT 0 + 1) * d.cclk ≤ d.now)

/-- The filtered level of pin `j`, whose ball the device does not drive, becomes `level` (R529). -/
def Dev.gpEdge (d : Dev) (j : Nat) (level : Bool) : Dev :=
  if !d.gpInput j || (d.gpOwn j).isSome || !d.gpDue j then d
  else if bit d.gpio.known j && bit d.gpio.filt j == level then d
  else d.gpFollow j level

/-- GPIO_EDGE (R529). -/
def execGpioEdge (j : Fin 40) (level : Bool) (s : State) : Outcome := s.onDev fun d => d.gpEdge j level

/-- The pins of GPIO event group `g` (R530). -/
def gpGroup (g : Nat) : List Nat := if g < 16 then [2 * g, 2 * g + 1] else [g + 16]

/-- GPIO event `g` is raised (R530). -/
def Dev.gpRaised (d : Dev) (g : Nat) : Bool :=
  (gpGroup g).any fun j => bit (d.r GPIO_FLAGS (j / 32)) (j % 32) && bit (d.r GPIO_EVEN (j / 32)) (j % 32)

end Sys2Proof.Machine
end

