-- ==== Sys2Proof/Machine/Image.lean ====
section
/-! DEFINITION. The Cladutia image in a configuration plane and its coming into force: header, directory, sections,
records (R224-R243), and the loading of image values (R240, R91, R251). -/
namespace Sys2Proof.Machine

/-! ### Reading a plane (R224, R230, R231) -/

/-- Byte `off` of plane `p`. -/
def pByte (m : Mem) (p off : Nat) : Nat := m.readPlane (0x30000000 + 0x20000 * p + off)

/-- `n` little-endian bytes of plane `p` at `off`. -/
def pLe (m : Mem) (p off : Nat) : Nat → Nat
  | 0 => 0
  | n + 1 => pByte m p off + 256 * pLe m p (off + 1) n

/-- `n` bytes of plane `p` at `off`, in ascending order. -/
def pBytes (m : Mem) (p off n : Nat) : List Nat := (List.range n).map fun i => pByte m p (off + i)

/-- A directory entry (R231). -/
structure Ent where
  dir : Nat
  typ : Nat
  index : Nat
  fmt : Nat
  rsv : Nat
  off : Nat
  len : Nat
  crc : Nat
  deriving DecidableEq, Repr, Inhabited

/-- Directory entry `k` of plane `p`. -/
def dirEnt (m : Mem) (p k : Nat) : Ent :=
  let o := 0x40 + 16 * k
  ⟨k, pByte m p o, pByte m p (o + 1), pByte m p (o + 2), pByte m p (o + 3), pLe m p (o + 4) 4, pLe m p (o + 8) 4,
    pLe m p (o + 12) 4⟩

/-- The entries of plane `p` that are not empty, in directory order. -/
def dirList (m : Mem) (p : Nat) : List Ent := ((List.range 64).map (dirEnt m p)).filter fun e => e.typ != 0

/-- The section of a type and index, at its lowest directory index. -/
def findSec (dir : List Ent) (typ index : Nat) : Option Ent := dir.find? fun e => e.typ == typ && e.index == index

/-- The owner of an entry: 8 is the device, 0 to 7 a rail (R233). -/
def Ent.owner (e : Ent) : Nat :=
  if e.typ = 1 || e.typ = 6 || e.typ = 7 then 8
  else if (e.typ = 4 || e.typ = 5) && e.index = 0xFF then 8 else e.index

/-- The active plane of an owner (R228). -/
def Dev.activePlane (d : Dev) (owner : Nat) : Nat :=
  if owner = 8 then d.f CFG_STAT_DEV_PLANE else bits (d.f CFG_STAT_RAIL_PLANE) owner 1

/-- A section is in force (R228). -/
def Dev.inForce (d : Dev) (p : Nat) (e : Ent) : Bool :=
  d.b CFG_STAT_FABRIC_ON && d.activePlane e.owner == p

/-- A byte of plane `p` is in force: it belongs to a section in force, to its directory entry, or to the header of a
plane with any section in force (R38, R228). -/
def Dev.byteInForce (d : Dev) (m : Mem) (p off : Nat) : Bool :=
  let live := (dirList m p).filter (d.inForce p)
  live.any fun e => (e.off ≤ off && off < e.off + e.len) ||
    (0x40 + 16 * e.dir ≤ off && off < 0x50 + 16 * e.dir) || off < 0x40

/-- The background CRC mismatch stays pending only while its section is in force (R226). -/
def Dev.showBg (d : Dev) (m : Mem) : Dev :=
  let p := d.f CFG_BGCRC_PLANE
  if d.b CFG_BGCRC_PENDING && !d.inForce p (dirEnt m p (d.f CFG_BGCRC_SECT)) then d.setB CFG_BGCRC_PENDING 0 false else d

/-- The in-force state of an owner's sections changes: the background CRC leaves them out of this pass (R226). Owner 8 is
the device. -/
def Dev.noteForce (d : Dev) (owner : Nat) : Dev := d.modCfg fun c => { c with changed := putBits c.changed owner 1 1 }

/-- A PARAM or PROTECT record (R238). -/
structure Rec where
  space : Nat
  off : Nat
  index : Nat
  rsv : Nat
  value : Nat
  deriving DecidableEq, Repr, Inhabited

/-- The records of a PARAM or PROTECT section. -/
def recsOf (m : Mem) (p : Nat) : Option Ent → List Rec
  | none => []
  | some e =>
    (List.range (min (pLe m p e.off 4) 1024)).map fun k =>
      let o := e.off + 4 + 8 * k
      let t := pLe m p o 2
      ⟨t / 4096, t % 4096, pByte m p (o + 2), pByte m p (o + 3), pLe m p (o + 4) 4⟩

/-- The bus address of a record's register, for the section of rail `n` (R239). -/
def Rec.addr (x : Rec) (n : Nat) : Nat :=
  match x.space with
  | 0 => 0x50000000 + 0x1000 * n + x.off
  | 1 => 0x50020100 + 0x20 * n + x.off
  | 2 => 0x50020200 + 0x20 * n + x.off
  | 3 => 0x50010000 + 0x100 * x.index + x.off
  | 4 => 0x50010000 + 0x400 * x.index + x.off
  | 5 => 0x50020000 + x.off
  | _ => 0x40001000 + x.off

/-- The slices a TOPOLOGY names: positions and spares (R236). -/
def topoOf (m : Mem) (p : Nat) (e : Ent) : List Nat × List Nat :=
  (((List.range (min (pByte m p e.off) 32)).map fun j => pByte m p (e.off + 4 + j)),
   ((List.range (min (pByte m p (e.off + 1)) 4)).map fun s => pByte m p (e.off + 0x24 + s)))

/-! ### Values a write or an image derives (R56, R87, R134) -/

/-- XSLEWSTEP.STEP from SLEW: round (SLEW × 262.144) (R87). -/
def stepOfSlew (slew : Nat) : Nat := (rdiv ((slew : Int) * 262144) 1000).toNat

/-- XLLGAIN.GAIN from LOADLINE in µΩ (R56). -/
def gainOfLoadline (ll : Nat) : Nat := (rdiv ((ll : Int) * 2 ^ 22) 2000).toNat

/-- GSL: the smallest g from 0 to 15 with COUT × 2 / (5 × 2^(DSPAN + g)) < 2 (R134). -/
def gslOf (cout dspan : Nat) : Nat :=
  ((List.range 16).find? fun g => cout * 2 < 2 * (5 * 2 ^ (dspan + g))).getD 15

/-- The XTEKSL register value for a capacitance (R134). -/
def kslOf (cout dspan : Nat) : Nat :=
  let g := gslOf cout dspan
  (rdiv ((cout : Int) * 2 ^ 23) (5 * 2 ^ (dspan + g))).toNat % 2 ^ 24 + g * 2 ^ 24

/-- The image registers of a rail block, by offset (R83, R88, R130, R132, R180; R239 leaves out XCTL, XGRAPH, XCOEF,
XCOEFACT and SPARES). -/
def railImageOffs : List Nat :=
  [0x00C, 0x010, 0x014, 0x018, 0x01C, 0x040, 0x044, 0x080, 0x084, 0x088, 0x08C, 0x090, 0x108, 0x10C, 0x110, 0x114, 0x118,
   0x11C, 0x120, 0x124, 0x128, 0x12C, 0x130, 0x134, 0x240, 0x244, 0x248, 0x24C, 0x250, 0x254, 0x280, 0x284, 0x288, 0x28C,
   0x290, 0x294, 0x298, 0x29C]

/-- Put an image value into the register at `a`: staged, in force where the register is a rail expert register, and
as the image value (R253). HMRAIL_CTRL.CLEAR, which is write-only, is not stored. -/
def Dev.load (d : Dev) (a v : Nat) : Dev :=
  let v := if 0x50020100 ≤ a && a < 0x50020200 && a % 0x20 = 0 then putBits v 3 1 0 else v
  let d := (d.wr a v).setIm a v
  if 0x50000000 ≤ a && a < 0x50008000 && a % 0x1000 ≥ 0x100 then d.setAr a v else d

/-- RVD and RVO of R100 from the latest VIN and the target. -/
def Dev.reckonRv (d : Dev) (n : Nat) : Dev :=
  let vin := d.f RAIL_VIN_VIN n
  let vt := d.f RAIL_VTARGET_VTARGET n / 4
  d.modTe n fun t =>
    { t with rvd := (rdiv (2 ^ 32 : Nat) (max (vin - vt) 1000)).toNat, rvo := (rdiv (2 ^ 32 : Nat) (max vt 250)).toNat }

/-- Load the PARAM and PROTECT records of rail `n` from plane `p` and derive the expert counterparts (R240, R254).
`slices` are the slices the plane gives the rail. -/
def Dev.loadRecords (d : Dev) (m : Mem) (n p : Nat) (dir : List Ent) (slices : List Nat) : Dev :=
  let recs := recsOf m p (findSec dir 4 n) ++ recsOf m p (findSec dir 5 n)
  let d := d.each railImageOffs fun o d => d.load (0x50000000 + 0x1000 * n + o) 0
  let d := d.each [0x0, 0x4] fun o d => d.load (0x50020100 + 0x20 * n + o) 0
  let d := d.each [0x0, 0x4, 0x8, 0xC, 0x10, 0x14] fun o d => d.load (0x50020200 + 0x20 * n + o) 0
  let d := d.each slices fun i d => d.each [0x80, 0x84, 0x88] fun o d => d.load (0x50010000 + 0x100 * i + o) 0
  let d := d.each recs fun x d => d.load (x.addr n) x.value
  let named := fun o => recs.any fun x => x.space == 0 && x.off == o
  let base := 0x50000000 + 0x1000 * n
  let d := if named 0x108 then d.load (base + 0x010) 0
    else d.load (base + 0x108) (stepOfSlew (d.f RAIL_SLEW_SLEW n))
  let d := if named 0x10C then d.load (base + 0x014) 0xFFF
    else d.load (base + 0x10C) (gainOfLoadline (d.f RAIL_LOADLINE_LL n))
  if named 0x248 then d.load (base + 0x044) 0
  else d.load (base + 0x248) (kslOf (d.f RAIL_TE_COUT_COUT n) (d.a RAIL_XTEDET_DSPAN n))

/-- Load the LOOP section: graph, decimation and coefficients, staged and in force; all 0 where the plane holds none (R237,
R240). -/
def Dev.loadLoop (d : Dev) (m : Mem) (n p : Nat) (sect : Option Ent) : Dev :=
  let get := fun (f : Ent → Nat) => (sect.map f).getD 0
  let graph := get fun e => pLe m p e.off 4
  let ncoef := get fun e => min (pByte m p (e.off + 4)) 32
  let d := (d.setR RAIL_XGRAPH n graph).setIm (RAIL_XGRAPH.addr n) graph
  let d := d.load (RAIL_XCTL.addr n) (get fun e => pByte m p (e.off + 5))
  d.each (List.range 32) fun k d =>
    let v := if k < ncoef then get fun e => pLe m p (e.off + 8 + 4 * k) 4 else 0
    let d := d.setR2 RAIL_XCOEF n k v |>.setR2 RAIL_XCOEFACT n k v
    d.setIm (RAIL_XCOEF.addr2 n k) v

/-- The role and state a slice takes when a plane of its rail takes force (R251). `toMember` and `toSpare` are its new
roles; both false is unassigned. -/
def Dev.reRole (d : Dev) (n i : Nat) (pos : Option Nat) (toSpare : Bool) : Dev :=
  let role := d.sRole i
  let st := d.sState i
  let new := if pos.isSome then roleMember else if toSpare then roleSpare else roleNone
  let d := if new = role then d else d.freshCond i
  match pos with
  | some j =>
    let d := d.setF SLICE_STAT_ROLE i roleMember |>.setF SLICE_STAT_RAIL i n |>.setF SLICE_STAT_POSITION i j
    if role = roleMember then d
    else if role = roleSpare && st != stFree then d
    else d.setState i stShed
  | none =>
    if toSpare then
      let d := d.setF SLICE_STAT_ROLE i roleSpare |>.setF SLICE_STAT_RAIL i n |>.setF SLICE_STAT_POSITION i 0xFF
      if role = roleSpare then d
      else if role = roleMember && st = stFaulted then d
      else
        (d.leave n i (max d.w0 (d.rail n).sq.bEdge)).setState i stFree
    else if st = stFaulted || st = stCal || st = stReadmit then d
    else
      let d := d.leave n i (max d.w0 (d.rail n).sq.bEdge)
      d.setF SLICE_STAT_ROLE i roleNone |>.setState i 0 |>.setF SLICE_STAT_RAIL i 0 |>.setF SLICE_STAT_POSITION i 0xFF

/-- The in-force trims of a slice follow its expert registers (R186, R240). -/
def Dev.trimsFromX (d : Dev) (i : Nat) : Dev :=
  d.setR SLICE_OFS i (d.f SLICE_XOFS_OFS i) |>.setR SLICE_KI i (d.f SLICE_XKI_KI i) |>.setR SLICE_LQ i (d.r SLICE_XLQ i)

/-- SLICE_CTRL.EXPERT (R187). -/
def Dev.showSliceExpert (d : Dev) (i : Nat) : Dev :=
  d.setB SLICE_CTRL_EXPERT i
    (d.f SLICE_KI_KI i != d.im (SLICE_XKI.addr i) % 2 ^ 24 || (d.slice i).xset)

/-- Staged trims of slice `i` take force: those of the mask `w`, 1 OFS, 2 KI, 4 LQ and DCR (R186, R187). DESIGN CHOICE (log
78): a write that still waits when its slice becomes unassigned without a boundary never takes force. -/
def Dev.trimTake (d : Dev) (i w : Nat) : Dev :=
  let d := if bit w 0 then d.setR SLICE_OFS i (d.f SLICE_XOFS_OFS i) else d
  let d := if bit w 1 then d.setR SLICE_KI i (d.f SLICE_XKI_KI i) else d
  let d := if bit w 2 then d.setR SLICE_LQ i (d.r SLICE_XLQ i) else d
  (d.modSlice i fun s => { s with wait := 0, xset := s.xset || bit w 0 || bit w 2 }).showSliceExpert i

/-- CHAIN_CTRL.EXPERT: an expert value differs from the image's, or from the reset value while no section is in force (R17,
R223). -/
def Dev.showChainExpert (d : Dev) : Dev :=
  let own := fun (g : Reg) => d.r g != if d.b CFG_STAT_FABRIC_ON then d.im (g.addr 0) else g.reset
  d.setB CHAIN_CTRL_EXPERT 0 (own CHAIN_XTIME || own CHAIN_XHOPADJ)

/-- HM_CTRL.EXPERT from the rails whose expert values are in force (R136). -/
def Dev.showHmExpert (d : Dev) : Dev := d.setB HM_CTRL_EXPERT 0 (d.hm.xwritten != 0)

/-- A span channel of rail `n` leaves force. -/
def Dev.dropSpan (d : Dev) (n : Nat) : Dev :=
  d.each [0, 1] fun c d =>
    if (d.span c).used && d.f CHAIN_SPANc_STAT_RAIL c == n then
      (d.modSpan c fun _ => {}).setR CHAIN_SPANc_STAT c 0 |>.setR CHAIN_SPANc_MEMB c 0
    else d

/-- The rail-wide positions that the image gives this device on channel `c`, in plan order (R243). -/
def Dev.spanPositions (d : Dev) (n c : Nat) : Dev :=
  let plan := (d.span c).planImg
  d.modSq n fun q => { q with planIdx := (List.range plan.length).filter fun k => plan.getD k 255 == d.f CHAIN_STAT_POS }

/-- A SPAN section comes into force: the channel's role, lead, deputy, members and plan (R223, R243). -/
def Dev.loadSpan (d : Dev) (m : Mem) (n p : Nat) (e : Ent) : Dev :=
  let c := pByte m p e.off % 2
  let lead := pByte m p (e.off + 1)
  let dep := pByte m p (e.off + 2)
  let pos := d.f CHAIN_STAT_POS
  let plan := pBytes m p (e.off + 8) (min (pLe m p (e.off + 6) 2) 256)
  let role := if pos = lead then 1 else if pos = dep then 2 else 3
  let d := d.modSpan c fun s => { s with used := true, plan := plan, planImg := plan }
  let d := d.setR CHAIN_SPANc_STAT c (role + n * 2 ^ 8 + lead % 16 * 2 ^ 16 + dep % 16 * 2 ^ 20)
  (d.setF CHAIN_SPANc_MEMB_MEMBERS c (pLe m p (e.off + 4) 2)).spanPositions n c

/-- The span channel of rail `n`, if it spans devices. -/
def Dev.spanOf (d : Dev) (n : Nat) : Option Nat :=
  [0, 1].find? fun c => (d.span c).used && d.f CHAIN_SPANc_STAT_RAIL c == n

/-- A level-2 node keeps its states when the old graph held the same type fed from the same input (R91). -/
def keepsNode (old new lo inBit : Nat) : Bool :=
  bits old lo 4 == bits new lo 4 && (bits old lo 4 == 4 || bit old inBit == bit new inBit)

/-- SLICE_STAT.POSITION of the members shows the plan position, rail-wide on a spanning rail (R185, R243). -/
def Dev.relabel (d : Dev) (n : Nat) : Dev :=
  let q := (d.rail n).sq
  d.each (q.plan.zip q.planIdx) fun p d => d.setF SLICE_STAT_POSITION p.1 p.2

/-- The local positions that slices in calibration are to take back follow their covers from plan `old` to plan `new`: R251
keeps the cover a member, and its place in the new plan may be another (R177, R185). -/
def Dev.moveCovers (d : Dev) (n : Nat) (old new : List Nat) : Dev :=
  d.each (d.slicesOf n) fun i d =>
    d.modCal i fun c => { c with pos := c.pos.bind fun j => old[j]?.bind new.idxOf? }

/-- The sections of rail `n` in plane `p` take force (R91, R240, R251): roles and plan, every basic and expert value, the loop
graph with its states carried over; a waiting commit is discarded with WHY 3. RAIL_PLANE names the plane. DESIGN CHOICE (log
70): a level-2 node that does not keep its states holds the output 0 until its next update. -/
def Dev.takeRail (d : Dev) (m : Mem) (n p : Nat) : Dev :=
  let dir := dirList m p
  let d := ((d.setF CFG_STAT_RAIL_PLANE 0 (putBits (d.f CFG_STAT_RAIL_PLANE) n 1 p)).noteForce n).showBg m
  let topo := (findSec dir 2 n).map (topoOf m p)
  let (plan, spares) := topo.getD ([], [])
  let oldSlices := (List.range 32).filter fun i => d.sRole i != roleNone && d.sRail i == n
  let all := oldSlices ++ (plan ++ spares).filter fun i => !oldSlices.contains i
  let d := d.each all fun i d => d.reRole n i (plan.idxOf? i) (spares.contains i)
  let d := d.moveCovers n (d.rail n).sq.plan plan
  let oldGraph := d.r RAIL_XGRAPH n
  let busy := d.b RAIL_XSTAT_COMMIT_BUSY n
  let d := if busy then (d.raise RAIL_FLAGS_COMMIT_REFUSED n).setF RAIL_XSTAT_WHY n 3 else d
  let d := d.setB RAIL_XSTAT_COMMIT_BUSY n false |>.setB RAIL_XSTAT_PENDING n false
  let d := d.modRail n fun x => { x with wait := none, xset := [], basic := [], loaded := topo.isSome }
  let d := d.setB RAIL_CTRL_EXPERT n false
  let d := d.loadRecords m n p dir (plan ++ spares)
  let d := d.loadLoop m n p (findSec dir 3 n)
  let d := d.each (plan ++ spares) fun i d =>
    ((d.trimsFromX i).modSlice i fun s => { s with xset := false, wait := 0 }).showSliceExpert i
  let d := { d with hm := { d.hm with xwritten := putBits d.hm.xwritten n 1 0 } }.showHmExpert
  let newGraph := d.r RAIL_XGRAPH n
  let d := d.modLp n fun l =>
    { l with n0 := if keepsNode oldGraph newGraph 0 9 then l.n0 else {}
             n1 := if keepsNode oldGraph newGraph 4 10 then l.n1 else {}
             cbal := l.cbal && bit oldGraph 8 && bit newGraph 8
             delta := if bit oldGraph 8 && bit newGraph 8 then l.delta else 0 }
  let d := d.setB RAIL_STAT_CBAL_ACTIVE n (d.rail n).lp.cbal
  let d := d.modSq n fun q =>
    { q with plan := plan, spares := spares, swapTo := none, absent := topo.isNone
             tsw := d.f RAIL_PWM_TSW n }
  -- a rail that runs on its channel keeps the channel's state (R210; log 73)
  let keeps := fun (e : Ent) => d.b RAIL_STAT_ENABLED n && d.spanOf n == some (pByte m p e.off % 2)
  let d := match findSec dir 8 n with
    | some e => if keeps e then d.spanPositions n (pByte m p e.off % 2) else (d.dropSpan n).loadSpan m n p e
    | none => (d.dropSpan n).modSq n fun q => { q with planIdx := List.range plan.length }
  (d.relabel n).reckonRv n |>.showSeq n

/-- HM_CTRL.PORT_EN has been loaded, `was` before (R136): stopping the port discards a partial frame and ends a stuck state
without STUCK_CLR; after a start the first edge needs the GAP idle time. -/
def Dev.portLoaded (d : Dev) (was : Bool) : Dev :=
  if d.b HM_CTRL_PORT_EN then
    (if was then d else { d with hm := { d.hm with edgeAt := some d.now, longOpen := false, longAt := none } })
  else d.setB HM_PORTSTAT_STUCK 0 false |>.setF HM_PORTSTAT_EDGES 0 0

/-- The device sections of plane `p`, STITCH excepted, take force (R234, R239, R240, R242, R250). `fresh` is true of a
fabric enable, at which every unit takes its entry; at a swap only units whose entry changed do, one
that a capture holds at its release (R265, R273). -/
def Dev.takeDevice (d : Dev) (m : Mem) (p : Nat) (fresh : Bool) : Dev :=
  let dir := dirList m p
  let d := ((d.setF CFG_STAT_DEV_PLANE 0 p).noteForce 8).showBg m
  let was := d.presentSlices
  let d := match findSec dir 1 0 with
    | none => d
    | some e =>
      let d := d.each (List.range 32) fun i d =>
        let b := pByte m p (e.off + i)
        d.modSlice i fun s => { s with present := bit b 0, isinv := bit b 1 }
      d.modCfg fun c =>
        { c with gpcfg := pBytes m p (e.off + 0x20) 40, vinsScale := pLe m p (e.off + 0x48) 4
                 bankv := pByte m p (e.off + 0x4C), enpin := pByte m p (e.off + 0x4D), pinmap := true }
  let d := d.gpScan.slicesGone (was.filter fun i => !(d.slice i).present)
  let owned := (List.range 8).flatMap fun n =>
    match findSec dir 2 n with
    | some e => (topoOf m p e).1 ++ (topoOf m p e).2
    | none => []
  let loose := (List.range 32).filter fun i => !owned.contains i
  let d := d.each (List.range 8) fun k d =>
    (d.load (CL_CTRL.addr k) 0).load (CL_OTLIM.addr k) 0
  let d := d.each loose fun i d => d.each [0x80, 0x84, 0x88] fun o d => d.load (0x50010000 + 0x100 * i + o) 0
  let hmKeep := d.r HM_CTRL
  let portWas := d.b HM_CTRL_PORT_EN
  let d := d.load (CHAIN_XTIME.addr 0) CHAIN_XTIME.reset |>.load (CHAIN_XHOPADJ.addr 0) CHAIN_XHOPADJ.reset
  let d := d.load (HM_CTRL.addr 0) 0
  let recs := recsOf m p (findSec dir 4 0xFF) ++ recsOf m p (findSec dir 5 0xFF)
  let d := d.each recs fun x d => d.load (x.addr 0) x.value
  let d := d.showChainExpert.setR HM_CTRL 0 (putBits (d.r HM_CTRL) 1 2 (bits hmKeep 1 2))
  let d := d.portLoaded portWas
  let d := d.each loose fun i d =>
    ((d.trimsFromX i).modSlice i fun s => { s with xset := false, wait := 0 }).showSliceExpert i
  let d := match findSec dir 7 0 with
  | none => d
  | some e =>
    d.each (List.range 64) fun u d =>
      let v := pLe m p (e.off + 4 * u) 4
      let old := d.im (ACCUMu_XROUTE.addr u)
      let d := d.setIm (ACCUMu_XROUTE.addr u) v
      if fresh || v != old then
        let d := d.setR ACCUMu_XROUTE u v |>.modUnit u fun x => { x with expert := false, own := v }
        if d.b ACCUMu_CFG_HELD u then d else d.setRoute u v false
      else d
  d.showAccumExpert

end Sys2Proof.Machine
end

