-- ==== Sys2Proof/Machine/Expert.lean ====
section
/-! DEFINITION. The staged expert set of a rail: commit, its check, taking force, revert, and the basic writes that set
an expert counterpart (R87, R88-R92, R134, R183). -/
namespace Sys2Proof.Machine

/-- The expert registers of a rail that a commit brings into force, by offset, the coefficients apart. -/
def railExpertOffs : List Nat :=
  [0x100, 0x108, 0x10C, 0x110, 0x114, 0x118, 0x11C, 0x120, 0x124, 0x128, 0x12C, 0x130, 0x134, 0x240, 0x244, 0x248, 0x24C,
   0x250, 0x254, 0x280, 0x284, 0x288, 0x28C, 0x290, 0x294, 0x298, 0x29C]

/-- The offsets of the coefficient slots. -/
def coefOffs : List Nat := (List.range 32).map fun k => 0x140 + 4 * k

/-- The value in force of the expert register at offset `o`: a coefficient's is its XCOEFACT register (R88). -/
def Dev.forceAt (d : Dev) (n o : Nat) : Nat :=
  if 0x140 ≤ o && o < 0x1C0 then d.rd (0x50000000 + 0x1000 * n + o + 0x80)
  else (Store.get regDflt d.act (0x50000000 + 0x1000 * n + o)).toNat

/-- Put a value in force at offset `o`. -/
def Dev.setForce (d : Dev) (n o v : Nat) : Dev :=
  if 0x140 ≤ o && o < 0x1C0 then d.wr (0x50000000 + 0x1000 * n + o + 0x80) v
  else d.setAr (0x50000000 + 0x1000 * n + o) v

/-- The staged set as pairs of offset and value. -/
def Dev.staged (d : Dev) (n : Nat) : List (Nat × Nat) :=
  (railExpertOffs ++ coefOffs).map fun o => (o, d.rd (0x50000000 + 0x1000 * n + o))

/-- RAIL_XSTAT.PENDING follows the staged set (R89). -/
def Dev.showExpert (d : Dev) (n : Nat) : Dev :=
  d.setB RAIL_XSTAT_PENDING n ((d.staged n).any fun p => p.2 != d.forceAt n p.1)

/-- 0.96875 in Q2.22. -/
def dMaxLimit : Nat := 0x3E0000

/-- The checks of a commit, lowest code first (R89, R183); 0 when all pass. DESIGN CHOICE (log 68): a staged STEP of 0,
outside the range that R88 states, is refused by none of them; it is stored and a commit brings it into force. -/
def Dev.commitWhy (d : Dev) (n : Nat) : Nat :=
  let dmin := d.f RAIL_XDMIN_DMIN n
  let dmax := d.f RAIL_XDMAX_DMAX n
  if dmin ≥ dmax || dmax > dMaxLimit then 1
  else if d.f RAIL_XCTL_DECIM n = 7 then 2
  else if d.f RAIL_XSEQ_TONMIN n + d.f RAIL_XSEQ_TOFFMIN n ≥ d.f RAIL_PWM_TSW n then 4
  else 0

/-- The image-level value of the expert register at offset `o`: what a basic write gave since the image, else the image's
(R92). -/
def Dev.levelAt (d : Dev) (n o : Nat) : Nat :=
  (((d.rail n).basic.find? fun p => p.1 == o).map (·.2)).getD (d.im (0x50000000 + 0x1000 * n + o))

/-- COMMIT_TAKE_FORCE: the waiting set takes force together (R90). DESIGN CHOICE (log 68): of its values, those that differ
from the image-level one are the committed expert values of R92. -/
def Dev.commitTake (d : Dev) (n : Nat) : Dev :=
  match (d.rail n).wait with
  | none => d
  | some ws =>
    let changed := (ws.filter fun p => p.2 != d.levelAt n p.1).map (·.1)
    let d := d.each ws fun p d => d.setForce n p.1 p.2
    let d := d.modRail n fun x => { x with wait := none, xset := changed }
    let d := d.setB RAIL_XSTAT_COMMIT_BUSY n false |>.inc RAIL_XSTAT_COMMITS n |>.raise RAIL_FLAGS_COMMIT_DONE n
    (d.showExpert n).setB RAIL_CTRL_EXPERT n true

/-- The loop graph of rail `n` runs (R90). -/
def Dev.loopRuns (d : Dev) (n : Nat) : Bool := (d.rail n).phase == .running

/-- EXPERT_COMMIT: the staged set is checked and waits for its update instant; where the loop graph does not run it takes
force at once (R90). A commit that is checked while another waits replaces nothing: the staged set is for a later
commit. -/
def Dev.commitRequest (d : Dev) (n : Nat) : Dev :=
  let why := d.commitWhy n
  if why != 0 then (d.raise RAIL_FLAGS_COMMIT_REFUSED n).setF RAIL_XSTAT_WHY n why
  else if (d.rail n).wait.isSome then d
  else
    let d := d.modRail n fun x => { x with wait := some (d.staged n) }
    let d := d.setB RAIL_XSTAT_COMMIT_BUSY n true
    if d.loopRuns n then d else d.commitTake n

/-- EXPERT_REVERT: every parameter returns to its image value, staged and in force; a waiting commit is dropped (R89). -/
def Dev.revertRail (d : Dev) (n : Nat) : Dev :=
  let base := 0x50000000 + 0x1000 * n
  let d := d.each railImageOffs fun o d => d.wr (base + o) (d.im (base + o))
  let d := d.each (railExpertOffs ++ coefOffs) fun o d =>
    (d.wr (base + o) (d.im (base + o))).setForce n o (d.im (base + o))
  let d := d.modRail n fun x => { x with wait := none, xset := [], basic := [] }
  let d := d.setB RAIL_XSTAT_COMMIT_BUSY n false |>.setB RAIL_XSTAT_PENDING n false
  (d.setB RAIL_CTRL_EXPERT n false).reckonRv n

/-- A basic write sets the staged and in-force values of its expert counterpart at offset `o`, and the value in a waiting
commit; the parameter counts as an image-level setting again, and EXPERT stays 1 only while another committed expert value
is in force (R92). -/
def Dev.setCounterpart (d : Dev) (n o v : Nat) : Dev :=
  let d := (d.wr (0x50000000 + 0x1000 * n + o) v).setForce n o v
  let last := (d.rail n).xset.all (· == o)
  let d := d.modRail n fun x =>
    { x with xset := x.xset.filter (· != o), basic := (o, v) :: x.basic.filter fun p => p.1 != o
             wait := x.wait.map fun ws => ws.map fun p => if p.1 = o then (o, v) else p }
  (if last then d.setB RAIL_CTRL_EXPERT n false else d).showExpert n

/-- A basic write refused by R55: WR_REJ, the register unchanged. -/
def Dev.railReject (d : Dev) (n : Nat) : Dev := d.raise RAIL_FLAGS_WR_REJ n

/-- VTARGET, SLEW and LOADLINE of a member other than the lead come from the ring (R214). -/
def Dev.followsTarget (d : Dev) (n : Nat) : Bool :=
  match d.spanOf n with
  | some c => d.f CHAIN_SPANc_STAT_ROLE c != 1
  | none => false

/-- RAIL_SLEW write (R55, R87, R92). -/
def Dev.writeSlew (d : Dev) (n v : Nat) : Dev :=
  let x := bits v 0 16
  if x = 0 || x > 60000 || d.followsTarget n then d.railReject n
  else (d.setF RAIL_SLEW_SLEW n x).setCounterpart n 0x108 (stepOfSlew x)

/-- RAIL_LOADLINE write (R55, R56, R92). -/
def Dev.writeLoadline (d : Dev) (n v : Nat) : Dev :=
  let x := bits v 0 12
  if x > 3999 || d.followsTarget n then d.railReject n
  else (d.setF RAIL_LOADLINE_LL n x).setCounterpart n 0x10C (gainOfLoadline x)

/-- RAIL_ILIMIT write (R55). -/
def Dev.writeIlimit (d : Dev) (n v : Nat) : Dev :=
  if toS 16 (bits v 16 16) > bits v 0 16 then d.railReject n else d.setR RAIL_ILIMIT n v

/-- RAIL_SOFTSTART write (R55). -/
def Dev.writeSoftstart (d : Dev) (n v : Nat) : Dev :=
  if bits v 24 8 = 0 then d.railReject n else d.setR RAIL_SOFTSTART n v

/-- RAIL_TE_COUT write (R55, R131, R134), for the DSPAN in force. -/
def Dev.writeTeCout (d : Dev) (n v : Nat) : Dev :=
  let x := bits v 0 16
  if x = 0 then d.railReject n
  else (d.setF RAIL_TE_COUT_COUT n x).setCounterpart n 0x248 (kslOf x (d.a RAIL_XTEDET_DSPAN n))

/-- RAIL_PWM write (R147): TSW takes effect at the next boundary. -/
def Dev.writePwm (d : Dev) (n v : Nat) : Dev :=
  let x := bits v 0 16
  if x < 6400 || x > 64000 then d.railReject n else d.setR RAIL_PWM n (v % 2 ^ 19)

/-- RAIL_ADDSHED write (R147). -/
def Dev.writeAddShed (d : Dev) (n v : Nat) : Dev :=
  if bits v 16 16 ≥ bits v 0 16 || bits v 0 16 = 0 then d.railReject n else d.setR RAIL_ADDSHED n v

/-- The store part of a RAIL_VTARGET write: range, then the register; RVD and RVO follow (R54, R55, R100). On the lead of
a spanning rail SPAN_TARGET announces it (R214). -/
def Dev.writeVtarget (d : Dev) (n v : Nat) : Dev :=
  let x := bits v 0 16
  if x < 0x04B0 || x > 0x1F40 || d.followsTarget n then d.railReject n
  else (d.setF RAIL_VTARGET_VTARGET n x).reckonRv n

end Sys2Proof.Machine
end

