-- ==== Sys2Proof/Machine/Guard.lean ====
section
/-! DEFINITION. The spec guard's shutdowns: causes and methods, start, hand-over, discharge, end (R164-R171), and the
plane change that waits for a shutdown (R250). -/
namespace Sys2Proof.Machine

/-- Shutdown causes of R166. -/
abbrev causeWinOv : Nat := 0x01
abbrev causeWinUv : Nat := 0x02
abbrev causeHealth : Nat := 0x03
abbrev causeSenseOpen : Nat := 0x04
abbrev causeHoldover : Nat := 0x05
abbrev causeSpan : Nat := 0x06
abbrev causeSafe : Nat := 0x07
abbrev causeEnClear : Nat := 0x08
abbrev causeEnpin : Nat := 0x09
abbrev causeVin : Nat := 0x0A
abbrev causeSwapOff : Nat := 0x0B

/-- Causes whose method is fast discharge (R166). -/
def causeFast (c : Nat) : Bool := c == causeWinOv || c == causeSenseOpen || c == causeVin

/-- Causes that set GUARD_TRIP and assert FAULT_N (R166). -/
def causeTrips (c : Nat) : Bool := !(c == causeEnClear || c == causeEnpin || c == causeSwapOff)

/-- 8 × VDIS, the reference of fast discharge in 0.125 mV (R167). -/
def Dev.vdisRef (d : Dev) (n : Nat) : Nat := 8 * d.a RAIL_XDIS_VDIS n

/-- A swap has completed on every owner: SWAP_DONE (R250). -/
def Dev.swapSettle (d : Dev) : Dev :=
  if d.cfg.swapOpen && d.cfg.devTo.isNone && (List.range 8).all fun n => (d.rail n).sq.swapTo.isNone then
    let d := d.modCfg fun c => { c with swapOpen := false }
    (d.raise CFG_FLAGS_SWAP_DONE).setB CFG_STAT_DEV_PEND 0 false
  else d

/-! ### Predictions as their registers show them (R115-R118, R131, R139) -/

/-- HM_TIME has reached `c`, by the signed 32-bit difference (R115). -/
def Dev.due (d : Dev) (c : Nat) : Bool := decide (tdiff (d.r HM_TIME) c ≥ 0)

/-- W_END (R115). -/
def Pred.wEnd (p : Pred) : Nat := tadd p.ts (8 * p.wLate + 16 * p.rise)

/-- SG (R118). -/
def Pred.sg (p : Pred) : Nat := max 1 p.rise

/-- Every segment has been placed or cancelled (R116). -/
def Pred.schedDone (p : Pred) : Bool := p.cancelled || p.preFrac == 0 || p.j0 ≥ p.sg

/-- The direction, true for down, in which Hawkmoth arms the engine: the ACTIVE prediction's up to W_END or its reversal
(R94, R117). -/
def Dev.armsNow (d : Dev) (n : Nat) : Option Bool :=
  match (d.hr n).act with
  | some p => if p.armed && !d.due p.wEnd then some p.down else none
  | none => none

/-- RAIL_TE_STAT.ARMED and ARMDIR, and SCHED there and in HMRAILn_STAT, at this moment (R131, R139). -/
def Dev.showArm (d : Dev) (n : Nat) : Dev :=
  let sched := (d.hr n).act.any fun p => p.j0 > 0 && !p.schedDone
  let d := d.setB RAIL_TE_STAT_ARMED n (d.armsNow n).isSome |>.setB RAIL_TE_STAT_SCHED n sched
    |>.setB HMRAIL_STAT_SCHED n sched
  match d.armsNow n with
  | some dn => d.setB RAIL_TE_STAT_ARMDIR n dn
  | none => d

/-- HMRAILn_STAT and its neighbours show the ACTIVE prediction (R139). DESIGN CHOICE (log 71): while none is held, DIR, SRC,
PRED and PREDT keep the values of the last one. -/
def Dev.showHm (d : Dev) (n : Nat) : Dev :=
  let h := d.hr n
  let d := (d.setB HMRAIL_STAT_NEXT n h.next.isSome |>.setFs HMRAIL_STAT_HMBIAS n h.hmb).showArm n
  match h.act with
  | none => d.setB HMRAIL_STAT_ACTIVE n false |>.setB HMRAIL_STAT_HIT_SEEN n false
  | some p =>
    let d := d.setB HMRAIL_STAT_ACTIVE n true |>.setB HMRAIL_STAT_DIR n p.down |>.setF HMRAIL_STAT_SRC n p.src
    let d := d.setB HMRAIL_STAT_HIT_SEEN n p.hit
    d.setFs HMRAIL_PRED_MR n p.mr |>.setF HMRAIL_PRED_RISE n p.rise |>.setR HMRAIL_PREDT n p.ts

/-! ### The plane change and the start of a shutdown -/

/-- A plane swap has given rail `n` another XSIGCLASS than `old` (R128): its table and its pending observations are cleared; a
prediction from a signature is reversed or cleared. -/
def Dev.sigClassChanged (d : Dev) (n old : Nat) : Dev :=
  if d.r HMRAIL_XSIGCLASS n = old then d else
  (d.modHr n fun h =>
    { h with sig := [], obs := [], revCause := h.revCause || (h.act.any fun q => q.src ≥ 2 && !q.cancelled)
             next := h.next.filter fun q => q.src < 2 }).showHm n

/-- RAIL_SWAP_APPLY: rail `n` changes to plane `p` (R250); a long operation on it is aborted with REASON 4 (R272). -/
def Dev.swapRail (d : Dev) (m : Mem) (n p : Nat) : Dev :=
  let d := d.lopEndRail n opAborted 4
  let old := d.r HMRAIL_XSIGCLASS n
  let d := (d.takeRail m n p).sigClassChanged n old
  let d := d.setF CFG_STAT_RAIL_PEND 0 (putBits (d.f CFG_STAT_RAIL_PEND) n 1 0)
  d.swapSettle

/-- The transient engine stops: IDLE, U and H 0 (R93). -/
def Dev.teStop (d : Dev) (n : Nat) : Dev :=
  let d := d.modTe n fun t => { t with u := 0, h := 0, quiet := 0, first := false, learn := false }
  let d := d.setF RAIL_TE_STAT_STATE n 0 |>.setB RAIL_TE_STAT_CAPPED n false
  d.setF RAIL_TE_UNDEL_U n 0 |>.setF RAIL_TE_HANDOFF_H n 0

/-- Hawkmoth drops the predictions of a rail that leaves regulation (R116, R167). -/
def Dev.hmDrop (d : Dev) (n : Nat) : Dev :=
  let h := d.hr n
  let d := d.raiseIf (h.act.isSome || h.next.isSome) HMRAIL_FLAGS_DROPPED n
  let d := d.modHr n fun h => { h with act := none, next := none, hmb := 0, revStep := 0, revCause := false, revOld := [], hits := [] }
  (d.setB HMRAIL_STAT_REVERSING n false).showHm n

/-- Fast discharge begins or takes over from the ramp: VREF is set to 8 × VDIS (R167, R169). A commit that waits takes
force in the cycle in which the loop stops (R90). -/
def Dev.handOver (d : Dev) (n : Nat) : Dev :=
  let d := d.modRail n fun x => { x with phase := .discharge }
  let d := d.modSq n fun q => { q with fast := true, okCnt := 0 }
  let d := d.commitTake n
  d.setF RAIL_VREF_VREF n (d.vdisRef n)

/-- The controlled ramp of this decision (R169): VSLEW steps toward 0; at 8 × VDIS or less fast discharge takes over. -/
def Dev.rampCheck (d : Dev) (n : Nat) : Dev :=
  if d.b RAIL_STAT_SHUTTING n && !(d.rail n).sq.fast && (d.rail n).lp.vslew / 2 ^ 16 ≤ d.vdisRef n then d.handOver n
  else d

/-- Spares hold the tri-state level from the start of a shutdown on (R167): one that still completes an on-time ends it. -/
def Dev.sparesTri (d : Dev) (n : Nat) : Dev :=
  d.each ((d.slicesOf n).filter fun i => d.sRole i == roleSpare) fun i d => d.tri i d.w0

/-- The command that runs on channel `c` ends (R18, R221). -/
def Dev.spanCmdEnd (d : Dev) (c state reason : Nat) : Dev :=
  let d := d.modSpan c fun s => { s with cmd := 0 }
  d.setF CHAIN_SPANCMDST_STATE 0 state |>.setF CHAIN_SPANCMDST_REASON 0 reason

/-- A shutdown freezes the slices of the rail of channel `c` (R167): no transfer that waits takes place any more. DESIGN
CHOICE (log 73): a command of the lead that waits for them ends with the reason its boundary would have given, no spare and
no ARMED device (R219, R220). -/
def Dev.spanXfersLost (d : Dev) (c : Nat) : Dev :=
  let cmd := (d.span c).cmd
  let d := d.modSpan c fun s => { s with xfers := [] }
  if cmd = 0 then d else d.spanCmdEnd c opFailed (if cmd = 2 then 3 else 2)

/-- A shutdown of rail `n` with `cause` starts in this decision, or, in a shutdown already running, the cause is logged
and may hand the ramp over to fast discharge (R166, R167). The configured method is taken whatever stage of R59 the rail is
in (R62); where the loop has not begun VSLEW is 0, so a controlled ramp is handed over at once (R169). -/
def Dev.shutStart (d : Dev) (n cause : Nat) : Dev :=
  if !d.b RAIL_STAT_ENABLED n then d
  else if d.b RAIL_STAT_SHUTTING n then
    let d := d.post 0 0x004 n [cause]
    if causeFast cause && !(d.rail n).sq.fast then d.handOver n else d
  else
    let hm := d.staffed n
    let began := (d.rail n).phase == .running
    let ramp := !causeFast cause && d.b RAIL_GUARD_METHOD n
    let d := d.setF RAIL_GCAUSE_CAUSE n cause |>.setF RAIL_GCAUSE_HM n hm |>.setF RAIL_GCAUSE_DECISION n (d.decIdx n)
    let d := d.raiseIf (causeTrips cause) RAIL_FLAGS_GUARD_TRIP n
    let d := d.post 0 0x003 n [cause + b2n ramp * 2 ^ 8 + hm * 2 ^ 16, d.f RAIL_GDEV_G n, d.decIdx n]
    let d := d.setB RAIL_STAT_SHUTTING n true |>.setB RAIL_STAT_POWER_GOOD n false |>.setB RAIL_STAT_SOFTSTART n false
    let d := d.hostScan n
    let d := d.teStop n
    let d := d.hmDrop n
    let d := (d.abortCals n).sparesTri n
    let d := d.lopEndRail n opFailed 3
    let d := d.modSq n fun q => { q with cause := cause, shutAt := d.now, fast := false, okCnt := 0, rev := [], ramp := ramp }
    let d := if began then d else d.modLp n fun l => { l with vslew := 0 }
    let d := match d.spanOf n with
      | some c =>
        let d := d.setF CHAIN_SPANc_STAT_STATE c 5 |>.modSpan c fun s => { s with shut := true }
        (d.spanXfersLost c).sendMsg 9 c (cause * 2 ^ 32)
      | none => d
    if ramp then d.rampCheck n else d.handOver n

/-- Causes that arose outside a decision start in the first decision whose D3 falls at or after them (R167). -/
def Dev.shutPending (d : Dev) (n : Nat) : Dev :=
  let causes := (d.rail n).sq.pend
  let d := d.modSq n fun q => { q with pend := [] }
  d.each causes fun c d => d.shutStart n c

/-- A cause arises outside a decision (R167). -/
def Dev.shutAsk (d : Dev) (n cause : Nat) : Dev :=
  if d.b RAIL_STAT_ENABLED n then d.modSq n fun q => { q with pend := q.pend ++ [cause] } else d

/-- A readmitted member of a rail that is not enabled takes back its position, in state SHED (R179). -/
def Dev.readmitShed (d : Dev) (n : Nat) : Dev :=
  d.each ((d.slicesOf n).filter fun i => d.sState i == stReadmit && (d.slice i).cal.passed && d.sRole i == roleMember)
    fun i d => (d.setState i stShed).modSlice i fun s => { s with cal := {} }

/-- SHUTDOWN_END (R168, R170): every slice at tri-state, the rail not enabled, SHUT_DONE, a class-0 entry with the
duration in µs; a waiting plane change takes place (R250). A commit that waits takes force where the loop stops here (R90). -/
def Dev.shutEnd (d : Dev) (m : Mem) (n : Nat) : Dev :=
  let q := (d.rail n).sq
  let d := d.commitTake n
  let d := d.each (d.slicesOf n) fun i d =>
    let d := d.tri i d.w0
    let d := d.modSlice i fun s => { s with disTri := false, mark := none }
    if d.isOn i then d.setState i stShed else d
  let d := d.setB RAIL_STAT_ENABLED n false |>.setB RAIL_STAT_SHUTTING n false |>.setB RAIL_CTRL_EN n false
  let d := d.setB RAIL_STAT_FOLLOWER n false |>.raise RAIL_FLAGS_SHUT_DONE n
  let d := d.post 0 0x005 n [q.cause + b2n q.ramp * 2 ^ 8, (d.now - q.shutAt) / 400]
  let d := d.modRail n fun x => { x with phase := .idle }
  let d := d.modSq n fun q => { q with cause := 0, pend := [], fast := false, shedCnt := 0 }
  let d := d.modLp n fun l => { l with n := 0 }
  let d := d.readmitShed n
  let d := d.railStreamsStop n
  let d := match d.spanOf n with
    | some c => (d.setF CHAIN_SPANc_STAT_STATE c 0).modSpan c fun s => { s with shut := false }
    | none => d
  let d := match q.swapTo with
    | some p => d.swapRail m n p
    | none => d
  d.showSeq n

/-- The drive of fast discharge in one decision (R168): staffed members drive LOW; one whose sample is -IDIS or less drives
tri-state until its sample is 0 or more. -/
def Dev.dischargeDrive (d : Dev) (n : Nat) : Dev :=
  let idis : Int := d.a RAIL_XDIS_IDIS n
  d.each ((d.rail n).sq.plan.filter d.staffs) fun i d =>
    let iv := (d.slice i).i
    let dis := if (d.slice i).disTri then decide (iv < 0) else decide (iv ≤ -idis)
    let d := d.modSlice i fun s => { s with disTri := dis, on := false, regular := false, tx := 0, fOff := 0 }
    d.drive i (if dis then lvTri else lvLow) d.w0

/-- One decision of fast discharge (R168): 16 consecutive decisions with e at or above 0 end it. -/
def Dev.dischargeStep (d : Dev) (m : Mem) (n : Nat) (e : Int) : Dev :=
  let d := d.dischargeDrive n
  let ok := if e ≥ 0 then (d.rail n).sq.okCnt + 1 else 0
  let d := d.modSq n fun q => { q with okCnt := ok }
  if ok ≥ 16 then d.shutEnd m n else d

/-- R164: the window judgement of one sample with deviation `g`; the shutdown starts in this decision's D3. -/
def Dev.windowGuard (d : Dev) (n : Nat) (g : Int) (ovw unw : Bool) : Dev :=
  if !d.b RAIL_STAT_POWER_GOOD n then d else
  let ov := decide (g > d.f RAIL_GUARD_OVLIM n) || ovw
  let uv := decide (g < -(d.f RAIL_GUARD_UVLIM n : Int)) || unw
  let oc := if ov then (d.rail n).sq.ovCnt + 1 else 0
  let uc := if uv then (d.rail n).sq.uvCnt + 1 else 0
  let d := d.modSq n fun q => { q with ovCnt := oc, uvCnt := uc }
  if oc ≥ d.a1 RAIL_XGUARD_OVCNT n then (d.setFs RAIL_GDEV_G n g).shutStart n causeWinOv
  else if uc ≥ d.a1 RAIL_XGUARD_UVCNT n then (d.setFs RAIL_GDEV_G n g).shutStart n causeWinUv
  else d

/-! ### The FAULT_N and PGOOD pins (R33, R171) -/

/-- FAULT_N as the device drives it: low under power-on reset (R295), while a rail has GUARD_TRIP, and while firmware
asserts it (R33, R171). The CHAIN block's assertions are the rails' own shutdowns. -/
def Dev.faultN (d : Dev) : Bool :=
  !(d.mode.dormant || (List.range 8).any (fun n => d.b RAIL_FLAGS_GUARD_TRIP n) || d.b SYSCTL_FAULTCMD_ASSERT)

/-- What FAULT_N and PGOOD show for the driven level `v` (R538): under power-on reset they are held low while VDDIO bank 0
is at 0.9 V or above, which `vddio` says, and are high impedance, none, below it. -/
def Dev.odPin (d : Dev) (vddio v : Bool) : Option Bool := if d.mode.dormant && !vddio then none else some v

/-- PGOOD is high when some rail has PG_INCL and every such rail has POWER_GOOD (R171). -/
def Dev.pgood (d : Dev) : Bool :=
  let incl := (List.range 8).filter fun n => d.b RAIL_PWM_PG_INCL n
  !incl.isEmpty && incl.all fun n => d.b RAIL_STAT_POWER_GOOD n

end Sys2Proof.Machine
end

