-- ==== Sys2Proof/Machine/Transient.lean ====
section
/-! DEFINITION. The transient engine: detection, the step estimate, placement of charge, handoff (R93-R105). -/
namespace Sys2Proof.Machine

/-- The engine is evaluated (R93). -/
def Dev.teRuns (d : Dev) (n : Nat) : Bool :=
  d.b RAIL_TE_CTRL_EN n && d.b RAIL_STAT_POWER_GOOD n && !d.b RAIL_STAT_SHUTTING n

/-- Devices the rail occupies (R99). -/
def Dev.devicesOf (d : Dev) (n : Nat) : Nat :=
  match d.spanOf n with
  | some c => max 1 (((List.range 16).filter fun p => bit (d.f CHAIN_SPANc_MEMB_MEMBERS c) p).length)
  | none => 1

/-- TX_i (R100). -/
def txOf (delta : Int) (lq rv : Nat) : Nat := (rshr (delta * lq * 1000 * rv) 40).toNat

/-- The engine may make a placement of the sign of `a` (R93, R131). -/
def Dev.mayPlace (d : Dev) (n : Nat) (a : Int) : Bool := d.teRuns n && (decide (a > 0) || d.b RAIL_TE_CTRL_DN_EN n)

/-- Phases added by an UP placement: the first `na` SHED members in plan order become ENGINE_ADDED (R97). Their limits of
R145 count from the rail's period in progress, which the coming boundary ends (R98): what a slice that left the active set
at its start has been HIGH since then counts in it, and an on-time of it that still runs goes on (R101). DEDUCED (log 71):
NF leaves out members in READMIT too, which hold no staffed position (R142). -/
def Dev.addPhases (d : Dev) (n : Nat) (a : Int) (mark : Option Nat) : Dev × List Nat :=
  if a ≤ 0 || !d.b RAIL_TE_CTRL_ADD_EN n then (d, []) else
  let shed := (d.rail n).sq.plan.filter fun i => d.sState i == stShed
  let added := shed.take (ceilDiv a.natAbs (d.a1 RAIL_XTEADD_IADD n))
  let next := (d.rail n).sq.bEdge
  let tsw := (d.rail n).sq.tsw
  let d := d.each added fun i d =>
    (d.setState i stEngine).modSlice i fun s =>
      { s with regular := false, tx := 0, used := if next < s.perAt + tsw + tsw / 2 then s.used else 0, whUntil := 0
               nextAt := next, perAt := next - tsw, mark := mark.orElse fun _ => s.mark, iSum := 0, iN := 0, run := false
               hasAvg := false }
  let d := d.each added fun i d => d.setR SLICE_BAL i 0
  (d, added)

/-- An UP placement on one slice (R101). Whether it meets the on-time limit is judged in D4, by `Dev.noteCapped`. A slice in a
withheld interval leaves it and counts as in its off-time: where it still drives HIGH, for TONMIN, the two pulses are one that
ends at the later off-edge. So are those of an added slice that has not completed its on-time of before. -/
def Dev.placeUp (d : Dev) (i tx : Nat) : Dev :=
  let s := d.slice i
  if s.on && (s.whUntil > d.w0 || s.leaving) then
    let off := max s.fOff (d.w0 + tx)
    d.modSlice i fun s =>
      { s with regular := false, tx := 0, fOff := off, whUntil := 0, leaving := false, upNew := true }
  else if s.on then
    let forced := if s.fOff = 0 then 0 else s.fOff + tx
    d.modSlice i fun s => { s with tx := if s.regular then s.tx + tx else s.tx, fOff := forced, upNew := true }
  else d.forcePulse i d.w0 tx

/-- A DOWN placement on one slice (R102): the withheld interval ends no sooner than that of an earlier placement. -/
def Dev.placeDown (d : Dev) (n i tx : Nat) : Dev :=
  let s := d.slice i
  let until_ := max s.whUntil (d.w0 + tx)
  let off := max d.w0 (s.onAt + d.tonMin n)
  if s.on then
    let d := if s.regular then d.setF SLICE_TON_TON i (off - s.onAt) else d
    d.modSlice i fun s => { s with regular := false, tx := 0, fOff := off, whUntil := until_ }
  else (d.modSlice i fun s => { s with whUntil := until_ }).drive i (d.withheldLevel n i) d.w0

/-- A placement of `a` in the account of prediction `p` (R121): the placements in the opposite direction since its schedule
started. -/
def Pred.note (p : Pred) (a : Int) : Pred :=
  if p.j0 > 0 && p.down == decide (a > 0) then { p with opp := p.opp + a.natAbs } else p

/-- A placement of `a` in the accounts of the ACTIVE prediction and of those that were preempted and are not reversed yet
(R121). -/
def Dev.notePlaced (d : Dev) (n : Nat) (a : Int) : Dev :=
  d.modHr n fun h => { h with act := h.act.map (·.note a), revOld := h.revOld.map (·.note a) }

/-- The ACTIVE prediction's last placement is now, while its window is open (R125). -/
def Dev.noteLast (d : Dev) (n : Nat) : Dev :=
  d.modHr n fun h =>
    { h with act := h.act.map fun p => if d.due p.wEnd then p else { p with lastPl := some (d.r HM_TIME) } }

/-- Place the signed amount `a` with ORIGIN `origin` (R97-R103); the second part is the largest TX_i. Slices that it adds
carry `mark`. DESIGN CHOICE (log 71): RAIL_TE_LASTT.TX shows a largest TX_i above 65,535 modulo 2^16. -/
def Dev.place (d : Dev) (n : Nat) (a : Int) (origin : Nat) (mark : Option Nat) : Dev × Nat :=
  let (d, added) := d.addPhases n a mark
  let ne := ((d.slicesOf n).filter fun i => d.sRole i == roleMember && d.sState i == stEngine).length
  let nt := (d.rail n).lp.n + d.devicesOf n * ne
  let kna := rdiv (2 ^ 24 : Nat) (5 * nt)
  let delta := satS 12 (rshr ((a.natAbs : Int) * kna) 22)
  let rv := if a > 0 then (d.rail n).te.rvd else (d.rail n).te.rvo
  let targets := d.onSlices n
  let (d, txMax) := targets.foldl (fun (acc : Dev × Nat) i =>
    let (d, t) := acc
    let tx := txOf delta (d.f SLICE_LQ_LQ i) rv
    (if a > 0 then d.placeUp i tx else d.placeDown n i tx, max t tx)) (d, 0)
  let d := d.setFs RAIL_TE_LAST_AMOUNT n (satS 24 a) |>.setF RAIL_TE_LAST_NADD n added.length
  let d := d.setF RAIL_TE_LAST_ORIGIN n origin
  let d := d.setF RAIL_TE_LASTT_DECISION n (d.decIdx n) |>.setF RAIL_TE_LASTT_TX n txMax
  let d := d.modTe n fun t => { t with h := satS 24 (t.h + a), placed := true, evLast := some (d.r HM_TIME) }
  let d := d.notePlaced n a
  ((d.setFs RAIL_TE_HANDOFF_H n (d.rail n).te.h).showSeq n, txMax)

/-- RATE of R96 from U and the largest extension. -/
def rateOf (u : Int) (txMax : Nat) : Int := max 1 (rdiv (u * 64) (max 1 txMax))

/-- RAIL_TE_UNDEL shows U with the sign of the event (R131). -/
def Dev.showU (d : Dev) (n : Nat) : Dev :=
  let u := (d.rail n).te.u
  d.setFs RAIL_TE_UNDEL_U n (satS 24 (if d.f RAIL_TE_STAT_STATE n = 2 then -u else u))

/-- A placement that Hawkmoth orders (R118, R121): the event state takes the direction first, with U 0 on a change; the
amount is added to U, RATE is recomputed, the quiet count returns to 0. DESIGN CHOICE (log 71): an event state that begins so
sets neither DET_UP nor DET_DN and counts in neither UPS nor DOWNS, which R131 has count UP and DOWN events. -/
def Dev.placeOrdered (d : Dev) (n : Nat) (a : Int) (origin : Nat) (mark : Option Nat) : Dev :=
  let dir := if a > 0 then 1 else 2
  let d := if d.f RAIL_TE_STAT_STATE n = dir then d
    else (d.setF RAIL_TE_STAT_STATE n dir |>.setB RAIL_TE_STAT_CAPPED n false).modTe n fun t => { t with u := 0, learn := false }
  let (d, tx) := d.place n a origin mark
  let d := d.modTe n fun t =>
    let u := t.u + a.natAbs
    { t with u := u, rate := rateOf u tx, quiet := 0, first := false }
  d.showU n

/-- What the detector finds in one decision (R94, R95). -/
structure Detect where
  up : Bool
  dn : Bool
  x : Int
  ds : Int
  deriving DecidableEq, Repr

/-- D2 and D3 of the detector: slope, conditions with their confirmation, and the step estimate (R94, R95). DESIGN CHOICE
(log 71): KSL and KQE act as unsigned 24-bit gains, so a code with bit 23 set, outside the non-negative Q2.22 of R133, counts
as +2 or more. -/
def Dev.teDetect (d : Dev) (n : Nat) (e v : Int) : Detect × Bool × Bool :=
  let t := (d.rail n).te
  let s := 2 ^ d.a RAIL_XTEDET_DSPAN n
  let slope := t.vHist.getD (s - 1) v - v
  let armUpNow := d.armsNow n == some false
  let armDnNow := d.armsNow n == some true
  let thArm : Int := d.a1 RAIL_XTEARM_TH_SLOPE_ARM n
  let thS : Int := d.a1 RAIL_XTEDET_TH_SLOPE n
  let thL : Int := d.a1 RAIL_XTEDET_TH_LEVEL n
  let conf := d.a RAIL_XTEDET_CONFIRM n = 1
  let dnEn := d.b RAIL_TE_CTRL_DN_EN n
  let upS := decide (slope ≥ if armUpNow then thArm else thS)
  let dnS := dnEn && decide (slope ≤ -(if armDnNow then thArm else thS))
  let upL := decide (e ≥ thL)
  let dnL := dnEn && decide (e ≤ -thL)
  let up := upL || (upS && (armUpNow || !conf || t.upSeen))
  let dn := dnL || (dnS && (armDnNow || !conf || t.dnSeen))
  let (up, dn) := if up && dn then (upL, dnL && !upL) else (up, dn)
  let ds := rshr ((d.a RAIL_XTEKSL_KSL n : Int) * slope * 2 ^ d.a RAIL_XTEKSL_GSL n) 22
  let qe := rshr ((d.a RAIL_XTEKQE_KQE n : Int) * e * 2 ^ d.a RAIL_XTEKQE_GQE n) 22
  (⟨up, dn, satS 24 (ds + qe), ds⟩, upS, dnS)

/-- One decision of the engine's event state (R96). `lde` is the load estimate of this decision (R119), for learning. -/
def Dev.teStep (d : Dev) (n : Nat) (q : Detect) (e lde : Int) : Dev :=
  let st := d.f RAIL_TE_STAT_STATE n
  let begin := fun (d : Dev) (dir : Nat) =>
    let s := 2 ^ d.a RAIL_XTEDET_DSPAN n
    let same := (d.hr n).act.any fun p => p.down == (dir == 2)
    let d := d.setF RAIL_TE_STAT_STATE n dir |>.setB RAIL_TE_STAT_CAPPED n false
    let d := if dir = 1 then (d.raise RAIL_TE_FLAGS_DET_UP n).incSat RAIL_TE_COUNT_UPS n
      else (d.raise RAIL_TE_FLAGS_DET_DN n).incSat RAIL_TE_COUNT_DOWNS n
    d.modTe n fun t =>
      { t with u := 0, quiet := 0, first := true, learn := !same, evLast := none
               evStart := (d.r HM_TIME + 2 ^ 32 - 14) % 2 ^ 32, evLde := t.lde.getD (2 * s - 1) lde }
  let d := if q.up && st != 1 then begin d 1 else if q.dn && st != 2 then begin d 2 else d
  let st := d.f RAIL_TE_STAT_STATE n
  if st = 0 then d else
  let sg : Int := if st = 1 then 1 else -1
  let t := (d.rail n).te
  let excess := max 0 (sg * q.x) - t.u
  let d := if excess > 0 && (t.first || decide (excess ≥ d.a RAIL_XTEADD_TH_INC n)) && d.mayPlace n sg then
      let mark := if !t.first && d.armsNow n == some (st == 2) then (d.hr n).act.map (·.id) else none
      let (d, tx) := d.place n (sg * excess) (if t.first then 0 else 1) mark
      let d := if t.first then d else d.raise RAIL_TE_FLAGS_TOPUP n
      let d := if !t.first && (d.hr n).act.any (fun p => p.down == (st == 2)) then d.noteLast n else d
      d.modTe n fun t =>
        let u := t.u + excess
        { t with u := u, rate := rateOf u tx, quiet := 0 }
    else d.modTe n fun t => { t with u := max 0 (t.u - t.rate), quiet := t.quiet + 1 }
  let d := d.modTe n fun t => { t with first := false }
  let t := (d.rail n).te
  let idle := decide (t.u = 0) && decide (t.quiet ≥ d.a1 RAIL_XTEHO_END n) &&
    decide (e.natAbs < d.a1 RAIL_XTEDET_TH_LEVEL n / 2)
  let d := if idle then
      let d := d.setF RAIL_TE_STAT_STATE n 0 |>.setB RAIL_TE_STAT_CAPPED n false
      let d := if t.learn then d.modHr n fun h =>
          { h with ev := h.ev ++ [(t.evStart, t.evLast, lde - t.evLde, st == 2)] } else d
      d.modTe n fun t => { t with learn := false }
    else d
  d.showU n

/-- The decay of the handoff term in a decision without a placement (R103). -/
def Dev.handoffDecay (d : Dev) (n : Nat) : Dev :=
  let t := (d.rail n).te
  let h := if t.placed then t.h
    else t.h - sgn t.h * (max 1 (t.h.natAbs / 2 ^ d.a RAIL_XTEHO_HANDOFF n) : Nat)
  let d := d.modTe n fun t => { t with h := h, placed := false }
  d.setFs RAIL_TE_HANDOFF_H n h

end Sys2Proof.Machine
end

