-- ==== Sys2Proof/Machine/Accum.lean ====
section
/-! DEFINITION. ACCUM: the sample streams of a decision, static and background open-wire tests, and the long operations:
step-response capture, impedance sweep, calibration pass (R258-R279). -/
namespace Sys2Proof.Machine

/-! ### Units (R263-R265) -/

/-- ACCUM_RESTART (R263). -/
def execAccumRestart (u : Fin 64) (s : State) : Outcome := s.onDev fun d => d.unitRestart u

/-- ACCUM_AVG_READ (R264): WMIN, WMAX and STAT of the unit are copied into the read shadow, which their registers show. -/
def Dev.avgRead (d : Dev) (u : Nat) : Dev :=
  let x := d.unit u
  d.setR ACCUMu_WMIN u x.pMin |>.setR ACCUMu_WMAX u x.pMax |>.setR ACCUMu_STAT u x.pStat

def execAccumAvgRead (u : Fin 64) (s : State) : Outcome := s.onDev fun d => (d.answer (d.r ACCUMu_AVG u)).avgRead u

/-- The slice or rail that a SOURCE names is there (R265). -/
def Dev.sourceOk (d : Dev) (src : Nat) : Bool :=
  if src = 0 then true
  else if src ≤ 0x20 then (d.slice (src - 1)).present
  else if src ≤ 0x40 then !(d.rail ((src - 0x21) % 8)).sq.absent
  else if src ≤ 0x58 then true
  else if src ≤ 0x60 then !(d.rail (src - 0x59)).sq.absent
  else false

/-- An expert routing value is refused (R265). -/
def Dev.routeBad (d : Dev) (u v : Nat) : Bool :=
  let src := bits v 0 8
  let navg := bits v 8 4
  let en := bit v 24
  src > 0x60 || v != v &&& 0x010FFFFF || (en && (navg = 0 || navg > 8 || !d.sourceOk src)) || d.b ACCUMu_CFG_HELD u

/-- The write of ACCUMu_XROUTE (R265). -/
def Dev.writeXroute (d : Dev) (u v : Nat) : Dev :=
  if d.routeBad u v then d.raise ACCUM_FLAGS_WR_REJ
  else
    let d := (d.setR ACCUMu_XROUTE u v).modUnit u fun x => { x with expert := true }
    (d.setRoute u v false).showAccumExpert

def execAccumXrouteWrite (u : Fin 64) (v : Word) (s : State) : Outcome := s.onDev fun d =>
  d.storeTo ACCUMu_XROUTE u fun d => d.writeXroute u v.toNat

/-! ### The static open-wire test (R267, R268) -/

/-- RESULT codes of ACCUM_OWSTAT. -/
abbrev owConnected : Nat := 0
abbrev owMarginal : Nat := 4
abbrev owRefused : Nat := 5
abbrev owAbandoned : Nat := 6

def Dev.modOw (d : Dev) (f : OwSt → OwSt) : Dev := { d with accum := { d.accum with ow := f d.accum.ow } }

/-- A static test of slice (kind 0) or rail (kind 1) `index` runs (R267). -/
def Dev.tests (d : Dev) (kind index : Nat) : Bool :=
  d.accum.ow.running && d.accum.ow.kind == kind && d.accum.ow.index == index

/-- A static test of slice (kind 0) or rail (kind 1) `index` begins (R267). -/
def Dev.owBegin (d : Dev) (kind index : Nat) (readmit : Bool) : Dev :=
  let d := d.modOw fun w =>
    { w with running := true, kind := kind, index := index, n := 0, sum := 0, sat := 0, means := [], allSat := false
             readmit := readmit }
  let d := d.setF ACCUM_OWSTAT_STATE 0 1 |>.setF ACCUM_OWSTAT_RESULT 0 0
  d.setF ACCUM_OWSTAT_INDEX 0 index |>.setF ACCUM_OWSTAT_KIND 0 kind

/-- OPEN_WIRE_TEST (R267): the test starts, or RESULT becomes REFUSED at once. -/
def Dev.owTest (d : Dev) (kind index : Nat) : Dev :=
  let ok := if kind = 0 then
      (d.slice index).present && (d.sRole index == roleNone || d.sState index == stFaulted ||
        (d.sRole index == roleSpare && d.sState index == stFree))
    else index < 8 && !d.b RAIL_STAT_ENABLED (index % 8)
  if ok && !d.accum.ow.running then d.owBegin kind index false
  else
    let d := d.setF ACCUM_OWSTAT_RESULT 0 owRefused
    if d.accum.ow.running then d
    else d.setF ACCUM_OWSTAT_STATE 0 2 |>.setF ACCUM_OWSTAT_INDEX 0 index |>.setF ACCUM_OWSTAT_KIND 0 kind

def execOpenWireTest (kind : Fin 2) (index : Fin 32) (s : State) : Outcome := s.onDev fun d => d.owTest kind index

/-- One sample `x` of the input under test, `sat` when it is saturated (R267): the last 32 of each phase of 64 count. -/
def Dev.owSample (d : Dev) (x : Int) (sat : Bool) : Dev :=
  d.modOw fun w =>
    if w.n ≥ 256 then w else
    let k := w.n % 64
    let w := if k ≥ 32 then { w with sum := w.sum + x, sat := w.sat + b2n sat } else w
    let w := if k = 63 then
        { w with means := w.means ++ [rdiv w.sum 32], allSat := w.allSat || w.sat == 32, sum := 0, sat := 0 } else w
    { w with n := w.n + 1 }

/-- The result row of R268 from DP and DN. -/
def owResult (dp dn thOpen thConn : Int) (allSat : Bool) : Nat :=
  if dp ≥ thOpen ∧ dn ≥ thOpen then 3
  else if dp ≥ thOpen then 1
  else if dn ≥ thOpen then 2
  else if dp.natAbs ≤ thConn ∧ dn.natAbs ≤ thConn ∧ !allSat then owConnected
  else owMarginal

/-- A readmitted slice goes on after its open-wire test, or after the test was not open (R179): with POWER_GOOD it runs
the calibration steps; otherwise it takes its image trims and passes. -/
def Dev.readmitPass (d : Dev) (i : Nat) : Dev :=
  let n := d.sRail i
  let d := d.setF SLICE_CALRES0_RESULT i 0 |>.setF SLICE_STAT_CALSTEP i 0 |>.raise SLICE_FLAGS_READMIT_OK i
  let d := d.post 0 0x006 i [d.f SLICE_OFS_OFS i, d.r SLICE_LQ i]
  let d := d.modSlice i fun s => { s with cal := { s.cal with passed := true, readmit := true, pulsing := false, taking := false } }
  if d.sRole i = roleSpare then
    ((d.setState i stFree).modSlice i fun s => { s with cal := {} }).showSeq n
  else if !d.b RAIL_STAT_ENABLED n then
    ((d.setState i stShed).modSlice i fun s => { s with cal := {} }).showSeq n
  else d

def Dev.readmitAfterTest (d : Dev) (i : Nat) : Dev :=
  let n := d.sRail i
  if d.b RAIL_STAT_POWER_GOOD n then
    (d.setF SLICE_STAT_CALSTEP i 1).modSlice i fun s => { s with cal := { readmit := true, since := d.now } }
  else
    let d := d.setR SLICE_OFS i (d.im (SLICE_XOFS.addr i) % 2 ^ 12) |>.setR SLICE_KI i (d.im (SLICE_XKI.addr i) % 2 ^ 24)
    let d := d.setR SLICE_LQ i (d.im (SLICE_XLQ.addr i))
    (d.modSlice i fun s => { s with xset := false }).showSliceExpert i |>.readmitPass i

/-- A readmission that waited for another static test starts its own (R179, R267). -/
def Dev.owNext (d : Dev) : Dev :=
  match d.accum.ow.waiting with
  | [] => d
  | i :: rest => (d.modOw fun w => { w with waiting := rest }).owBegin 0 i true

/-- OPEN_WIRE_TEST_END (R268): after the fourth phase the test is classified; nothing before that. A readmission goes on with
its result while the slice is in READMIT (R179). -/
def Dev.owEnd (d : Dev) : Dev :=
  let w := d.accum.ow
  if !w.running || w.n < 256 then d else
  let dp := w.means.getD 0 0 - w.means.getD 1 0
  let dn := w.means.getD 3 0 - w.means.getD 2 0
  let res := owResult dp dn (d.f ACCUM_XOW_TH_OPEN) (d.f ACCUM_XOW_TH_CONN) w.allSat
  let d := d.setR ACCUM_OWDIFF 0 (ofS 16 dp + ofS 16 dn * 2 ^ 16)
  let d := d.setF ACCUM_OWSTAT_STATE 0 2 |>.setF ACCUM_OWSTAT_RESULT 0 res |>.raise ACCUM_FLAGS_OW_DONE
  let d := d.raiseIf (1 ≤ res && res ≤ 3) ACCUM_FLAGS_OW_OPEN
  let d := if res = owConnected then d
    else d.post 1 0x016 (if w.kind = 0 then w.index else 0x80 + w.index) [res, d.r ACCUM_OWDIFF]
  let d := d.modOw fun w => { w with running := false }
  let opened := 1 ≤ res && res ≤ 3
  let d := if w.kind = 1 then d
    else if w.readmit && d.sState w.index == stReadmit then
      (if opened then d.readmitFail w.index 5 7 else d.readmitAfterTest w.index)
    else if opened && d.sRole w.index != roleNone && d.sState w.index != stFaulted then d.faultSlice w.index 5
    else d
  d.owNext

def execOpenWireTestEnd (s : State) : Outcome := s.onFabric Dev.owEnd

/-- A FREE spare under test is needed at a boundary: ABANDONED (R268). -/
def Dev.owAbandon (d : Dev) (i : Nat) : Dev :=
  let w := d.accum.ow
  if w.running && w.kind = 0 && w.index = i then
    let d := d.setF ACCUM_OWSTAT_STATE 0 2 |>.setF ACCUM_OWSTAT_RESULT 0 owAbandoned |>.raise ACCUM_FLAGS_OW_DONE
    (d.modOw fun w => { w with running := false }).owNext
  else d

/-! ### The background open-wire test (R269, R270) -/

/-- One sample of a background pair: polarity + comes first in an even pair (R269). -/
def BgSt.take (b : BgSt) (x : Int) (isVoid : Bool) : BgSt :=
  let plus := (b.j % 2 == 0) != b.second
  let b := if plus then { b with sp := b.sp + x, np := b.np + 1 } else { b with sn := b.sn + x, nn := b.nn + 1 }
  { b with isVoid := b.isVoid || isVoid }

/-- A period of a background pair ends (R269); the second part is true when the sequence has reached `need` pairs. -/
def BgSt.endPeriod (b : BgSt) (th : Int) (need : Nat) : BgSt × Bool :=
  if !b.second then ({ b with second := true }, false)
  else
    let usable := !b.isVoid && b.np != 0 && b.nn != 0
    let open_ := decide (rdiv b.sp b.np - rdiv b.sn b.nn ≥ th)
    let run := if usable then (if open_ then b.run + 1 else 0) else b.run
    let b := { b with j := b.j + 1, second := false, run := run, isVoid := false, sp := 0, np := 0, sn := 0, nn := 0 }
    (b, decide (run ≥ need))

/-- What makes a pair void on rail `n` in this decision (R269). -/
def Dev.bgVoid (d : Dev) (n : Nat) : Bool :=
  d.f RAIL_TE_STAT_STATE n != 0 || d.b HMRAIL_STAT_SCHED n

def Dev.bgNeed (d : Dev) : Nat := max 1 (d.f ACCUM_XOW2_BG_PAIRS)

/-- The background test of slice `i` takes its sample (R269); a change of role or state restarts the sequence. -/
def Dev.bgSlice (d : Dev) (n i : Nat) : Dev :=
  let st := d.sState i
  let ok := d.b ACCUM_CTRL_BG_EN && d.b RAIL_STAT_ENABLED n && d.sRole i != roleNone &&
    (st == stActive || st == stEngine || st == stShed || st == stFree)
  if !ok then d.modSlice i fun s => { s with bg := {} } else
  let key := 1 + d.sRole i + 4 * st
  let tested := d.tests 0 i
  d.modSlice i fun s =>
    let b : BgSt := if s.bg.seen = key then s.bg else { seen := key }
    { s with bg := b.take s.x (d.bgVoid n || tested) }

/-- The background test of slice `i` meets the end of the slice's own period: a confirmed open faults the slice with
ISOPEN (R270). -/
def Dev.bgSliceEnd (d : Dev) (i : Nat) : Dev :=
  let (b, opened) := (d.slice i).bg.endPeriod (d.f ACCUM_XOW2_TH_BG) d.bgNeed
  let d := d.modSlice i fun s => { s with bg := b }
  if opened && d.sRole i != roleNone && d.sState i != stFaulted then
    (d.setR ACCUM_OWBGS 0 (putBits (d.r ACCUM_OWBGS) i 1 1)).faultSlice i 5
  else d

def Dev.modBgRail (d : Dev) (n : Nat) (f : BgSt → BgSt) : Dev :=
  { d with accum := { d.accum with bgRail := d.accum.bgRail.setIfInBounds n (f (d.accum.bgRail.getD n {})) } }

/-- The background test of rail `n` takes its sample `x`, VREF - e; a static test of the rail's input makes the pair void
(R269). -/
def Dev.bgRailTake (d : Dev) (n : Nat) (x : Int) : Dev :=
  if d.b ACCUM_CTRL_BG_EN && d.b RAIL_STAT_ENABLED n && !d.b RAIL_STAT_SHUTTING n then
    d.modBgRail n fun b => b.take x (d.bgVoid n || d.tests 1 n)
  else d.modBgRail n fun _ => {}

/-- The background test of rail `n` meets position 0's period end: a confirmed open shuts the rail down with SENSE_OPEN
(R270). -/
def Dev.bgRailEnd (d : Dev) (n : Nat) : Dev :=
  let (b, opened) := (d.accum.bgRail.getD n {}).endPeriod (d.f ACCUM_XOW2_TH_BG) d.bgNeed
  let d := d.modBgRail n fun _ => b
  if opened then (d.setR ACCUM_OWBGR 0 (putBits (d.r ACCUM_OWBGR) n 1 1)).shutAsk n causeSenseOpen else d

/-- A boundary with actions makes the pairs in progress void (R269). -/
def Dev.bgBoundVoid (d : Dev) (n : Nat) : Dev :=
  let d := d.modBgRail n fun b => { b with isVoid := true }
  d.each (d.slicesOf n) fun i d => d.modSlice i fun s => { s with bg := { s.bg with isVoid := true } }

/-! ### Long operations: the start (R271) -/

/-- LOPCFG word `k`. -/
def Dev.lopCfg (d : Dev) (k : Nat) : Nat := d.r ACCUM_LOPCFG k

/-- The parameters lie in their stated ranges (R273, R275, R277). -/
def Dev.lopParams (d : Dev) (op : Nat) : Bool :=
  let c0 := d.lopCfg 0
  let c1 := d.lopCfg 1
  let c2 := d.lopCfg 2
  match op with
  | 1 =>
    let nrec := bits c1 0 7
    let pre := bits c1 8 7
    1 ≤ bits c0 0 4 && bits c0 0 4 ≤ 8 && bits c0 8 6 ≤ 61 && bits c0 16 3 ≤ 4 && 1 ≤ nrec && nrec ≤ 64 && pre < nrec
  | 2 =>
    1 ≤ bits c0 0 16 && bits c0 0 16 ≤ 32767 && 1 ≤ bits c0 24 8 && 4295 ≤ c1 && c1 ≤ 2 ^ 28 &&
      1 ≤ bits c2 16 7 && bits c2 16 7 ≤ 64
  | _ => 1 ≤ bits c0 8 8

/-- The refusal code of a start, lowest first; 0 when it is accepted (R271). -/
def Dev.lopWhy (d : Dev) (op n : Nat) : Nat :=
  if d.f ACCUM_LOPSTAT_STATE = opRunning then 0x10
  else if !d.b CFG_STAT_FABRIC_ON then 0x11
  else if (if op = 1 then !d.b RAIL_STAT_ENABLED n else !d.b RAIL_STAT_POWER_GOOD n || d.b RAIL_STAT_SHUTTING n) then 0x12
  else if !d.lopParams op then 0x13
  else if op = 2 && (d.spanOf n).isSome then 0x14
  else if op = 3 && (d.freeSpares n).isEmpty then 0x15
  else 0

/-- A start is refused: LOPREJ and LOP_REJ (R271). -/
def Dev.lopRefuse (d : Dev) (why : Nat) : Dev :=
  (d.setF ACCUM_LOPREJ_CODE 0 why).inc ACCUM_LOPREJ_COUNT |>.raise ACCUM_FLAGS_LOP_REJ

/-- The next slice that the pass in progress visits: the lowest of those still ahead that is a member, or with SPARES a
FREE spare, as the roles stand (R277). -/
def Dev.passNext (d : Dev) : Option Nat :=
  let l := d.accum.lop
  (d.slicesOf l.rail).find? fun i =>
    l.next ≤ i && (d.sRole i == roleMember || (bit l.c0 0 && d.sRole i == roleSpare && d.sState i == stFree))

/-- A long operation starts on rail `n` (R271), its parameters latched. A capture takes its three units (R273). -/
def Dev.lopStart (d : Dev) (op n : Nat) : Dev :=
  let why := d.lopWhy op n
  if why != 0 then d.lopRefuse why else
  let d := d.setR ACCUM_LOPSTAT 0 (opWord opRunning 0 0 0 false)
  let d := d.each (List.range 256) fun k d => d.setR ACCUM_RES k 0
  let c0 := d.lopCfg 0
  let u := if op = 1 then bits c0 8 6 else 0
  let d := d.setR ACCUM_LOPINFO 0 (op + n * 2 ^ 4 + u * 2 ^ 8 + b2n (op == 1) * 2 ^ 16)
  let d := d.modLop fun _ =>
    { op := op, rail := n, c0 := c0, c1 := d.lopCfg 1, c2 := d.lopCfg 2, startAt := d.now, waitAt := d.now
      pinc := d.lopCfg 1, acts0 := (d.hr n).acts }
  if op != 1 then d else
  let k := bits c0 0 4
  let route := fun src => src + k * 2 ^ 8 + k * 2 ^ 12 + 2 ^ 24
  let d := d.each [u, u + 1, u + 2] fun x d =>
    let own := d.r ACCUMu_CFG x % 2 ^ 31
    d.modUnit x fun y => { y with own := own }
  (d.setRoute u (route (0x39 + n)) true).setRoute (u + 1) (route (0x59 + n)) true
    |>.setRoute (u + 2) (route (0x31 + n)) true

def execCaptureStart (n : Fin 8) (s : State) : Outcome := s.onDev fun d => d.lopStart 1 n
def execSweepStart (n : Fin 8) (s : State) : Outcome := s.onDev fun d => d.lopStart 2 n
def execCalPassStart (n : Fin 8) (s : State) : Outcome := s.onDev fun d => d.lopStart 3 n

/-- LOP_ABORT (R20, R21, R272). -/
def Dev.lopAbort (d : Dev) : Dev :=
  if d.f ACCUM_LOPSTAT_STATE = opRunning then d.lopEnd opAborted 1
  else if d.f ACCUM_LOPSTAT_STATE = opDone then d.setB ACCUM_LOPSTAT_ABORT_LATE 0 true
  else d

def execLopAbort (s : State) : Outcome := s.onDev Dev.lopAbort

/-- CAPTURE_TIMEOUT (R272): TMO ms have passed without a trigger; before that nothing happens. -/
def Dev.captureTimeout (d : Dev) : Dev :=
  let l := d.accum.lop
  if l.op = 1 && !l.trig && bits l.c2 0 16 != 0 && l.startAt + 400000 * bits l.c2 0 16 ≤ d.now then d.lopEnd opFailed 2 else d

def execCaptureTimeout (s : State) : Outcome := s.onFabric Dev.captureTimeout

/-- PASS_WAIT_TIMEOUT (R272): a take-out has waited WAIT ms; before that nothing happens. -/
def Dev.passWaitTimeout (d : Dev) : Dev :=
  let l := d.accum.lop
  if l.op = 3 && l.cur.isNone && l.waitAt + 400000 * bits l.c0 8 8 ≤ d.now then d.lopEnd opFailed 6 else d

def execPassWaitTimeout (s : State) : Outcome := s.onFabric Dev.passWaitTimeout

/-! ### The capture in a decision (R273, R274) -/

/-- The trigger condition holds in this decision (R273); `te0` is the engine's state before it. -/
def Dev.trigNow (d : Dev) (n te0 : Nat) : Bool :=
  let st := d.f RAIL_TE_STAT_STATE n
  match bits d.accum.lop.c0 16 3 with
  | 0 => true
  | 1 => st != te0 && st != 0
  | 2 => st != te0 && st == 1
  | 3 => st != te0 && st == 2
  | _ => (d.hr n).acts != d.accum.lop.acts0

/-- A capture record without its relative index. -/
def Dev.capRecord (d : Dev) (n : Nat) : List Nat :=
  let l := d.accum.lop
  let u := bits l.c0 8 6
  let on := d.f RAIL_STAT_ACTIVE_N n + d.f RAIL_TE_STAT_NENG n
  let fl := putBits l.blkFlags 4 1 (b2n (bits (d.unit u).pStat 16 9 != 0))
  [(d.unit u).pMin % 2 ^ 16 + (d.unit u).pMax % 2 ^ 16 * 2 ^ 16,
   d.r ACCUMu_AVG (u + 1) % 2 ^ 24 + on % 2 ^ 8 * 2 ^ 24,
   d.r ACCUMu_AVG (u + 2) % 2 ^ 24 + fl * 2 ^ 24,
   l.blkFirst % 2 ^ 16]

/-- A record with its relative index in word 3. -/
def withIdx (r : List Nat) (i : Int) : List Nat := r.take 3 ++ [r.getD 3 0 + ofS 16 i * 2 ^ 16]

/-- PRE of a capture (R273). -/
def LopSt.pre (l : LopSt) : Nat := if bits l.c0 16 3 = 0 then 0 else bits l.c1 8 7

/-- The trigger (R273): the window receives the last PRE' records before the trigger record, and PARTIALS becomes PRE'. -/
def Dev.capTrigger (d : Dev) : Dev :=
  let l := d.accum.lop
  let old := (l.ring.take l.pre).reverse
  let d := d.each old.zipIdx fun p d => d.lopRecord (withIdx p.1 ((p.2 : Int) - old.length))
  d.modLop fun l => { l with ring := [], trig := true }

/-- A block of the capture completes: the record is kept until the trigger, or added to the window (R273). -/
def Dev.capBlock (d : Dev) (n : Nat) : Dev :=
  let l := d.accum.lop
  let r := d.capRecord n
  let nrec := bits l.c1 0 7
  let pre := l.pre
  let d := d.modLop fun l => { l with blkN := 0, blkFlags := 0 }
  if !l.trig then d.modLop fun l => { l with ring := (r :: l.ring).take 63 }
  else
    let d := (d.lopRecord (withIdx r l.idx)).lopProgress
    let d := d.modLop fun l => { l with idx := l.idx + 1 }
    if l.idx ≥ (nrec : Int) - pre - 1 then d.lopEnd opDone 0 else d

/-- The capture's part in a decision of rail `n`, after its streams (R273, R274). -/
def Dev.capStep (d : Dev) (n te0 : Nat) : Dev :=
  let l := d.accum.lop
  if l.op != 1 || l.rail != n then d else
  let fl := b2n (d.f RAIL_TE_STAT_STATE n != 0) + 2 * b2n (d.b HMRAIL_STAT_SCHED n) + 4 * b2n (d.b RAIL_STAT_CBAL_ACTIVE n) +
    8 * b2n (d.b RAIL_STAT_LIM_HIGH n || d.b RAIL_STAT_LIM_LOW n)
  let d := d.modLop fun l =>
    { l with blkFirst := if l.blkN = 0 then d.decIdx n else l.blkFirst, blkN := l.blkN + 1
             blkFlags := l.blkFlags ||| fl }
  let d := if !l.trig && d.trigNow n te0 then d.capTrigger else d
  if d.accum.lop.blkN ≥ 2 ^ bits l.c0 0 4 then d.capBlock n else d

/-! ### The impedance sweep (R275, R276) -/

/-- round (32,767 sin (2 π k / 4,096)) for k from 0 to 1,024, sixteen bits each, 128 to a number (R275). -/
def sinTable : List Nat :=
  [0x18C7189618651833180217D0179F176E173C170B16D916A816761645161315E215B0157F154D151C14EA14B914871455142413F213C0138F135D132B12FA12C8129612641233120111CF119D116C113A110810D610A410721041100F0FDD0FAB0F790F470F150EE30EB10E800E4E0E1C0DEA0DB80D860D540D220CF00CBE0C8C0C5A0C280BF60BC40B920B5F0B2D0AFB0AC90A970A650A330A0109CF099D096A0938090608D408A20870083E080B07D907A707750743071106DE06AC067A0648061605E305B1057F054D051B04E804B604840452041F03ED03BB03890356032402F202C0028D025B022901F701C401920160012E00FB00C90097006500320000,
   0x30CD309E3070304130132FE42FB62F872F582F2A2EFB2ECC2E9D2E6E2E402E112DE22DB32D842D552D262CF72CC82C992C6A2C3A2C0B2BDC2BAD2B7D2B4E2B1F2AF02AC02A912A612A322A0229D329A329742944291528E528B528862856282627F727C7279727672737270826D826A826782648261825E825B825882558252824F824C8249724672437240723D723A623762346231522E522B522842254222321F321C2219221612131210020D0209F206F203E200D1FDD1FAC1F7B1F4A1F1A1EE91EB81E871E571E261DF51DC41D931D621D311D001CCF1C9E1C6D1C3C1C0B1BDA1BA91B781B471B161AE51AB41A821A511A2019EF19BE198C195B192A18F9,
   0x46F346C9469F4675464B462145F745CD45A34578454E452444F944CF44A5447A4450442543FB43D043A5437B4350432542FA42D042A5427A424F422441F941CE41A24177414C412140F640CA409F40734048401D3FF13FC53F9A3F6E3F433F173EEB3EBF3E933E683E3C3E103DE43DB83D8C3D603D333D073CDB3CAF3C833C563C2A3BFE3BD13BA53B783B4C3B1F3AF23AC63A993A6C3A403A1339E639B9398C39603933390638D938AB387E3851382437F737CA379C376F3742371536E736BA368C365F3631360435D635A8357B354D351F34F234C434963468343A340C33DF33B133833355332632F832CA329C326E3240321131E331B531873158312A30FB,
   0x5A5E5A3B5A1759F359CF59AC598859645940591C58F858D358AF588B58675842581E57F957D557B0578B57675742571D56F856D356AF568A5664563F561A55F555D055AA55855560553A551554EF54C954A4547E54585432540C53E753C1539B5374534E5328530252DC52B5528F52685242521B51F551CE51A85181515A5133510C50E550BE50975070504950224FFB4FD44FAC4F854F5D4F364F0E4EE74EBF4E984E704E484E204DF94DD14DA94D814D594D314D094CE04CB84C904C684C3F4C174BEE4BC64B9D4B754B4C4B244AFB4AD24AA94A804A584A2F4A0649DD49B4498A49614938490F48E548BC489348694840481647ED47C3479A47704746471C,
   0x6A516A356A1969FD69E069C469A8698B696F69526936691968FC68E068C368A66889686C684F6832681467F767DA67BC679F6781676467466728670A66ED66CF66B16693667566566638661A65FC65DD65BF65A06582656365446525650764E864C964AA648B646C644C642D640E63EE63CF63AF6390637063516331631162F162D162B16291627162516231621161F061D061AF618F616E614E612D610C60EB60CB60AA608960686047602560045FE35FC25FA05F7F5F5D5F3C5F1A5EF85ED75EB55E935E715E4F5E2D5E0B5DE95DC75DA55D825D605D3E5D1B5CF95CD65CB35C915C6E5C4B5C285C055BE25BBF5B9C5B795B565B335B0F5AEC5AC95AA55A82,
   0x762D761A760775F375E075CC75B875A57591757D756975557541752D7518750474F074DB74C674B2749D74887474745F744A74357420740A73F573E073CA73B5739F738A7374735E73497333731D730772F172DB72C472AE72987281726B7254723E7227721071F971E271CB71B4719D7186716F715871407129711170FA70E270CA70B2709B7083706B7053703A7022700A6FF26FD96FC16FA86F906F776F5E6F456F2C6F146EFB6EE16EC86EAF6E966E7C6E636E4A6E306E166DFD6DE36DC96DAF6D956D7B6D616D476D2D6D136CF86CDE6CC36CA96C8E6C746C596C3E6C236C086BED6BD26BB76B9C6B816B656B4A6B2F6B136AF86ADC6AC06AA46A896A6D,
   0x7D807D767D6C7D627D577D4D7D437D397D2E7D247D197D0E7D047CF97CEE7CE37CD87CCD7CC17CB67CAB7C9F7C947C887C7D7C717C657C597C4D7C417C357C297C1D7C107C047BF87BEB7BDE7BD27BC57BB87BAB7B9E7B917B847B777B697B5C7B4F7B417B337B267B187B0A7AFC7AEE7AE07AD27AC47AB67AA87A997A8B7A7C7A6D7A5F7A507A417A327A237A147A0579F679E679D779C879B879A9799979897979796A795A794A793979297919790978F878E878D778C778B678A578947884787378627850783F782E781D780B77FA77E877D777C577B377A1778F777D776B7759774777357722771076FE76EB76D876C676B376A0768D767A766776547641,
   0x7FFF7FFF7FFF7FFE7FFE7FFE7FFD7FFD7FFC7FFB7FFA7FF97FF87FF77FF67FF57FF47FF37FF17FF07FEE7FEC7FEB7FE97FE77FE57FE37FE17FDF7FDC7FDA7FD87FD57FD27FD07FCD7FCA7FC77FC47FC17FBE7FBB7FB87FB47FB17FAD7FAA7FA67FA27F9F7F9B7F977F937F8F7F8A7F867F827F7D7F797F747F707F6B7F667F617F5C7F577F527F4D7F487F427F3D7F377F327F2C7F267F217F1B7F157F0F7F097F027EFC7EF67EEF7EE97EE27EDC7ED57ECE7EC77EC07EB97EB27EAB7EA47E9C7E957E8D7E867E7E7E777E6F7E677E5F7E577E4F7E477E3E7E367E2E7E257E1D7E147E0B7E027DFA7DF17DE87DDF7DD57DCC7DC37DB97DB07DA67D9D7D937D89,
   0x7FFF]

/-- S of the first quarter wave. -/
def sinQuarter (k : Nat) : Nat := bits (sinTable.getD (k / 128) 0) (16 * (k % 128)) 16

/-- S(k) (R275). -/
def sinS (k : Nat) : Int :=
  let k := k % 4096
  if k ≤ 1024 then sinQuarter k
  else if k ≤ 2048 then sinQuarter (2048 - k)
  else if k ≤ 3072 then -(sinQuarter (k - 2048) : Int)
  else -(sinQuarter (4096 - k) : Int)

/-- C(k) (R275). -/
def sinC (k : Nat) : Int := sinS (k + 1024)

/-- The record of a measured point (R276). -/
def sweepRecord (l : LopSt) : List Nat :=
  let q := fun (x : Int) (k : Nat) => ofS 16 (satS 16 (rdiv x (k * l.nm)))
  [l.pinc, q l.svc 64 + q (-l.svs) 64 * 2 ^ 16, q l.sic 1024 + q (-l.sis) 1024 * 2 ^ 16, l.nm % 2 ^ 24 + l.flags * 2 ^ 24]

/-- A point of the sweep has been measured: its record, and the next point or the end (R275, R276). -/
def Dev.sweepPoint (d : Dev) : Dev :=
  let l := d.accum.lop
  let d := (d.lopRecord (sweepRecord l)).lopProgress
  let next := (l.pinc + rdiv ((l.pinc : Int) * bits l.c2 0 16) (2 ^ 16)).toNat
  if l.point + 1 ≥ bits l.c2 16 7 || next > 2 ^ 28 then d.lopEnd opDone 0
  else d.modLop fun l =>
    { l with point := l.point + 1, pinc := next, phi := 0, wraps := 0, nm := 0, svc := 0, svs := 0, sic := 0, sis := 0
             flags := 0 }

/-- The sweep current of this decision (R275). -/
def Dev.sweepP (d : Dev) (n : Nat) : Int :=
  let l := d.accum.lop
  if l.op = 2 && l.rail = n then rdiv ((bits l.c0 0 16 : Int) * sinS (l.phi / 2 ^ 20)) (2 ^ 15) else 0

/-- The sweep's part in a decision: the measured sums, then the phase (R275, R276). `v` is VREF - e, `clipped` says that
ICMD + H + P saturated. -/
def Dev.sweepStep (d : Dev) (n : Nat) (v it : Int) (clipped : Bool) : Dev :=
  let l := d.accum.lop
  if l.op != 2 || l.rail != n then d else
  let scyc := bits l.c0 16 8
  let mcyc := bits l.c0 24 8
  let k := l.phi / 2 ^ 20
  let dist := d.f RAIL_TE_STAT_STATE n != 0 || d.b HMRAIL_STAT_SCHED n || d.b RAIL_STAT_LIM_HIGH n || d.b RAIL_STAT_LIM_LOW n
  let l := if l.wraps ≥ scyc then
      { l with nm := l.nm + 1, svc := l.svc + v * sinC k, svs := l.svs + v * sinS k, sic := l.sic + it * sinC k
               sis := l.sis + it * sinS k, flags := l.flags ||| (b2n dist + 2 * b2n clipped) }
    else l
  let phi := l.phi + l.pinc
  let l := { l with phi := phi % 2 ^ 32, wraps := l.wraps + phi / 2 ^ 32 }
  let d := d.modLop fun _ => l
  if l.wraps ≥ scyc + mcyc then d.sweepPoint else d

/-- A boundary with actions marks the block or the measured point in progress (R274, R276). -/
def Dev.lopBoundActs (d : Dev) (n : Nat) : Dev :=
  let l := d.accum.lop
  if l.rail != n then d
  else if l.op = 1 then d.modLop fun l => { l with blkFlags := l.blkFlags ||| 32 }
  else if l.op = 2 && l.wraps ≥ bits l.c0 16 8 then d.modLop fun l => { l with flags := l.flags ||| 1 }
  else d

/-! ### The calibration pass (R277) -/

/-- The record of a visited slice, and the end of the pass when none is left (R277). -/
def Dev.passRecord (d : Dev) (i result : Nat) : Dev :=
  let l := d.accum.lop
  if l.op != 3 || l.rail != d.sRail i then d else
  let d := d.lopRecord [i + d.sPos i * 2 ^ 8 + result * 2 ^ 16, d.f SLICE_CALRES0_OFS i, d.r SLICE_CALRES1 i,
    d.f RAIL_BOUND_COUNT l.rail]
  let d := d.lopProgress
  let d := d.modLop fun l => { l with cur := none, waitAt := d.now }
  if d.passNext.isNone then d.lopEnd opDone 0 else d

/-- The calibration of slice `i` that the pass waits for has ended with `result` (R277). -/
def Dev.passEnded (d : Dev) (i result : Nat) : Dev :=
  if d.accum.lop.op = 3 && d.accum.lop.cur = some i then d.passRecord i result else d

/-- Slices at the head of the pass that are SHED or FAULTED are recorded as SKIPPED (R277). -/
def Dev.passSkip (d : Dev) : Nat → Dev
  | 0 => d
  | k + 1 =>
    let l := d.accum.lop
    match d.passNext with
    | none => d
    | some i =>
      if l.op = 3 && l.cur.isNone && (d.sState i == stShed || d.sState i == stFaulted) then
        Dev.passSkip ((d.modLop fun l => { l with next := i + 1 }).passRecord i 0xF) k
      else d

end Sys2Proof.Machine
end

