-- ==== Sys2Proof/Machine/Hawkmoth.lean ====
section
/-! DEFINITION. The intent port and the Hawkmoth predictor: frames, predictions and pre-actions, hits, misses and
reversal, learned signatures (R106-R129, R135-R140). -/
namespace Sys2Proof.Machine

/-! ### Times (R115) -/

/-- The schedule's start, which is the start of the hit test (R117, R118). -/
def Pred.fireAt (p : Pred) : Nat := tsub p.ts (8 * p.tFire)

/-- The sign of a prediction's direction. -/
def Pred.sign (p : Pred) : Int := if p.down then -1 else 1

/-- MF (R118). -/
def Pred.mf (p : Pred) : Int := rshr (p.mr * p.preFrac) 8

/-- The amount of segment `j` (R118): of the remainder when a merge has sized the rest again. -/
def Pred.segment (p : Pred) (j : Nat) : Int :=
  match p.resized with
  | none => rdiv (p.mf * (j + 1)) p.sg - rdiv (p.mf * j) p.sg
  | some (j0, rm) =>
    if rm ≤ 0 || p.sg ≤ j0 then 0
    else rdiv (rm * (j + 1 - j0 : Nat)) (p.sg - j0) - rdiv (rm * (j - j0 : Nat)) (p.sg - j0)

/-- PB (R117). -/
def Pred.bias (p : Pred) : Int := min (p.pbMax : Int) (rshr (p.mr * p.kpb) 22)

/-! ### New predictions (R114, R116, R117, R129) -/

/-- In SAFE Hawkmoth and the intent port are stopped (R34). -/
def Dev.hmStopped (d : Dev) : Bool := d.f SYSCTL_MODE_MODE == 5

/-- A happening of Hawkmoth: none while it is stopped. -/
def State.onHawkmoth (s : State) (f : Dev → Dev) : Outcome := s.onFabric fun d => if d.hmStopped then d else f d

/-- The prediction, where it has hit and its learning event has not been formed: that comes at its W_END, whether or not it is
ACTIVE still (R125). -/
def Pred.openHit (p : Pred) : List Pred := if p.hit && !p.closed then [p] else []

/-- A prediction latches the HMRAIL expert values of its rail on becoming ACTIVE (R115). DESIGN CHOICE (log 71): KPB acts
without its bit 23, which a non-negative Q2.22 does not use; in MAGSCALE that bit counts as +2. -/
def Dev.latchPred (d : Dev) (n : Nat) (p : Pred) : Pred :=
  { p with tBias := d.f HMRAIL_XTIME_T_BIAS n, tFire := d.f HMRAIL_XTIME_T_FIRE n, wLate := d.f HMRAIL_XTIME_W_LATE n
           pbMax := d.f HMRAIL_XBIAS_PB_MAX n, biasStep := max 1 (d.f HMRAIL_XBIAS_BIAS_STEP n)
           kpb := d.f HMRAIL_XKPB_KPB n % 2 ^ 23, preFrac := min 256 (d.f HMRAIL_XFIRE_PREFRAC n)
           hitFrac := max 1 (d.f HMRAIL_XFIRE_HITFRAC n) }

/-- A new event for a step-response capture waiting on Hawkmoth (R273, TRIG 4) is seen by the capture itself through
HMRAIL_FLAGS.ACCEPT; `predAct` makes `p` ACTIVE (R116, R117). -/
def Dev.predAct (d : Dev) (n : Nat) (p : Pred) : Dev :=
  let p := d.latchPred n p
  let late := (decide (tdiff (d.r HM_TIME) (tsub p.ts (8 * p.tBias)) > 0)) ||
    (decide (tdiff (d.r HM_TIME) p.fireAt > 0))
  let d := d.modHr n fun h => { h with act := some { p with id := h.acts }, acts := (h.acts + 1) % 2 ^ 16 }
  let d := d.raiseIf late HMRAIL_FLAGS_LATE n
  d.showHm n

/-- PREDICTION_NEW: a prediction for rail `n` is handled by the first row of R116 whose condition holds. DESIGN CHOICE (log
71): an ACTIVE prediction that has been reversed, or is to be, counts as one being reversed in row 3 up to its end, also
once its reversal is complete; nothing merges into it. In SAFE there is none (R34). -/
def Dev.predNew (d : Dev) (n : Nat) (p : Pred) : Dev :=
  if d.hmStopped then d else
  let en := if p.src < 2 then d.b HMRAIL_CTRL_EN_INTENT n else d.b HMRAIL_CTRL_EN_SIG n
  if !d.b RAIL_STAT_POWER_GOOD n || d.b RAIL_STAT_SHUTTING n || !en then d.raise HMRAIL_FLAGS_DROPPED n
  else
    let h := d.hr n
    match h.act with
    | none => (d.predAct n p).raise HMRAIL_FLAGS_ACCEPT n
    | some a =>
      let near := decide ((tdiff p.ts a.ts).natAbs ≤ 8 * a.wLate)
      if !a.cancelled && !h.revCause && a.down == p.down && near then
        let started := a.j0 > 0
        let mr := max a.mr p.mr
        let rise := max a.rise p.rise
        let m := { a with mr := mr, rise := rise
                          ts := if !started && tdiff p.ts a.ts < 0 then p.ts else a.ts
                          src := if p.src < 2 && a.src ≥ 2 then p.src else a.src }
        let m := if started then { m with resized := some (a.j0, m.mf - a.ps) } else m
        let d := (d.modHr n fun h => { h with act := some m }).raise HMRAIL_FLAGS_MERGED n
        -- when the new SG is j0 or less, the remainder is placed at once as one segment (R118)
        let rm := m.mf - a.ps
        let d := if started && m.sg ≤ a.j0 && rm > 0 && d.mayPlace n m.sign then
            let d := (d.placeOrdered n (m.sign * rm) 2 (some a.id)).noteLast n
            d.modHr n fun h => { h with act := h.act.map fun q => { q with ps := q.ps + rm } }
          else d
        d.showHm n
      else if tdiff p.ts a.wEnd > 0 then
        let d := d.raiseIf h.next.isSome HMRAIL_FLAGS_DROPPED n
        (d.modHr n fun h => { h with next := some p }).showHm n
      else if p.src < 2 && a.src ≥ 2 then
        -- a prediction that has been reversed already is not reversed again (R121)
        let d := d.modHr n fun h =>
          { h with revOld := if a.cancelled then h.revOld else h.revOld ++ [a], revCause := false, hits := h.hits ++ a.openHit }
        ((d.predAct n p).raise HMRAIL_FLAGS_PREEMPTED n)
      else d.raise HMRAIL_FLAGS_DROPPED n

/-! ### Frames (R108-R114) -/

/-- The CRC of a frame over its bytes 39 to 8 (R109). -/
def frameCrc (fr : Nat) : Nat := crc8 [bits fr 32 8, bits fr 24 8, bits fr 16 8, bits fr 8 8]

/-- A checked frame, in the cycle of its acceptance, reaches every rail that listens for its tag (R110, R114, R122). `te` is
TE, `src` 0 for the port and 1 for a relay. A CANCEL reverses an ACTIVE prediction that is not reversed yet, and clears
NEXT. -/
def Dev.deliverFrame (d : Dev) (fr te src : Nat) : Dev :=
  let typ := bits fr 38 2
  let tag := bits fr 32 6
  let rails := (List.range 8).filter fun n => d.b HMRAIL_CTRL_EN_INTENT n && d.f HMRAIL_CTRL_TAG n == tag
  let d := d.setR HM_LASTFRAME_HI 0 (bits fr 32 8 + src * 2 ^ 8) |>.setR HM_LASTFRAME_LO 0 (fr % 2 ^ 32)
  let d := d.setR HM_CNT_OK 0 (d.r HM_CNT_OK + 1)
  let d := d.raiseIf rails.isEmpty HM_FLAGS_NOMATCH
  let d := if rails.isEmpty then d else { d with hm := { d.hm with matchAt := some d.now } }
  d.each rails fun n d =>
    if typ = 2 then
      match (d.hr n).act with
      | some a =>
        let d := d.raiseIf (!a.cancelled) HMRAIL_FLAGS_CANCELLED n
        (d.modHr n fun h => { h with revCause := h.revCause || !a.cancelled, next := none }).showHm n
      | none => d
    else
      let mr := satS 24 (rshr ((bits fr 22 10 : Int) * 64 * d.f HMRAIL_MAGSCALE_SCALE n) 22)
      d.predNew n { down := typ == 1, mr := mr, ts := tadd te (8 * bits fr 14 8), rise := bits fr 8 6, src := src }

/-- GAP in cycles; values below 8 act as 8 (R136). -/
def Dev.gap (d : Dev) : Nat := max 8 (d.f HM_PORTCFG_GAP)

/-- The levels (INT_D1, INT_D0) that edge `j` of frame `fr` samples (R107): frame bits 39 - 2j and 38 - 2j. -/
def edgeLevels (fr j : Nat) : Bool × Bool := (bit fr (39 - 2 * j), bit fr (38 - 2 * j))

/-- The frame that the levels sampled at edges 0 to 19 form, in the order of the edges (R107). -/
def frameOf (edges : List (Bool × Bool)) : Nat := edges.foldl (fun a e => 4 * a + (2 * b2n e.1 + b2n e.2)) 0

/-- Edge 0 may come at edge time `t` (R107): the lines have been idle for GAP cycles since the port's latest edge. -/
def Dev.gapPast (d : Dev) (t : Nat) : Bool := d.hm.edgeAt.all fun e => decide (t ≥ e + d.gap)

/-- `k` cycles have passed since the port's latest edge (R112). -/
def Dev.quietFor (d : Dev) (k : Nat) : Bool := d.hm.edgeAt.all fun e => decide (d.now ≥ e + k)

/-- An edge of the port was sampled in cycle `t`. -/
def Dev.edgeSeen (d : Dev) (t : Nat) : Dev := { d with hm := { d.hm with edgeAt := some t } }

/-- The cycle that edge 0 of a frame of `k` edges cannot lie after when its last edge lies in cycle `t`: INT_CK runs at 100
MHz at most, so two edges lie 2 cycles apart or more (R106). The rows carry no times of single edges, so slower edges are not
told apart (log 71). -/
def edgeZero (t k : Nat) : Nat := t - 2 * (k - 1)

/-- The port takes edges (R112, R136); it is stopped in SAFE (R34). -/
def Dev.portOn (d : Dev) : Bool := d.b HM_CTRL_PORT_EN && !d.b HM_PORTSTAT_STUCK && !d.hmStopped

/-- HM_PORTSTAT shows the levels of INT_CK, INT_D0 and INT_D1, also while the port is stopped (R136). -/
def Dev.portLines (d : Dev) (ck d0 d1 : Bool) : Dev :=
  d.setB HM_PORTSTAT_CK 0 ck |>.setB HM_PORTSTAT_D0 0 d0 |>.setB HM_PORTSTAT_D1 0 d1

/-- The levels after a frame of 20 edges (R106, R107, R136): edge 19 falls, with the last two bits on the data lines. An
edge that has come since has set them already. -/
def Dev.frameLines (d : Dev) (fr te : Nat) : Dev :=
  if d.hm.longAt.any fun t => te < t then d else d.portLines false (bit fr 0) (bit fr 1)

/-- An edge in cycle `t` after edge 19 of a frame, before GAP idle cycles: LONG is flagged and counted once for the frame, and
further edges are ignored (R111). -/
def Dev.longEdge (d : Dev) (t : Nat) : Dev :=
  let d := if d.hm.longOpen then (d.raise HM_FLAGS_LONG).incSat HM_CNT_ERR_LONG else d
  let d := d.edgeSeen t
  { d with hm := { d.hm with longOpen := false } }

/-- INTENT_FRAME (R107, R110, R111): the 20 edges of a frame, alternately rising and falling, have been sampled, the last of
them at TE; the command stands in the cycle of its acceptance, 3 cycles after TE. A frame whose edge 0 cannot have come GAP
idle cycles after the edge before it is none. Edges are ignored while the port is stopped or stuck (R112, R136), and in
SAFE (R34). An edge that came between TE and the acceptance makes the frame LONG; the frame stands. DESIGN CHOICE (log 71): a
frame with a bad CRC reports CRC_ERR alone, whatever its TYPE. -/
def Dev.intentFrame (d : Dev) (edges : List (Bool × Bool)) : Dev :=
  let fr := frameOf edges
  let te := d.now - 3
  let d := d.frameLines fr te
  if !d.portOn || !d.gapPast (edgeZero te 20) then d else
  let d := (d.setF HM_PORTSTAT_EDGES 0 0).edgeSeen te
  let early := d.hm.longAt.filter fun t => te < t
  let d := { d with hm := { d.hm with longOpen := true, longAt := none } }
  let d := match early with
    | some t => d.longEdge t
    | none => d
  if frameCrc fr != bits fr 0 8 then (d.raise HM_FLAGS_CRC_ERR).incSat HM_CNT_ERR_CRC
  else if bits fr 38 2 = 3 then (d.raise HM_FLAGS_FMT).incSat HM_CNT_ERR_FMT
  else d.deliverFrame fr (tsub (d.r HM_TIME) 3) 0

/-- A relayed frame (R113): taken only while RELAY_EN is 1; its errors set flags but no pin counts. This cycle is TE; the
frame is accepted 3 cycles later, in `Dev.relaysDue`. In SAFE none is taken (R34). -/
def Dev.relayFrame (d : Dev) (fr : Nat) : Dev :=
  if !d.b HM_CTRL_RELAY_EN || d.hmStopped then d
  else if frameCrc fr != bits fr 0 8 then d.raise HM_FLAGS_CRC_ERR
  else if bits fr 38 2 = 3 then d.raise HM_FLAGS_FMT
  else { d with hm := { d.hm with relays := d.hm.relays ++ [(d.r HM_TIME, fr)] } }

/-- The relayed frames whose TE lies 3 cycles or more back are accepted and distributed (R110, R113). -/
def Dev.relaysDue (d : Dev) : Dev :=
  let (now, wait) := d.hm.relays.partition fun x => d.due (tadd x.1 3)
  if now.isEmpty then d else
  let d := { d with hm := { d.hm with relays := wait } }
  d.each now fun x d => d.deliverFrame x.2 x.1 1

/-- A write of HM_CTRL.PORT_EN (R136). -/
def Dev.setPortEn (d : Dev) (en : Bool) : Dev :=
  (d.setB HM_CTRL_PORT_EN 0 en).portLoaded (d.b HM_CTRL_PORT_EN)

/-! ### The schedule, the miss, the reversal, the end (R118-R122) -/

/-- SCHEDULE_SEGMENT: every segment whose due cycle has been reached is placed as one placement of their summed amount
(R117, R118); a sum of 0 is skipped. DESIGN CHOICE (log 71): segments that fall due while the engine may not place them (R93,
R131) wait, and are placed with the later ones once it may. -/
def Dev.segmentDue (d : Dev) (n : Nat) : Dev :=
  match (d.hr n).act with
  | none => d
  | some p =>
    if p.schedDone || !d.mayPlace n p.sign then d else
    let j1 := ((List.range p.sg).filter fun j => j ≥ p.j0 && d.due (tadd p.fireAt (16 * j))).length + p.j0
    let amount := ((List.range p.sg).filter fun j => p.j0 ≤ j && j < j1).foldl (fun a j => a + p.segment j) 0
    let d := if amount > 0 then (d.placeOrdered n (p.sign * amount) 2 (some p.id)).noteLast n else d
    (d.modHr n fun h => { h with act := h.act.map fun q => { q with j0 := j1, ps := q.ps + amount } }).showHm n

/-- The key of a signature entry: VALID, ENGINE and TOKEN of word 0 (R124, R140). -/
def sigKey (e : BitVec 32 × BitVec 32) : Nat := e.1.toNat % 2 ^ 19
def sigValid (e : BitVec 32 × BitVec 32) : Bool := bit e.1.toNat 31
def sigConf (e : BitVec 32 × BitVec 32) : Nat := bits e.1.toNat 20 4
def sigAge (e : BitVec 32 × BitVec 32) : Nat := bits e.1.toNat 24 4

/-- The signature table of a rail, all 64 entries. -/
def HmRailSt.table (h : HmRailSt) : List (BitVec 32 × BitVec 32) :=
  (List.range 64).map fun k => h.sig.getD k (0, 0)

/-- Set an entry. -/
def HmRailSt.putSig (h : HmRailSt) (k : Nat) (e : BitVec 32 × BitVec 32) : HmRailSt := { h with sig := h.table.set k e }

/-- An entry with CONF `c` and AGE `a`; a CONF of 0 makes it invalid (R127). -/
def sigSet (e : BitVec 32 × BitVec 32) (c a : Nat) : BitVec 32 × BitVec 32 :=
  let w := putBits (putBits e.1.toNat 20 4 c) 24 4 a
  (BitVec.ofNat 32 (if c = 0 then putBits w 31 1 0 else w), e.2)

/-- Lower the confidence of the valid entry with a key (R127). -/
def HmRailSt.lowerConf (h : HmRailSt) (key by_ : Nat) : HmRailSt :=
  match (List.range 64).find? fun k => sigValid (h.sig.getD k (0, 0)) && sigKey (h.sig.getD k (0, 0)) == key with
  | none => h
  | some k =>
    let e := h.sig.getD k (0, 0)
    h.putSig k (sigSet e (sigConf e - by_) (sigAge e))

/-- PREDICTION_MISS (R120, R127): a prediction at W_END without a hit; it is reversed in the next decision. Before W_END
nothing happens. -/
def Dev.predMiss (d : Dev) (n : Nat) : Dev :=
  match (d.hr n).act with
  | none => d
  | some p =>
    if p.hit || p.cancelled || p.missed || !d.due p.wEnd then d else
    let d := d.raise HMRAIL_FLAGS_MISS n |>.incSat HMRAIL_SCORE_MISSES n
    let d := d.modHr n fun h => { h with revCause := true, act := h.act.map fun q => { q with missed := true } }
    if p.src = 2 then d.modHr n fun h => h.lowerConf p.key 4 else d

/-- Steps 1 to 3 of R121 for prediction `p`, already cancelled where it still is ACTIVE: what its schedule has placed, less
what the engine has taken back, is placed in the opposite direction from U 0; HMBIAS goes to 0 by a fixed step; step 4 falls
at the next boundary. -/
def Dev.reverseOne (d : Dev) (n : Nat) (p : Pred) : Dev :=
  let pa := p.ps - p.opp
  let d := if pa > 0 && d.mayPlace n (-p.sign) then
      let d := d.modTe n fun t => { t with u := 0 }
      (d.placeOrdered n (-p.sign * pa) 3 none).raise RAIL_TE_FLAGS_REVERSE n
    else d
  let nd := (d.rail n).sq.tsw / 64
  let step : Int := max (p.biasStep : Int) (ceilDiv (d.hr n).hmb.natAbs nd : Nat)
  let d := d.modHr n fun h => { h with revStep := step }
  let d := d.modSq n fun q => { q with rev := q.rev ++ [p.id] }
  (d.setB HMRAIL_STAT_REVERSING n true).showHm n

/-- REVERSAL (R121): in the decision after the cause, the predictions that were preempted and the ACTIVE one that missed or
was cancelled are reversed; none is reversed twice. -/
def Dev.reversal (d : Dev) (n : Nat) : Dev :=
  let h := d.hr n
  let mine := if h.revCause then h.act.toList.filter fun p => !p.cancelled else []
  let d := d.modHr n fun h =>
    { h with revCause := false, revOld := []
             act := if mine.isEmpty then h.act
               else h.act.map fun q => { q with cancelled := true, armed := false, biasOn := false } }
  d.each (h.revOld ++ mine) fun p d => d.reverseOne n p

/-- PREDICTION_END (R116): ACTIVE ends when W_END has passed, its schedule is complete or cancelled and HMBIAS is 0; one that
has not hit by then misses, and its reversal stands. NEXT then becomes ACTIVE. DESIGN CHOICE (log 71): ACCEPT marks that
change too. -/
def Dev.predEnd (d : Dev) (n : Nat) : Dev :=
  let d := d.predMiss n
  let h := d.hr n
  match h.act with
  | none => d
  | some p =>
    if d.due p.wEnd && p.schedDone && h.hmb = 0 then
      let nx := h.next
      let d := d.modHr n fun h =>
        { h with act := none, next := none, revCause := false, hits := h.hits ++ p.openHit
                 revOld := if h.revCause && !p.cancelled then h.revOld ++ [p] else h.revOld }
      let d := d.showHm n
      match nx with
      | some q => (d.predAct n q).raise HMRAIL_FLAGS_ACCEPT n
      | none => d
    else d

/-- PREDICTION_BIAS_START (R117): the bias rule governs HMBIAS from TS - 8 × T_BIAS on; before that nothing happens. -/
def Dev.biasStart (d : Dev) (n : Nat) : Dev :=
  match (d.hr n).act with
  | none => d
  | some p =>
    if p.cancelled || !d.due (tsub p.ts (8 * p.tBias)) then d
    else d.modHr n fun h => { h with revStep := 0, act := some { p with biasOn := true } }

/-- Move `x` toward `t` by at most `s`. -/
def toward (x t s : Int) : Int := if x < t then min t (x + s) else max t (x - s)

/-- HMBIAS of one decision (R117, R119, R121). -/
def Dev.biasStep (d : Dev) (n : Nat) : Dev :=
  let h := d.hr n
  let hmb := match h.act with
    | some p =>
      if p.biasOn then
        let back := p.hit && d.due (tadd p.ts (16 * p.rise))
        toward h.hmb (if back then 0 else p.sign * p.bias) p.biasStep
      else if h.revStep != 0 then toward h.hmb 0 h.revStep else h.hmb
    | none => if h.revStep != 0 then toward h.hmb 0 h.revStep else h.hmb
  let d := d.modHr n fun h => { h with hmb := hmb, revStep := if hmb = 0 then 0 else h.revStep }
  d.setFs HMRAIL_STAT_HMBIAS n hmb

/-- The learning event of a prediction that has hit, in the first decision at or after its W_END (R125), also where it was
cancelled or preempted in between. -/
def Dev.hitEvent (d : Dev) (lde : Int) (p : Pred) : Option (Nat × Option Nat × Int × Bool) :=
  if p.hit && !p.closed && d.due p.wEnd then p.tsp.map fun t => (t, p.lastPl, lde - p.lde0.getD lde, p.down) else none

/-- The learning events that predictions of rail `n` give in this decision (R125). -/
def Dev.hitEvents (d : Dev) (n : Nat) (lde : Int) : Dev :=
  d.modHr n fun h =>
    { h with ev := h.ev ++ (h.hits ++ h.act.toList).filterMap (d.hitEvent lde)
             hits := h.hits.filter fun p => !d.due p.wEnd
             act := h.act.map fun p => { p with closed := p.closed || (p.hit && d.due p.wEnd) } }

/-- The hit test of one decision (R119), with the half-way time that learning uses (R125). -/
def Dev.hitJudge (d : Dev) (n : Nat) (lde : Int) : Dev :=
  match (d.hr n).act with
  | none => d
  | some p =>
    if p.cancelled || !d.due p.fireAt then d else
    let p := { p with lde0 := some (p.lde0.getD lde) }
    let moved := p.sign * (lde - p.lde0.getD lde)
    let open_ := decide (tdiff (d.r HM_TIME) p.wEnd ≤ 0)
    let p := if p.tsp.isNone && open_ && decide (moved ≥ rshr (p.mr * p.hitFrac) 9) then
        { p with tsp := some (tsub (d.r HM_TIME) 14) } else p
    let hitNow := !p.hit && !p.missed && open_ && decide (moved ≥ rshr (p.mr * p.hitFrac) 8)
    let p := { p with hit := p.hit || hitNow }
    let d := d.modHr n fun h => { h with act := some p }
    if hitNow then
      let d := d.raise HMRAIL_FLAGS_HIT n |>.incSat HMRAIL_SCORE_HITS n |>.setB HMRAIL_STAT_HIT_SEEN n true
      let d := d.each (d.slicesOf n) fun i d => d.modSlice i fun s => { s with mark := s.mark.filter (· != p.id) }
      match d.spanOf n with
      | some c => d.modSpan c fun s => { s with marks := s.marks.filter fun x => x.2.2 != p.id }
      | none => d
    else d

/-- The hit test of one decision and the learning events that end in it (R119, R125). -/
def Dev.hitTest (d : Dev) (n : Nat) (lde : Int) : Dev := (d.hitJudge n lde).hitEvents n lde

/-! ### Tokens and signatures (R123-R129, R136, R137) -/

/-- Only the lead of a spanning rail observes tokens and learns (R129). -/
def Dev.hmLeads (d : Dev) (n : Nat) : Bool :=
  match d.spanOf n with
  | some c => d.isLead c
  | none => true

/-- TOKEN_OBSERVATION and SIGNATURE_PREDICTION: a token of stitch engine `e` (R123, R124, R129). DESIGN CHOICE (log 71): an
observation that is kept past its expiry, because an event of R125 in progress still claims it, counts among the 4 that a rail
keeps. -/
def Dev.tokenPosted (d : Dev) (e token : Nat) : Dev :=
  d.each ((List.range 8).filter fun n => bit (d.f HMRAIL_CTRL_TOKSRC n) e && d.hmLeads n) fun n d =>
    let t := d.r HM_TIME
    let full := (d.hr n).obs.length ≥ 4
    let d := d.raiseIf full HMRAIL_FLAGS_TOKLOST n
    let d := d.modHr n fun h => { h with obs := (if full then h.obs.drop 1 else h.obs) ++ [⟨e, token, t, d.f HMRAIL_XTIME_WIN n⟩] }
    let key := token % 2 ^ 16 + e * 2 ^ 16
    match (d.hr n).table.find? fun x => sigValid x && sigKey x == key with
    | none => d
    | some x =>
      if sigConf x ≥ max 1 (d.f HMRAIL_XLEARN_CONF_ARM n) && d.b HMRAIL_CTRL_EN_SIG n then
        let w1 := x.2.toNat
        let mag := bits w1 0 10
        let lead := bits w1 10 8
        let rise := bits w1 18 6
        let down := bit x.1.toNat 19
        let d := d.predNew n
          { down := down, mr := 64 * mag, ts := tadd t (8 * lead), rise := rise, src := 2, key := key }
        match d.spanOf n with
        | some c => d.sendRelay c down mag (8 * lead) rise
        | none => d
      else d

/-- The key of an observation (R124). -/
def Obs.key (o : Obs) : Nat := o.token % 2 ^ 16 + o.engine * 2 ^ 16

/-- The cycle in which an observation expires (R123). -/
def Obs.ends (o : Obs) : Nat := tadd o.time (8 * o.win)

/-- The observation may be consumed for an event with step time `tsp` (R125): it lies at or before it and has not expired at
it. -/
def Obs.serves (o : Obs) (tsp : Nat) : Bool := decide (tdiff tsp o.time ≥ 0) && decide (tdiff tsp o.ends < 0)

/-- The step times of the events in progress, or ended and not yet learned, that R125 learns from. -/
def Dev.openEvents (d : Dev) (n : Nat) : List Nat :=
  let t := (d.rail n).te
  let h := d.hr n
  (if t.learn then [t.evStart] else []) ++ h.ev.map (·.1) ++ h.hits.filterMap (·.tsp) ++
    (match h.act with
     | some p => if p.closed || p.missed || (p.cancelled && !p.hit) then [] else p.tsp.toList
     | none => [])

/-- An event of R125 still has its claim on observation `o`, the newest that serves it: whether it expires unconsumed is known
when that event has ended. -/
def Dev.claimed (d : Dev) (n : Nat) (o : Obs) : Bool :=
  d.b HMRAIL_CTRL_LEARN n &&
    (d.openEvents n).any fun t => ((d.hr n).obs.filter fun x => x.serves t).getLast? == some o

/-- OBSERVATION_EXPIRY (R123, R127): the oldest pending observation whose window has passed expires unconsumed. -/
def Dev.obsExpire (d : Dev) (n : Nat) : Dev :=
  match (d.hr n).obs.find? fun o => d.due o.ends && !d.claimed n o with
  | none => d
  | some o => d.modHr n fun h => { h with obs := h.obs.erase o }.lowerConf o.key 1

/-- An entry from observed values, CONF 1 and AGE 0 (R126). -/
def sigNew (key : Nat) (down : Bool) (mo l ro : Nat) : BitVec 32 × BitVec 32 :=
  (BitVec.ofNat 32 (key + b2n down * 2 ^ 19 + 2 ^ 20 + 2 ^ 31), BitVec.ofNat 32 (mo + l * 2 ^ 10 + ro * 2 ^ 18))

/-- One quarter of the way from `x` to `o`, rounded by R10 (R126). -/
def quarter (x o : Nat) : Nat := ((x : Int) + rdiv ((o : Int) - x) 4).toNat

/-- The slot a new key takes (R126): the lowest invalid entry, else the valid one of lowest CONF, highest AGE, lowest
index; true when it was valid. -/
def HmRailSt.victim (h : HmRailSt) : Nat × Bool :=
  match (List.range 64).find? fun k => !sigValid (h.sig.getD k (0, 0)) with
  | some k => (k, false)
  | none =>
    ((List.range 64).foldl (fun b k =>
      let x := h.sig.getD k (0, 0)
      let y := h.sig.getD b (0, 0)
      if sigConf x < sigConf y || (sigConf x = sigConf y && sigAge x > sigAge y) then k else b) 0, true)

/-- Write entry `k` of the table by learning (R126): LEARNED is set when it is written. A bus write of the same entry in this
cycle is kept in its place. -/
def Dev.learnInto (d : Dev) (n k : Nat) (e : BitVec 32 × BitVec 32) : Dev :=
  if (d.hr n).wrAt == some (d.now, k) then d
  else (d.raise HMRAIL_FLAGS_LEARNED n).modHr n fun h => h.putSig k e

/-- SIGNATURE_LEARN (R125, R126): the event that ended first is learned from the newest observation at or before its step time
that had not expired at it. RO of an event without a placement is a free value (assumption 1). -/
def Dev.learn (d : Dev) (n : Nat) : Dev :=
  let h := d.hr n
  match h.ev with
  | [] => d
  | (tsp, lastPl, dl, down) :: evs =>
    let d := d.modHr n fun h => { h with ev := evs }
    if !d.b HMRAIL_CTRL_LEARN n || !d.hmLeads n then d else
    match (h.obs.filter fun o => o.serves tsp).getLast? with
    | none => d
    | some o =>
      let l := (clampI (rdiv (tdiff tsp o.time) 8) 1 255).toNat
      let mo := (clampI (rdiv dl.natAbs 64) 0 1023).toNat
      let (ro, d) := match lastPl with
        | some t => ((clampI (rdiv (tdiff t tsp) 16) 0 63).toNat, d)
        | none => d.fresh 6
      let key := o.key
      let d := d.modHr n fun h => { h with obs := h.obs.erase o }
      let h := d.hr n
      match (List.range 64).find? fun k => sigValid (h.sig.getD k (0, 0)) && sigKey (h.sig.getD k (0, 0)) == key with
      | some k =>
        let x := h.sig.getD k (0, 0)
        if bit x.1.toNat 19 = down then
          let w1 := x.2.toNat
          let y := (x.1, BitVec.ofNat 32 (quarter (bits w1 0 10) mo + quarter (bits w1 10 8) l * 2 ^ 10 +
            quarter (bits w1 18 6) ro * 2 ^ 18))
          d.learnInto n k (sigSet y (min 15 (sigConf x + 1)) 0)
        else
          let c := sigConf x - 2
          d.learnInto n k (if c = 0 then sigNew key down mo l ro else sigSet x c (sigAge x))
      | none =>
        let (k, valid) := h.victim
        (d.raiseIf valid HMRAIL_FLAGS_SIGFULL n).learnInto n k (sigNew key down mo l ro)

/-- Cycles between two age ticks: 2^AGE_DIV ms (R127, R139). DESIGN CHOICE (log 71): R139 does not say whether ageing is
part of learning; a changed AGE_DIV acts at once. -/
def Dev.agePeriod (d : Dev) (n : Nat) : Nat := 400000 * 2 ^ d.f HMRAIL_XLEARN_AGE_DIV n

/-- SIGNATURE_AGE_TICK (R127): each valid entry ages by 1; one at AGE 15 loses 1 of CONF and takes AGE 8. The tick comes every
2^AGE_DIV ms; before that nothing happens. DEDUCED (log 71): HM_TIME counts modulo 2^32, which is no multiple of a
millisecond, so the interval is counted in cycles from the tick before it, or from reset. -/
def Dev.ageTick (d : Dev) (n : Nat) : Dev :=
  let p := d.agePeriod n
  let k := (d.hm.cyc - (d.hr n).ageAt) / p
  if k = 0 then d else
  d.modHr n fun h =>
    { h with ageAt := h.ageAt + k * p
             sig := h.sig.map fun x =>
        if !sigValid x then x
        else if sigAge x = 15 then sigSet x (sigConf x - 1) 8
        else sigSet x (sigConf x) (sigAge x + 1) }

/-- HMRAILn_CTRL.CLEAR (R128). -/
def Dev.hmClear (d : Dev) (n : Nat) : Dev :=
  (d.modHr n fun h => { h with sig := [], obs := [] }).setR HMRAIL_SCORE n 0

/-- HM_SIGSEL.RD (R136): the entry is copied into the data registers. -/
def Dev.sigRead (d : Dev) (n e : Nat) : Dev :=
  let x := (d.hr n).sig.getD e (0, 0)
  d.setR HM_SIGDATA0 0 x.1.toNat |>.setR HM_SIGDATA1 0 x.2.toNat

/-- HM_SIGSEL.WR (R136, R137): the data registers are copied into the entry; another valid entry with the same key
becomes invalid. -/
def Dev.sigWrite (d : Dev) (n e : Nat) : Dev :=
  let x := (BitVec.ofNat 32 (d.r HM_SIGDATA0), BitVec.ofNat 32 (d.r HM_SIGDATA1))
  d.modHr n fun h =>
    let t := h.table.map fun y => if sigValid x && sigValid y && sigKey y == sigKey x then
      (BitVec.ofNat 32 (putBits y.1.toNat 31 1 0), y.2) else y
    { h with sig := t.set e x, wrAt := some (d.now, e) }

/-- RD and WR together (R136): entry and data registers are exchanged. -/
def Dev.sigExchange (d : Dev) (n e : Nat) : Dev :=
  let x := (d.hr n).sig.getD e (0, 0)
  let d := d.sigWrite n e
  d.setR HM_SIGDATA0 0 x.1.toNat |>.setR HM_SIGDATA1 0 x.2.toNat

/-- A write of HM_SIGSEL (R136). -/
def Dev.writeSigsel (d : Dev) (v : Nat) : Dev :=
  let d := d.setF HM_SIGSEL_ENTRY 0 (bits v 0 6) |>.setF HM_SIGSEL_RAIL 0 (bits v 8 3)
  let n := bits v 8 3
  let e := bits v 0 6
  if bit v 16 && bit v 17 then d.sigExchange n e
  else if bit v 16 then d.sigRead n e
  else if bit v 17 then d.sigWrite n e
  else d

end Sys2Proof.Machine
end

