-- ==== Sys2Proof/Machine/Loop.lean ====
section
/-! DEFINITION. The reference chain and the loop graph of a rail: VERR, ISUM, the level-2 nodes, SUM, CBAL, LIMIT, MOD,
and one whole decision (R50-R81, R90); soft start (R59-R61, R214). The command DECISION runs at D3 of its decision:
`now` is that cycle, so its hold edge lies 14 cycles back (assumption 4). -/
namespace Sys2Proof.Machine

/-! ### The reference (R53, R54, R56, R57) -/

/-- RVIN (R53). -/
def Dev.rvin (d : Dev) (n : Nat) : Nat := (rdiv (2 ^ 32 : Nat) (max (d.f RAIL_VIN_VIN n) 1000)).toNat

/-- One step of R54 toward `dest` by `step`. -/
def slewTo (v dest step : Nat) : Nat := if v < dest then min (v + step) dest else max (v - step) dest

/-- A controlled ramp is running (R169). -/
def Dev.ramping (d : Dev) (n : Nat) : Bool := d.b RAIL_STAT_SHUTTING n && !(d.rail n).sq.fast

/-- The destination of R54; 0 in a controlled ramp (R169). -/
def Dev.slewDest (d : Dev) (n : Nat) : Nat :=
  if d.ramping n then 0 else 2 * d.f RAIL_VTARGET_VTARGET n * 2 ^ 16

/-- The step of R54; SHUT_SLEW's in a controlled ramp (R169). -/
def Dev.slewStep (d : Dev) (n : Nat) : Nat :=
  if d.ramping n then stepOfSlew (d.a RAIL_XGUARD_SHUT_SLEW n) else d.a RAIL_XSLEWSTEP_STEP n

/-- IF of one decision (R56). -/
def nextIF (filt it : Int) (tc : Nat) : Int := satS 40 (filt + rdiv (it * 2 ^ 16 - filt) (2 ^ tc))

/-- DROOP (R56). -/
def droopOf (gain filt : Int) : Int := satS 16 (rshr (gain * filt) 38)

/-- VREF (R57). -/
def vrefOf (vslew : Nat) (droop hmb : Int) : Nat := satU 16 ((vslew / 2 ^ 16 : Nat) - droop + hmb)

/-! ### The rail sample (R50, R51) -/

/-- A rail sample with its pairing. -/
structure Sample where
  e : Int
  ovw : Bool
  unw : Bool
  vref : Nat          -- VREF_k
  hmb : Int           -- HMBIAS_k
  deriving DecidableEq, Repr

/-- The sample of `vs`, VSENSE in 0.125 mV, against the VREF in force at its hold edge (R50). DESIGN CHOICE (log 70): in
TON_DELAY, in ARMED and at the hold edges before a shutdown that starts in the pre-bias window, for which no rule names the
reference, the converter holds the oldest VREF that is queued, or RAIL_VREF where none is. -/
def Dev.railSample (d : Dev) (n : Nat) (vs : Int) : Sample :=
  let l := (d.rail n).lp
  let vref := l.vrefPipe.headD (d.f RAIL_VREF_VREF n)
  let e := satS 12 ((vref : Int) - vs)
  ⟨e, e == -2048, e == 2047, vref, l.biasPipe.headD 0⟩

/-- The window references of step 2 of R59, in 0.125 mV. -/
def prebiasRefs : List Int := [2000, 6000, 10000, 14000]

/-- A sample of the pre-bias measurement, against the reference of its window of 16 (R59); the samples after the 64th are
measured against the last one. -/
def Dev.windowSample (d : Dev) (n : Nat) (vs : Int) : Sample :=
  let vref := prebiasRefs.getD ((d.rail n).lp.preN / 16) 14000
  let e := satS 12 (vref - vs)
  ⟨e, e == -2048, e == 2047, vref.toNat, 0⟩

/-- VSENSE of a sample in 0.25 mV (R51). -/
def Sample.vsense (x : Sample) : Nat := satU 16 (rdiv ((x.vref : Int) - x.e) 2)

/-- RAIL_ERR, RAIL_VSENSE and the tags of RAIL_STAT show the sample (R51, R85, R87). -/
def Dev.showSample (d : Dev) (n : Nat) (x : Sample) : Dev :=
  let d := d.setR RAIL_ERR n (ofS 12 x.e + b2n x.ovw * 2 ^ 12 + b2n x.unw * 2 ^ 13 + d.decIdx n * 2 ^ 16)
  let d := d.setB RAIL_STAT_OVW n x.ovw |>.setB RAIL_STAT_UNW n x.unw
  let d := d.modLp n fun l => { l with err := x.e }
  d.setR RAIL_VSENSE n (x.vsense + b2n (!x.ovw && !x.unw) * 2 ^ 16)

/-! ### ISUM (R49, R67) and IT (R56, R211, R216) -/

/-- IS over the slices that switched at the start of the decision; a slice whose sample carries INV contributes ish (R49).
DESIGN CHOICE (log 70): the ish of decision k - 1, which D4 of that decision forms after D1 of decision k (R80). -/
def Dev.isum (d : Dev) (n : Nat) (on : List Nat) : Int :=
  let total := on.foldl (fun a i => a + if (d.slice i).inv then (d.rail n).lp.ish else (d.slice i).i) 0
  satS 24 (rshr (5 * total) 2)

/-- SPANc_STAT.STATE codes (R223). -/
abbrev spArmed : Nat := 1
abbrev spFollow : Nat := 2
abbrev spAuto : Nat := 3
abbrev spLead : Nat := 4

/-- The share a member of a spanning rail uses (R211, R216): the lead's own, the one taken from the ring, or in AUTO the
last one moved by the local LIMIT output `icmd`. -/
def Dev.spanShare (d : Dev) (n c : Nat) (icmd : Int) : Int :=
  let s := d.span c
  if d.f CHAIN_SPANc_STAT_STATE c = spAuto then s.sl + rshr ((icmd - s.icmd0) * (d.rail n).lp.kn) 22 else s.s

/-- IT of the decision: ISUM's output on one device, the ring's total on a spanning rail (R56, R211, R216). -/
def Dev.totalCurrent (d : Dev) (n : Nat) (is : Int) : Int :=
  match d.spanOf n with
  | none => is
  | some c => satS 24 (rshr (5 * d.f CHAIN_SPANc_MEMB_NR c * d.spanShare n c (d.rail n).lp.limY) 2)

/-! ### The level-2 nodes (R66, R68-R70, R74, R75) -/

/-- `y = sat_s24 (round (w × 2^g / 2^16))` (R66). -/
def nodeOut (w : Int) (g : Nat) : Int := satS 24 (rshr (w * 2 ^ g) 16)

/-- One update of an IIR3 node (R68); while `hold` is true its states stay and its history still shifts (R74). -/
def iir3 (c : Nat → Int) (g : Nat) (s : NodeSt) (x : Int) (hold : Bool) : NodeSt :=
  let h := fun k => s.hist.getD k 0
  let w := fun k => s.st.getD k 0
  let acc := (c 0 * x + c 1 * h 0 + c 2 * h 1 + c 3 * h 2) * 2 ^ 16 - (c 4 * w 0 + c 5 * w 1 + c 6 * w 2)
  let wm := satS 40 (rshr acc 22)
  { s with hist := [x, h 0, h 1]
           st := if hold then s.st else [wm, w 0, w 1]
           y := nodeOut (if hold then w 0 else wm) g }

/-- One update of an SS4 node (R69). -/
def ss4 (c : Nat → Int) (g : Nat) (s : NodeSt) (u0 u1 : Int) (hold : Bool) : NodeSt :=
  let x := fun k => s.st.getD k 0
  let pre := c 24 * x 0 + c 25 * x 1 + c 26 * x 2 + c 27 * x 3 + (c 28 * u0 + c 29 * u1) * 2 ^ 16
  let next := (List.range 4).map fun i =>
    satS 40 (rshr (c (4 * i) * x 0 + c (4 * i + 1) * x 1 + c (4 * i + 2) * x 2 + c (4 * i + 3) * x 3 +
      (c (16 + 2 * i) * u0 + c (17 + 2 * i) * u1) * 2 ^ 16) 22)
  { s with st := if hold then s.st else next, y := satS 24 (rshr (pre * 2 ^ g) 38) }

/-- GAIN (R70). -/
def gainNode (k : Int) (g : Nat) (s : NodeSt) (x : Int) : NodeSt := { s with y := satS 24 (rshr (k * x * 2 ^ g) 22) }

/-- The anti-windup judgement of one node (R74): `v` its averaged input, `neg` true when SUM negates it. -/
def nodeHolds (v : Int) (neg sath satl : Bool) : Bool :=
  let p := if neg then -v else v
  (sath && decide (p > 0)) || (satl && decide (p < 0))

/-- Update one level-2 node from the averaged inputs `e` and `is`; the second part is true when it held. -/
def Dev.nodeStep (d : Dev) (n : Nat) (typ base g : Nat) (fromIs neg : Bool) (s : NodeSt) (e is : Int) : NodeSt × Bool :=
  let c := fun k => d.coef n (base + k)
  let sath := d.b RAIL_STAT_LIM_HIGH n
  let satl := d.b RAIL_STAT_LIM_LOW n
  let x := if fromIs then is else e
  if typ = 3 then
    let hold := nodeHolds x neg sath satl
    (iir3 c g s x hold, hold)
  else if typ = 4 then
    let hold := nodeHolds e neg sath satl
    (ss4 c g s e is hold, hold)
  else if typ = 5 then (gainNode (c 0) g s x, false)
  else (s, false)

/-- Level 2 of one decision (R75): the inputs are summed; at an update instant a waiting commit takes force (R90) and the
nodes update from the means since the previous update. -/
def Dev.level2 (d : Dev) (n : Nat) (e is : Int) : Dev :=
  let d := d.modLp n fun l => { l with accE := l.accE + e, accI := l.accI + is, accN := l.accN + 1 }
  if (d.rail n).lp.index % 2 ^ d.a RAIL_XCTL_DECIM n != 0 then d else
  let d := d.commitTake n
  let l := (d.rail n).lp
  let me := rdiv l.accE l.accN
  let mi := rdiv l.accI l.accN
  let two := d.f RAIL_XGRAPH_N1_TYPE n != 0
  let neg := d.f RAIL_XGRAPH_SUM_NEG n
  let (n0, h0) := d.nodeStep n (d.f RAIL_XGRAPH_N0_TYPE n) (d.f RAIL_XGRAPH_N0_BASE n) (d.a RAIL_XGSHIFT_G0 n)
    (d.b RAIL_XGRAPH_N0_IN n) (two && bit neg 0) l.n0 me mi
  let (n1, h1) := d.nodeStep n (d.f RAIL_XGRAPH_N1_TYPE n) (d.f RAIL_XGRAPH_N1_BASE n) (d.a RAIL_XGSHIFT_G1 n)
    (d.b RAIL_XGRAPH_N1_IN n) (two && bit neg 1) l.n1 me mi
  let d := d.modLp n fun l => { l with n0 := n0, n1 := n1, accE := 0, accI := 0, accN := 0 }
  d.setB RAIL_STAT_HOLD n (h0 || h1)

/-- The wire after SUM (R70): N0 alone when level 2 holds one node. -/
def Dev.sumNode (d : Dev) (n : Nat) : Int :=
  let l := (d.rail n).lp
  if d.f RAIL_XGRAPH_N1_TYPE n = 0 then l.n0.y
  else
    let neg := d.f RAIL_XGRAPH_SUM_NEG n
    satS 24 ((if bit neg 0 then -l.n0.y else l.n0.y) + (if bit neg 1 then -l.n1.y else l.n1.y))

/-! ### CBAL and LIMIT (R71-R73) -/

/-- Δ after one step of its decay (R72). -/
def blendStep (delta : Int) (blend : Nat) : Int :=
  delta - sgn delta * (min delta.natAbs (max 1 (delta.natAbs / 2 ^ blend)) : Nat)

/-- CBAL (R71, R72) on the upstream wire `x`. -/
def Dev.cbalNode (d : Dev) (n : Nat) (x e is : Int) : Dev × Int :=
  if !d.b RAIL_XGRAPH_CBAL n then (d, x) else
  let l := (d.rail n).lp
  let ebnd := d.a RAIL_XCBAL_EBND n
  let blend := d.a RAIL_XCBAL_BLEND n
  let mode := if l.cbal then !decide (e.natAbs < ebnd / 2) else decide (e.natAbs ≥ ebnd)
  let delta := if mode then (if l.cbal then l.delta else 0)
    else if l.cbal then l.cbalY - x
    else if l.delta = 0 then 0
    else if blend = 0 then 0 else blendStep l.delta blend
  let y := if mode then
      satS 24 (is + rshr (d.as RAIL_XKCB_KCB n * e * 2 ^ d.a RAIL_XGSHIFT_GCB n) 22)
    else satS 24 (x + delta)
  let d := d.raiseIf (mode && !l.cbal) RAIL_FLAGS_CBAL_ENTER n |>.setB RAIL_STAT_CBAL_ACTIVE n mode
  (d.modLp n fun l => { l with cbal := mode, delta := delta, cbalY := y }, y)

/-- LIMIT (R60, R73) on its input `x`. -/
def Dev.limitNode (d : Dev) (n : Nat) (x : Int) : Dev × Int :=
  let imax : Int := d.f RAIL_ILIMIT_IMAX n
  let imin := d.fs RAIL_ILIMIT_IMIN n
  let lo := if d.b RAIL_STAT_SOFTSTART n then max imin 0 else imin
  let y1 := clampI x (lo * 16) (imax * 16)
  let prev := (d.rail n).lp.limY
  let slew : Int := d.a RAIL_XISLEW_ISLEW n
  let y := if slew = 0 then y1 else clampI y1 (prev - slew) (prev + slew)
  let sath := decide (y < x)
  let satl := decide (y > x)
  let rise := (sath && !d.b RAIL_STAT_LIM_HIGH n) || (satl && !d.b RAIL_STAT_LIM_LOW n)
  let d := d.raiseIf rise RAIL_FLAGS_LIM_ENTER n
  let d := d.setB RAIL_STAT_LIM_HIGH n sath |>.setB RAIL_STAT_LIM_LOW n satl
  let d := if rise then d.hostScan n else d
  let d := d.setFs RAIL_ICMD_ICMD n y
  (d.modLp n fun l => { l with limY := y }, y)

/-! ### MOD (R76, R77, R103, R174, R210, R211, R216, R275) -/

/-- KN for an active count (R76). -/
def knOf (n : Nat) : Nat := (rdiv (2 ^ 24 : Nat) (5 * n)).toNat

/-- The current of slices of rail `n` that a calibration pulse drives HIGH, in rail-current LSBs (R174). -/
def Dev.pulseCurrent (d : Dev) (n : Nat) : Int :=
  (d.slicesOf n).foldl (fun a i =>
    if (d.slice i).cal.pulsing && d.f SLICE_STAT_LEVEL i == lvHigh then a + rshr (5 * (d.slice i).i) 2 else a) 0

/-- The share command of the decision; the last part is true when ICMD + H + P saturated (R275). On a spanning rail the
lead forms and keeps the share it writes (R210). -/
def Dev.shareCommand (d : Dev) (n : Nat) (icmd p : Int) : Dev × Int × Bool :=
  let kn : Int := (d.rail n).lp.kn
  let h := (d.rail n).te.h
  let ix := d.pulseCurrent n
  let exact := icmd + h + p - ix
  let base := satS 24 exact
  let (d, ish) := match d.spanOf n with
    | none => (d, satS 12 (rshr (base * kn) 22))
    | some c =>
      let d := if d.f CHAIN_SPANc_STAT_STATE c = spLead then
          let s := clampI (satS 12 (rshr (icmd * kn) 22)) (-2045) 2047
          (d.modSpan c fun x => { x with s := s }).setFs CHAIN_SPANc_SHARE_S c s
        else d
      (d, satS 12 (d.spanShare n c icmd + rshr ((h - ix) * kn) 22))
  let ish := if d.b RAIL_STAT_SOFTSTART n then max ish 0 else ish
  let d := match d.spanOf n with
    | some c => if d.f CHAIN_SPANc_STAT_STATE c = spAuto then d.modSpan c fun x => { x with lastAuto := ish } else d
    | none => d
  (d.modLp n fun l => { l with ish := ish }, ish, base != exact)

/-- ton_i (R77). -/
def Dev.duty (d : Dev) (n i vref : Nat) (ish : Int) : Nat :=
  let ff := rshr ((vref : Int) * d.rvin n) 13
  let di := ff + d.as RAIL_XKCUR_KCUR n * (ish - (d.slice i).i) + d.fs SLICE_BAL_BAL i
  let di := clampI di (d.a RAIL_XDMIN_DMIN n) (d.a RAIL_XDMAX_DMAX n)
  (rshr (di * (d.rail n).sq.tsw) 22).toNat

/-- MOD on every slice that switches (R77). -/
def Dev.modNode (d : Dev) (n vref : Nat) (ish : Int) : Dev :=
  d.each (d.onSlices n) fun i d => d.placeEdges n i (d.duty n i vref ish)

/-- Marks of R156 that this decision makes on the slices' own periods. -/
def Dev.balanceHold (d : Dev) (n : Nat) : Dev :=
  if d.f RAIL_TE_STAT_STATE n != 0 || d.b HMRAIL_STAT_SCHED n || d.b RAIL_STAT_LIM_HIGH n || d.b RAIL_STAT_LIM_LOW n then
    d.each (d.onSlices n) fun i d => d.modSlice i fun s => { s with hold := true }
  else d

/-! ### One decision -/

/-- The samples of the slices of rail `n` (R47-R49): registers, faults, streams, open-wire tests. Rail 0's decision also
takes the samples of unassigned slices. -/
def Dev.takeSlices (d : Dev) (n : Nat) (raws : List (BitVec 12)) (cf : Nat) : Dev :=
  d.each ((List.range 32).filter fun i => d.sRail i == n) fun i d =>
    let d := d.sampleSlice n i (raws.getD i 0) (bit cf i)
    let s := d.slice i
    let tested := d.tests 0 i
    let d := if s.present then d.stream (1 + i) s.i (s.ovr || s.inv || tested) else d
    let d := if tested then d.owSample s.x (s.x == -2048 || s.x == 2047) else d
    d.bgSlice n i

/-- The five streams of a rail that is ENABLED (R259). -/
def Dev.railStreams (d : Dev) (n : Nat) (x : Sample) (it : Int) : Dev :=
  let d := d.stream (0x21 + n) x.e (x.ovw || x.unw)
  let d := d.stream (0x29 + n) (d.fs RAIL_IOUT_IS n) false
  let d := d.stream (0x31 + n) (d.fs RAIL_ICMD_ICMD n) false
  let d := d.stream (0x39 + n) x.vsense (x.ovw || x.unw)
  d.stream (0x59 + n) it false

/-- VREF and DROOP enter RAIL_VREF and the queue of references that the converter takes (R57, R80). -/
def Dev.pushVref (d : Dev) (n vref : Nat) (droop hmb : Int) : Dev :=
  let d := d.setR RAIL_VREF n (vref % 2 ^ 16 + ofS 16 droop * 2 ^ 16)
  d.modLp n fun l =>
    { l with vrefPipe := (l.vrefPipe ++ [vref]).drop ((l.vrefPipe.length + 1) - 7)
             biasPipe := (l.biasPipe ++ [hmb]).drop ((l.biasPipe.length + 1) - 7) }

/-- A decision of fast discharge (R167, R168): no loop graph; the reference is 8 × VDIS. -/
def Dev.dischargeDecision (d : Dev) (m : Mem) (n : Nat) (x : Sample) (it : Int) : Dev :=
  let d := d.pushVref n (d.vdisRef n) 0 0
  let d := d.railStreams n x it
  let d := d.bgRailTake n ((x.vref : Int) - x.e)
  let d := d.capStep n (d.f RAIL_TE_STAT_STATE n)
  let d := d.modLp n fun l => { l with index := l.index + 1 }
  d.dischargeStep m n x.e

/-- Step 4 of R59: once VSLEW is at its destination the ramp of the soft start has ended, and PG_DELAY counts from here
(R61). -/
def Dev.rampEnd (d : Dev) (n : Nat) : Dev :=
  if d.b RAIL_STAT_SOFTSTART n && (d.rail n).lp.vslew == d.slewDest n then
    (d.setB RAIL_STAT_SOFTSTART n false).modLp n fun l => { l with pgFrom := some d.now }
  else d

/-- D1 of a running loop: HMBIAS, IF, DROOP, VSLEW with the end of the ramp, VREF (R54-R57, R59). A controlled ramp that
reaches 8 × VDIS is handed over here (R169). -/
def Dev.formVref (d : Dev) (n : Nat) (it : Int) : Dev :=
  let d := d.biasStep n
  let l := (d.rail n).lp
  let filt := nextIF l.filt it (d.a RAIL_XVERR_DROOP_TC n)
  let dest := d.slewDest n
  let vslew := slewTo l.vslew dest (d.slewStep n)
  let d := d.modLp n fun l => { l with filt := filt, it := it, vslew := vslew }
  let d := d.rampCheck n
  if (d.rail n).phase == .discharge then d else
  let d := d.rampEnd n
  let droop := droopOf (d.a RAIL_XLLGAIN_GAIN n) filt
  let hmb := (d.hr n).hmb
  d.pushVref n (vrefOf vslew droop hmb) droop hmb

/-- D2 to D4 of a running loop, after D1 has formed VREF (R63-R81, R93-R103, R119, R164). -/
def Dev.runLevels (d : Dev) (n : Nat) (x : Sample) (is it : Int) : Dev :=
  let v : Int := (x.vref : Int) - x.e
  let d := d.level2 n x.e is
  let te0 := d.f RAIL_TE_STAT_STATE n
  let (q, upS, dnS) := d.teDetect n x.e v
  let (d, y) := d.cbalNode n (d.sumNode n) x.e is
  let (d, icmd) := d.limitNode n y
  let d := d.windowGuard n (x.hmb - x.e) x.ovw x.unw
  let lde := it + q.ds
  let d := if d.teRuns n then d.teStep n q x.e lde else d.teStop n
  let d := d.hitTest n lde
  let d := (d.handoffDecay n).showArm n
  let d := d.modTe n fun t =>
    { t with vHist := (v :: t.vHist).take 8, lde := (lde :: t.lde).take 16, upSeen := upS, dnSeen := dnS, ds := q.ds }
  let p := d.sweepP n
  let (d, ish, clipped) := d.shareCommand n icmd p
  let d := if (d.rail n).phase == .running then d.modNode n (d.f RAIL_VREF_VREF n) ish else d.dischargeDrive n
  let d := d.balanceHold n
  let d := d.railStreams n x it
  let d := d.bgRailTake n v
  let d := d.capStep n te0
  let d := d.sweepStep n v it clipped
  let d := d.modSq n fun s => { s with ievalSum := s.ievalSum + it, ievalN := s.ievalN + 1 }
  let in_ := decide (x.e.natAbs ≤ 8 * d.f RAIL_SOFTSTART_PG_WIN n)
  let ramp := d.b RAIL_STAT_SOFTSTART n
  let d := d.modLp n fun l =>
    { l with index := l.index + 1, pgFrom := if ramp || !in_ then none else some (l.pgFrom.getD d.now) }
  d.showSeq n

/-- A decision of the pre-bias measurement (R59): its sample counts in the windows, and VPRE is taken from the first window
whose 16th sample carries no tag. -/
def Dev.prebiasSample (d : Dev) (n : Nat) (x : Sample) : Dev :=
  d.modLp n fun l =>
    if l.preN ≥ 64 then l else
    let good := l.preN % 16 = 15 && !x.ovw && !x.unw && l.vpre.isNone
    { l with preN := l.preN + 1, vpre := if good then some ((x.vref : Int) - x.e) else l.vpre }

/-- A decision between step 3 of R59 and the first switching decision: its sample is not used; VSLEW slews, and the
reference formed from it enters the queue that the converter takes. A controlled ramp that reaches 8 × VDIS here is handed
over (R169). DESIGN CHOICE (log 70): IF stays, and VREF is formed with DROOP 0 and HMBIAS 0. -/
def Dev.skipDecision (d : Dev) (n : Nat) : Dev :=
  let v := slewTo (d.rail n).lp.vslew (d.slewDest n) (d.slewStep n)
  let d := (d.modLp n fun l => { l with vslew := v, skip := l.skip - 1 }).rampCheck n
  if (d.rail n).phase == .discharge then d else (d.rampEnd n).pushVref n (vrefOf v 0 0) 0 0

/-- The sample that a static test of rail `n` takes, with the reference at 0 (R267). -/
def Dev.owRail (d : Dev) (n : Nat) (vs : Int) : Dev :=
  let e := satS 12 (-vs)
  if d.tests 1 n then d.owSample (-e) (e == -2048 || e == 2047) else d

/-- One decision of rail `n` from the rail sample `vs` and the slice codes `raws` of its hold edge; bit i of `cf` tags a
converter fault of slice i (R81). DESIGN CHOICE (log 70): while the rail is not ENABLED, RAIL_ERR and RAIL_VSENSE keep the
last sample. A static test of the rail that runs takes its sample (R267), one more: DESIGN CHOICE (log 79) when the rail has
become ENABLED since. -/
def Dev.decision (d : Dev) (m : Mem) (n : Nat) (vs : Int) (raws : List (BitVec 12)) (cf : Nat) : Dev :=
  let d := d.shutPending n
  let on := d.onSlices n
  let d := d.takeSlices n raws cf
  let d := d.each ((List.range 32).filter fun i => d.sRail i == n) fun i d => d.placeLeaving i
  let d := d.owRail n vs
  if !d.b RAIL_STAT_ENABLED n then d else
    let waits := (d.rail n).phase == .running && (d.rail n).lp.skip != 0
    let x := if (d.rail n).phase == .prebias || waits then d.windowSample n vs else d.railSample n vs
    let d := d.showSample n x
    let is := d.isum n on
    let d := d.setFs RAIL_IOUT_IS n is |>.modLp n fun l => { l with ls := is }
    let it := d.totalCurrent n is
    let idle := fun (d : Dev) => (d.railStreams n x it).capStep n (d.f RAIL_TE_STAT_STATE n)
    match (d.rail n).phase with
    | .discharge => d.dischargeDecision m n x it
    | .running =>
      if waits then idle (d.skipDecision n) else
      let d := d.formVref n it
      if (d.rail n).phase == .discharge then d.dischargeDecision m n x it else d.runLevels n x is it
    | .prebias => idle (d.prebiasSample n x)
    | _ => idle d

/-! ### Soft start (R59-R61, R214) -/

/-- RAIL_DISABLE (R62): a shutdown with cause EN_CLEAR; no effect on a rail that is not enabled. -/
def execRailDisable (n : Fin 8) (s : State) : Outcome := s.onDev fun d =>
  d.storeTo RAIL_CTRL n fun d => (d.setB RAIL_CTRL_EN n false).shutAsk n causeEnClear

/-- TON_DELAY_EXPIRY (R59): TON_DELAY has passed since the start, and the pre-bias measurement begins. -/
def execTonDelayExpiry (n : Fin 8) (s : State) : Outcome := s.onFabric fun d =>
  if (d.rail n).phase == .tonDelay && decide (d.now ≥ (d.rail n).startAt + 400 * d.f RAIL_SOFTSTART_TON_DELAY n) then
    d.modRail n fun x => { x with phase := .prebias, lp := { x.lp with preN := 0, vpre := none } }
  else d

/-- The rail leaves ENABLED without a shutdown (R59, R219): every slice at tri-state, members SHED. A commit that waits takes
force in the cycle in which the loop stops (R90). -/
def Dev.railOff (d : Dev) (m : Mem) (n : Nat) : Dev :=
  let d := d.commitTake n
  let d := d.each (d.slicesOf n) fun i d =>
    let d := d.tri i d.w0
    if d.isOn i then d.setState i stShed else d
  let d := d.setB RAIL_STAT_ENABLED n false |>.setB RAIL_STAT_SOFTSTART n false |>.setB RAIL_CTRL_EN n false
  let d := d.setB RAIL_STAT_POWER_GOOD n false |>.setB RAIL_STAT_FOLLOWER n false
  let d := d.modRail n fun x => { x with phase := .idle }
  let d := (d.teStop n).hmDrop n
  let d := d.modSq n fun q => { q with pend := [], cause := 0 }
  let d := d.lopEndRail n opFailed 3
  let d := (d.readmitShed n).railStreamsStop n
  let d := match (d.rail n).sq.swapTo with
    | some p => d.swapRail m n p
    | none => d
  d.showSeq n

/-- OFF_j (R148). -/
def offOf (j n tsw : Nat) : Nat := min (rdiv ((j : Int) * tsw) n).toNat (tsw - 192)

/-- The positions of the active set with their rank: local positions whose slice is staffed, ranked in plan order; on a
spanning rail the first `cnt` of the rail-wide plan, by their rail-wide position, and the slices that joined here since `cnt`
last changed (R148, R150, R155, R212, R213). -/
def Dev.activePlan (d : Dev) (n cnt : Nat) : List (Nat × Nat) :=
  let q := (d.rail n).sq
  match d.spanOf n with
  | some _ => (q.plan.zip q.planIdx).filter fun p => p.2 < cnt || (cnt == (d.rail n).lp.n && d.sState p.1 == stActive)
  | none => ((q.plan.filter d.staffs).take cnt).zipIdx

/-- Step 9 of R162: the active set, offsets and KN for `cnt` active slices with the boundary at edge code `b` (R148, R149,
R76). A slice that leaves completes its on-time; one in its off-time drives tri-state. DESIGN CHOICE (log 78): a slice that is
ENGINE_ADDED still, since the healthy test has failed and step 6 has not run, is ACTIVE from here where it is among the first
`cnt` and SHED otherwise. -/
def Dev.setActive (d : Dev) (n cnt b : Nat) : Dev :=
  let tsw := (d.rail n).sq.tsw
  let act := d.activePlan n cnt
  let d := d.modLp n fun l => { l with n := cnt, kn := knOf cnt }
  let d := d.each ((d.rail n).sq.plan.filter d.staffs) fun i d =>
    match act.find? fun p => p.1 == i with
    | some (_, j) =>
      let off := offOf j cnt tsw
      let fresh := !d.isOn i
      let joins := d.sState i != stActive
      let d := if joins then d.modSlice i fun s => { s with run := false, hasAvg := false, perAt := b, used := 0 } else d
      let d := (d.setState i stActive).setF SLICE_TON_OFFSET i off
      let d := if fresh then (d.setR SLICE_BAL i 0).modSlice i fun s =>
          { s with iSum := 0, iN := 0, used := 0, whUntil := 0, leaving := false, imbCnt := 0 } else d
      d.modSlice i fun s => { s with off := off, rank := j, nextAt := b + off, leaving := false }
    | none =>
      if d.isOn i then (d.leave n i b).setState i stShed else d
  d.showSeq n

/-- Step 9 of R162 in a shutdown, in which N and the active set are frozen (R167): the slices that switch take the offsets of
the TSW in force, each by its rank (R147, R148). DESIGN CHOICE (log 78): step 6 does not run, so a slice that is ENGINE_ADDED
then stays so, LOW and without on-edges, until the shutdown ends. -/
def Dev.setOffsets (d : Dev) (n b : Nat) : Dev :=
  let q := (d.rail n).sq
  if (d.rail n).phase != .running then d else
  d.each ((d.activeSlices n)) fun i d =>
    let off := offOf (d.slice i).rank (d.rail n).lp.n q.tsw
    (d.setF SLICE_TON_OFFSET i off).modSlice i fun s => { s with off := off, nextAt := b + off }

/-- The rail begins from VPRE (step 3 of R59): VSLEW, the references formed so far, the loop's states, the active set for
zero load, whose first periods start from edge code `b`. `skip` decisions are still to come before the first one that uses
its sample; each forms a reference of its own, and where there are none the references of the six are formed here. DESIGN
CHOICE (log 70): every state of the loop (IF, node states and histories, the previous LIMIT output) starts at 0, also after
an earlier run. A VPRE at the target or above it, or one slewed to it here, ends the ramp (step 4). -/
def Dev.beginRun (d : Dev) (n : Nat) (vpre : Int) (b skip : Nat) : Dev :=
  let top := 2 * d.f RAIL_VTARGET_VTARGET n
  let v0 := (min (max vpre 0) top).toNat * 2 ^ 16
  let d := d.raiseIf (decide (vpre > top)) RAIL_FLAGS_PREBIAS_ABOVE n
  let step := d.slewStep n
  let dest := d.slewDest n
  let seq := (List.range (6 - skip)).foldl (fun l _ => l ++ [slewTo (l.getLastD v0) dest step]) [v0]
  let vrefs := seq.map fun v => vrefOf v 0 0
  let d := d.modRail n fun x => { x with phase := .running, te := { rvd := x.te.rvd, rvo := x.te.rvo } }
  let d := d.modRail n fun x => { x with lp := { vslew := seq.getLastD v0, vrefPipe := vrefs
                                                 biasPipe := vrefs.map fun _ => 0, skip := skip } }
  let d := d.setR RAIL_VREF n (vrefs.getLastD 0 % 2 ^ 16)
  let d := d.setB RAIL_STAT_CBAL_ACTIVE n false |>.setB RAIL_STAT_LIM_HIGH n false |>.setB RAIL_STAT_LIM_LOW n false
  let d := d.setB RAIL_STAT_HOLD n false
  let d := d.modSq n fun q =>
    { q with
      tsw := d.f RAIL_PWM_TSW n, bEdge := b + d.f RAIL_PWM_TSW n, shedCnt := 0, ievalSum := 0, ievalN := 0, ovCnt := 0, uvCnt := 0,
      okCnt := 0, fast := false, cause := 0, rev := [] }
  let cnt := min (d.f RAIL_PHASE_NMIN n) (d.staffed n)
  let cnt := match d.spanOf n with
    | some _ => d.f RAIL_PHASE_NMIN n
    | none => cnt
  let d := (d.rampEnd n).setActive n cnt b
  match d.spanOf n with
  | some c => d.setF CHAIN_SPANc_MEMB_NR c cnt
  | none => d

/-- Rail sample `v` of the pre-bias windows, brought by PREBIAS_MEASUREMENT (R59), with its streams and a capture's part
(R259, R273). -/
def Dev.prebiasTake (d : Dev) (n : Nat) (v : Int) : Dev :=
  let d := d.owRail n v
  let x := d.windowSample n v
  let d := ((d.showSample n x).prebiasSample n x).railStreams n x (d.totalCurrent n (d.rail n).lp.ls)
  d.capStep n (d.f RAIL_TE_STAT_STATE n)

/-- PREBIAS_MEASUREMENT (R59, R214): with the samples `vs` the 64 of the windows have been taken; it stands in the decision
of the last. The lead of a spanning rail announces BT0 in place of beginning. -/
def Dev.prebias (d : Dev) (m : Mem) (n : Nat) (vs : List Int) : Dev :=
  if (d.rail n).phase != .prebias || (d.rail n).lp.preN + vs.length < 64 then d else
  let d := vs.foldl (fun d v => d.prebiasTake n v) d
  match (d.rail n).lp.vpre with
  | none => ((d.raise RAIL_FLAGS_START_FAIL n).post 1 0x010 n []).railOff m n
  | some vpre =>
    match d.spanOf n with
    | none => d.beginRun n vpre (32 * (d.now + 19)) 6
    | some c =>
      let bt0 := (d.r CHAIN_RTIME + d.txWait c 16 + d.planLead) % 2 ^ 32
      let d := d.modRail n fun x => { x with phase := .armed }
      let d := d.setF CHAIN_SPANc_STAT_STATE c spArmed
      let d := d.modSpan c fun s => { s with vpre := some vpre, bt0 := some bt0, k := 0, e := 32 * bt0 % 2 ^ 37 }
      d.sendMsg 2 c ((max vpre 0).toNat % 2 ^ 16 * 2 ^ 24 + bt0 % 2 ^ 24)

def execPrebiasMeasurement (n : Fin 8) (vs : List Int) (s : State) : Outcome := s.onFabric fun d => d.prebias s.mem n vs

/-- POWER_GOOD_QUALIFIED (R61): every sample of the last PG_DELAY since the end of the ramp has been within 8 × PG_WIN.
POWER_GOOD becomes 1, the window guard and the first CAL_INT start here. -/
def Dev.powerGood (d : Dev) (n : Nat) : Dev :=
  if (d.rail n).phase == .running && !d.b RAIL_STAT_SOFTSTART n && !d.b RAIL_STAT_SHUTTING n &&
      !d.b RAIL_STAT_POWER_GOOD n &&
      (d.rail n).lp.pgFrom.any fun t => decide (d.now ≥ t + 400 * d.f RAIL_SOFTSTART_PG_DELAY n) then
    let d := d.setB RAIL_STAT_POWER_GOOD n true |>.raise RAIL_FLAGS_PG_SET n
    d.modSq n fun q => { q with ovCnt := 0, uvCnt := 0, calEnd := d.now }
  else d

def execPowerGoodQualified (n : Fin 8) (s : State) : Outcome := s.onFabric fun d => d.powerGood n

/-! ### The basic writes and the expert commands as rows -/

def execRailSlewWrite (n : Fin 8) (v : Word) (s : State) : Outcome := s.onDev fun d =>
  d.storeTo RAIL_SLEW n fun d => d.writeSlew n v.toNat
def execRailLoadlineWrite (n : Fin 8) (v : Word) (s : State) : Outcome := s.onDev fun d =>
  d.storeTo RAIL_LOADLINE n fun d => d.writeLoadline n v.toNat
def execRailIlimitWrite (n : Fin 8) (v : Word) (s : State) : Outcome := s.onDev fun d =>
  d.storeTo RAIL_ILIMIT n fun d => d.writeIlimit n v.toNat
def execRailSoftstartWrite (n : Fin 8) (v : Word) (s : State) : Outcome := s.onDev fun d =>
  d.storeTo RAIL_SOFTSTART n fun d => d.writeSoftstart n v.toNat
def execRailTeCoutWrite (n : Fin 8) (v : Word) (s : State) : Outcome := s.onDev fun d =>
  d.storeTo RAIL_TE_COUT n fun d => d.writeTeCout n v.toNat
def execRailPwmWrite (n : Fin 8) (v : Word) (s : State) : Outcome := s.onDev fun d =>
  d.storeTo RAIL_PWM n fun d => d.writePwm n v.toNat
def execRailAddshedWrite (n : Fin 8) (v : Word) (s : State) : Outcome := s.onDev fun d =>
  d.storeTo RAIL_ADDSHED n fun d => d.writeAddShed n v.toNat
def execCommitTakeForce (n : Fin 8) (s : State) : Outcome := s.onFabric fun d => d.commitTake n

/-- EXPERT_COMMIT is a write of RAIL_XCTL.COMMIT: without EXPERT_UNLOCK it has no effect (R16, R88). -/
def execExpertCommit (n : Fin 8) (s : State) : Outcome := s.onDev fun d =>
  d.storeTo RAIL_XCTL n fun d => d.commitRequest n

/-- EXPERT_REVERT is a write of RAIL_XCTL.REVERT (R16, R88, R89). -/
def execExpertRevert (n : Fin 8) (s : State) : Outcome := s.onDev fun d =>
  d.storeTo RAIL_XCTL n fun d => d.revertRail n

/-- RAIL_VTARGET_WRITE (R54, R55, R214): on the lead of a spanning rail the target is announced for an RT at least
PLAN_LEAD ahead, and takes effect there. -/
def Dev.vtargetWrite (d : Dev) (n v : Nat) : Dev :=
  match d.spanOf n with
  | some c =>
    if d.isLead c then
      let x := v % 2 ^ 16
      if x < 0x04B0 || x > 0x1F40 then d.railReject n
      else if !d.b RAIL_STAT_ENABLED n then d.writeVtarget n v
      else
        let at_ := (d.r CHAIN_RTIME + d.txWait c 16 + d.planLead) % 2 ^ 32
        let d := d.modSpan c fun s => { s with target := s.target ++ [(x, at_)] }
        d.sendTarget c x at_
    else d.writeVtarget n v
  | none => d.writeVtarget n v

def execRailVtargetWrite (n : Fin 8) (v : Word) (s : State) : Outcome := s.onDev fun d =>
  d.storeTo RAIL_VTARGET n fun d => d.vtargetWrite n v.toNat

/-- RAIL_TE_COUNT_READ (R131): the read returns the counts and clears them. -/
def execRailTeCountRead (n : Fin 8) (s : State) : Outcome := s.onDev fun d =>
  (d.answer (d.r RAIL_TE_COUNT n)).setR RAIL_TE_COUNT n 0

/-- SLICE_PERIOD_BOUNDARY (R78, R145, R269): an engine-added slice has no period of its own before it joins (R98), and in fast
discharge no slice switches (R168). -/
def execSlicePeriodBoundary (i : Fin 32) (s : State) : Outcome := s.onFabric fun d =>
  if d.isOn i && d.sState i == stActive && (d.rail (d.sRail i)).phase != .discharge then (d.bgSliceEnd i).slicePeriod i else d

end Sys2Proof.Machine
end

