-- ==== Sys2Proof/Machine/Boundary.lean ====
section
/-! DEFINITION. The period boundary: swap, calibration transitions, substitution, healthy test, join, add and shed,
calibration start, the new active set (R148-R163); rotating calibration and readmission (R172-R179); stage faults
(R158). PERIOD_BOUNDARY runs once the decisions up to the cut have run (assumption 5). -/
namespace Sys2Proof.Machine

/-- Bits of RAIL_BOUND.ACTIONS (R181). -/
abbrev actSwap : Nat := 0
abbrev actCal : Nat := 1
abbrev actSubst : Nat := 2
abbrev actHealth : Nat := 3
abbrev actJoin : Nat := 4
abbrev actAdd : Nat := 5
abbrev actShed : Nat := 6
abbrev actRev : Nat := 7
abbrev actCalStart : Nat := 8

/-- An action takes effect at this boundary. -/
def Dev.acted (d : Dev) (n k : Nat) : Dev := d.setF RAIL_BOUND_ACTIONS n (putBits (d.f RAIL_BOUND_ACTIONS n) k 1 1)

/-- Plan position of local position `j`. -/
def Dev.posLabel (d : Dev) (n j : Nat) : Nat := (d.rail n).sq.planIdx.getD j j

/-- Replace slice `old` by `new` in the spare list (R160). -/
def Dev.spareSwap (d : Dev) (n old new : Nat) : Dev :=
  d.modSq n fun q => { q with spares := q.spares.map fun x => if x = old then new else x }

/-- Slice `new` takes local position `j` of rail `n` from slice `old`, which becomes a spare in its state and takes the
place of `new` in the list (R160, R173, R177). -/
def Dev.takePosition (d : Dev) (n j old new : Nat) : Dev :=
  let d := d.modSq n fun q => { q with plan := q.plan.set j new }
  let d := d.spareSwap n new old
  let d := d.setF SLICE_STAT_ROLE old roleSpare |>.setF SLICE_STAT_POSITION old 0xFF
  let d := d.setF SLICE_STAT_ROLE new roleMember |>.setF SLICE_STAT_POSITION new (d.posLabel n j) |>.setState new stShed
  let d := (d.freshCond old).freshCond new
  (d.setR SLICE_BAL new 0).modSlice new fun s => { s with whUntil := 0, hasAvg := false, run := false, iSum := 0, iN := 0 }

/-! ### Step 3: calibration transitions (R174, R177) -/

/-- The trims of a PASS take force: OFS', lq and dcr, in force and staged; KI stays (R177, R186). An expert write of them that
still waits is overwritten with them (R187). -/
def Dev.calTrims (d : Dev) (i : Nat) : Dev :=
  let c := (d.slice i).cal
  let lq := c.lq % 2 ^ 16 + min c.dcr 65535 * 2 ^ 16
  let d := d.setFs SLICE_OFS_OFS i c.ofs |>.setFs SLICE_XOFS_OFS i c.ofs |>.setR SLICE_LQ i lq |>.setR SLICE_XLQ i lq
  (d.modSlice i fun s => { s with xset := false, wait := s.wait &&& 2 }).showSliceExpert i

/-- Slice `x` leaves CAL and takes back its position from the cover; a calibrated spare becomes FREE (R177). DESIGN CHOICE
(log 78): a CAL_NOW written while its slice is in CAL, FAULTED or READMIT is dropped when that calibration ends, the slice
becomes FAULTED or its readmission starts. -/
def Dev.calReturn (d : Dev) (n x b : Nat) : Dev :=
  let c := (d.slice x).cal
  let d := match c.pos with
    | some j =>
      match (d.rail n).sq.plan[j]? with
      | some cov =>
        let d := (d.setB SLICE_STAT_COVER cov false).takePosition n j cov x
        if d.sState cov = stFaulted || d.sState cov = stReadmit then d else (d.leave n cov b).setState cov stFree
      | none => d.setState x stFree
    | none => d.setState x stFree
  let d := d.setF SLICE_STAT_CALSTEP x 0 |>.modSlice x fun s => { s with cal := {} }
  let d := d.modSq n fun q => if q.calCur == some x then { q with calCur := none, calLast := x, calEnd := d.now } else q
  d.acted n actCal

/-- A pulse of slice `i` begins at the first ADC rising edge at or after the boundary at edge code `b` (R174). V is formed
at the first pulse (R175). DESIGN CHOICE (log 78): the start of a pulse sets no bit of RAIL_BOUND.ACTIONS; calibration
transitions are the return and the abort. -/
def Dev.calPulse (d : Dev) (n i b : Nat) : Dev :=
  let c0 := ceilDiv b 32
  let h0 := c0 + c0 % 2
  let v : Int := (d.f RAIL_VIN_VIN n : Int) - (d.f RAIL_VSENSE_VSENSE n / 4 : Nat)
  let d := d.drive i lvHigh (32 * h0)
  d.modCal i fun c => { c with pulsing := true, taking := true, h0 := h0, v := if c.pulses = 0 then v else c.v }

/-- A pulse of slice `i` may start at this boundary (R174). -/
def Dev.pulseReady (d : Dev) (n i : Nat) : Bool :=
  let c := (d.slice i).cal
  d.f SLICE_STAT_CALSTEP i == 3 && !c.pulsing && !c.taking && decide (c.pulses < d.npl n) && d.calZero n i &&
    d.f RAIL_TE_STAT_STATE n == 0

/-- A calibration is aborted at this boundary, which is a calibration transition of its own (R162, R177). -/
def Dev.boundAbort (d : Dev) (n i : Nat) : Dev :=
  if d.sState i = stCal && !(d.slice i).cal.abort then (d.abortCal i).acted n actCal else d.abortCal i

/-- Step 3 for one slice of the rail. -/
def Dev.calTransition (d : Dev) (n i b : Nat) : Dev :=
  let c := (d.slice i).cal
  if d.sState i = stCal then
    if c.ret then
      let d := (d.calTrims i).calReturn n i b
      let d := d.raise SLICE_FLAGS_CAL_DONE i |>.raise RAIL_FLAGS_CAL_DONE n
      let d := d.post 3 0x030 i [d.f SLICE_OFS_OFS i, d.r SLICE_LQ i, d.f SLICE_CALRES0_PASSES i]
      d.passEnded i 0
    else
      let d := if !c.abort && !d.b RAIL_CAL_CAL_EN n && d.accum.lop.cur != some i then d.boundAbort n i else d
      if (d.slice i).cal.abort then
        if d.calZero n i then (d.calReturn n i b).passEnded i 6 else d
      else if d.pulseReady n i then d.calPulse n i b
      else d
  else if d.sState i = stReadmit && d.pulseReady n i then d.calPulse n i b
  else d

/-! ### Step 4: substitution (R160, R161) -/

/-- Members whose readmission has passed take back their positions (R160, R179). -/
def Dev.readmitReturn (d : Dev) (n : Nat) : Dev :=
  d.each ((d.rail n).sq.plan.filter fun i => d.sState i == stReadmit && (d.slice i).cal.passed) fun i d =>
    ((d.setState i stShed).setR SLICE_BAL i 0).modSlice i (fun s => { s with cal := {}, hasAvg := false }) |>.acted n actSubst

/-- A slice in calibration is to take back local position `j` of rail `n` (R173, R177). -/
def Dev.coveredPos (d : Dev) (n j : Nat) : Bool :=
  (d.slicesOf n).any fun x => d.sState x == stCal && (d.slice x).cal.pos == some j

/-- The vacant local position `j` is filled from the first FREE spare, or stays vacant (R160, R178). A spare that
takes a position whose cover has faulted is its cover from now on (R185). -/
def Dev.fillPosition (d : Dev) (n j : Nat) : Dev :=
  let old := (d.rail n).sq.plan.getD j 0
  match (d.freeSpares n).head? with
  | some sp =>
    let d := ((d.owAbandon sp).takePosition n j old sp).setB SLICE_STAT_COVER sp (d.coveredPos n j)
    let d := d.raise SLICE_FLAGS_TOOK_POS sp |>.raise RAIL_FLAGS_SUBST n |>.hostScan n
    let cnt := satAdd 8 (d.f RAIL_SUBST_COUNT n) 1
    let d := d.setR RAIL_SUBST n (old + sp * 2 ^ 8 + d.posLabel n j * 2 ^ 16 + cnt * 2 ^ 24)
    let d := d.modSq n fun q => { q with vacSeen := q.vacSeen.filter (· != j) }
    (d.post 0 0x002 n [d.r RAIL_SUBST n, d.f RAIL_BOUND_COUNT n]).acted n actSubst
  | none =>
    let d := match (d.rail n).sq.calCur with
      | some x => d.boundAbort n x
      | none => d
    if (d.rail n).sq.vacSeen.contains j then d
    else
      let d := d.raise RAIL_FLAGS_VACANT n |>.raise RAIL_FLAGS_SPARES_OUT n |>.hostScan n
      let d := d.modSq n fun q => { q with vacSeen := q.vacSeen ++ [j] }
      d.post 1 0x011 n [d.posLabel n j]

/-- Step 4. -/
def Dev.substitute (d : Dev) (n : Nat) : Dev :=
  let d := (d.readmitReturn n).showSeq n
  let plan := (d.rail n).sq.plan
  d.each ((List.range plan.length).filter fun j => !d.staffs (plan.getD j 0)) fun j d => d.fillPosition n j

/-! ### Transfers between the devices of a spanning rail at their boundary (R219-R221) -/

/-- This device has given up its last position by a withdrawal: it leaves the rail without a shutdown and says so. -/
def Dev.withdrawSelf (d : Dev) (m : Mem) (n c : Nat) : Dev :=
  let pos := d.f CHAIN_STAT_POS
  let d := d.railOff m n
  let d := d.setF CHAIN_SPANc_STAT_STATE c 0
  let d := d.setF CHAIN_SPANc_MEMB_MEMBERS c (putBits (d.f CHAIN_SPANc_MEMB_MEMBERS c) pos 1 0)
  d.sendMsg 10 c (pos * 2 ^ 36)

/-- Local position `j` of rail `n` leaves this device: the indices of the positions after it that the sequencer keeps move
down by one, and a slice in calibration that was to take it back will not (R160, R177). -/
def Dev.dropPosition (d : Dev) (n j : Nat) : Dev :=
  let down := fun k => if k > j then k - 1 else k
  let d := d.each (d.slicesOf n) fun i d =>
    d.modCal i fun c => { c with pos := (c.pos.filter (· != j)).map down }
  d.modSq n fun q => { q with plan := q.plan.eraseIdx j, planIdx := q.planIdx.eraseIdx j
                              vacSeen := (q.vacSeen.filter (· != j)).map down }

/-- Slice `i` takes plan position `pp` of rail `n` here: the local positions stand in plan order, so the indices of those
after it that the sequencer keeps move up by one (R160, R219). -/
def Dev.insertPosition (d : Dev) (n pp i : Nat) : Dev :=
  let j := ((d.rail n).sq.planIdx.filter (· < pp)).length
  let up := fun k => if k ≥ j then k + 1 else k
  let d := d.each (d.slicesOf n) fun x d => d.modCal x fun c => { c with pos := c.pos.map up }
  d.modSq n fun q =>
    { q with plan := q.plan.take j ++ i :: q.plan.drop j, planIdx := q.planIdx.take j ++ pp :: q.planIdx.drop j
             vacSeen := q.vacSeen.map up, spares := q.spares.filter (· != i) }

/-- Slice `i` gives up its position of rail `n`. DESIGN CHOICE (log 70): R219 only has it drive tri-state; it becomes a
spare of the rail while this device holds fewer than the 4 of R4, and is unassigned otherwise. -/
def Dev.giveUp (d : Dev) (n i : Nat) : Dev :=
  let d := (d.setF SLICE_STAT_POSITION i 0xFF).setB SLICE_STAT_COVER i false |>.freshCond i
  if (d.rail n).sq.spares.length < 4 then
    let d := d.setF SLICE_STAT_ROLE i roleSpare
    let d := if d.staffs i then d.setState i stFree else d
    d.modSq n fun q => { q with spares := q.spares ++ [i] }
  else (d.setF SLICE_STAT_ROLE i roleNone).setState i 0

/-- One transfer of plan position `pp` from device `from_` to device `to_` (R219, R220). -/
def Dev.xferOne (d : Dev) (n c b from_ to_ pp : Nat) : Dev :=
  let d := d.modSpan c fun s => { s with plan := s.plan.set pp to_ }
  let pos := d.f CHAIN_STAT_POS
  let q := (d.rail n).sq
  if to_ = pos then
    match q.planIdx.idxOf? pp with
    | some _ => d
    | none =>
      match (d.freeSpares n).head? with
      | none => d
      | some sp =>
        let d := d.owAbandon sp
        let d := d.setF SLICE_STAT_ROLE sp roleMember |>.setF SLICE_STAT_POSITION sp pp |>.setState sp stShed
        let d := (d.setR SLICE_BAL sp 0 |>.raise SLICE_FLAGS_TOOK_POS sp).freshCond sp
        d.insertPosition n pp sp
  else if from_ = pos then
    match q.planIdx.idxOf? pp with
    | none => d
    | some j =>
      let i := q.plan.getD j 0
      ((d.leave n i b).dropPosition n j).giveUp n i
  else d

/-- FREE count of device `p` in its latest SPAN_READY report. -/
def SpanSt.freeOf (s : SpanSt) (p : Nat) : Nat := ((s.ready.find? fun r => r.1 == p).map fun r => r.2.1).getD 0

/-- Device `p` is armed for admission by its latest SPAN_READY report (R206, R220). -/
def SpanSt.armed (s : SpanSt) (p : Nat) : Bool := (s.ready.find? fun r => r.1 == p).any fun r => r.2.2.1

/-- The transfers among `due` that take place: to a member with a FREE spare left for each, by its own list here and by its
latest SPAN_READY report elsewhere, or to a device that is armed for admission. The others leave their positions where they
are (R219, R220). Every member judges by the same reports (log 73). -/
def Dev.xferTaken (d : Dev) (n c : Nat) (due : List (Nat × Nat × Nat × Nat)) : List (Nat × Nat × Nat × Nat) :=
  let s := d.span c
  due.foldl (fun acc x =>
    let p := x.2.2.1
    let free := if p = d.f CHAIN_STAT_POS then (d.freeSpares n).length else s.freeOf p
    let member := bit (d.f CHAIN_SPANc_MEMB_MEMBERS c) p
    if s.armed p || (member && (acc.filter fun y => y.2.2.1 == p).length < free) then acc ++ [x] else acc) []

/-- The lead's command ends at its boundary, with `taken` of the `named` transfers made (R219-R221). -/
def Dev.spanCmdAt (d : Dev) (c taken named : Nat) : Dev :=
  let s := d.span c
  let d := d.setF CHAIN_SPANCMDST_PARTIALS 0 taken
  if s.cmd = 2 && !s.armed s.cmdPos then d.spanCmdEnd c opFailed 3
  else if taken < named then d.spanCmdEnd c opFailed 2
  else d.spanCmdEnd c opDone 0

/-- The transfers named for this boundary of channel `c` take effect (R219, R220); the lead's command for it ends. A member
that has given its last position to one that was not armed for admission is withdrawn. -/
def Dev.spanXfers (d : Dev) (m : Mem) (n c b : Nat) : Dev :=
  let s := d.span c
  let due := s.xfers.filter fun x => x.1 == s.k
  let d := d.modSpan c fun s => { s with xfers := s.xfers.filter fun x => x.1 > s.k }
  let taken := d.xferTaken n c due
  let held := !(d.rail n).sq.plan.isEmpty
  let admits := taken.any fun x => s.armed x.2.2.1
  let d := d.each taken fun x d =>
    (d.xferOne n c b x.2.1 x.2.2.1 x.2.2.2).setF CHAIN_SPANc_MEMB_MEMBERS c
      (putBits (d.f CHAIN_SPANc_MEMB_MEMBERS c) x.2.2.1 1 1)
  let d := if taken.isEmpty then d else d.acted n actSubst
  let d := d.modSpan c fun s =>
    { s with ready := s.ready.map fun r => if taken.any fun x => x.2.2.1 == r.1 then (r.1, r.2.1, false, r.2.2.2) else r }
  let d := if s.cmd != 0 && s.cmdBound = s.k then d.spanCmdAt c taken.length due.length else d
  if held && !admits && (d.rail n).sq.plan.isEmpty && d.b RAIL_STAT_ENABLED n then d.withdrawSelf m n c else d

/-! ### Steps 6 and 7: join, reversal shed, add and shed (R151-R155, R213) -/

/-- IEVAL (R151): the mean of IT since the previous cut. -/
def Dev.ieval (d : Dev) (n : Nat) : Int :=
  let q := (d.rail n).sq
  if q.ievalN = 0 then (d.rail n).lp.it else satS 24 (rdiv q.ievalSum q.ievalN)

/-- MR of the boundary pre-add in force, 0 when none is (R117, R151). -/
def Dev.preAdd (d : Dev) (n : Nat) : Int :=
  match (d.hr n).act with
  | some p => if !p.down && !p.cancelled && decide (tdiff (d.r HM_TIME) p.ts < 0) then p.mr else 0
  | none => 0

/-- NS: the staffed positions, rail-wide on a spanning rail (R152, R206). -/
def Dev.staffedAll (d : Dev) (n : Nat) : Nat :=
  match d.spanOf n with
  | none => d.staffed n
  | some c => d.staffed n + ((d.span c).ready.filter fun r => r.1 != d.f CHAIN_STAT_POS).foldl (fun a r => a + r.2.2.2) 0

/-- NT (R152). -/
def Dev.addTarget (d : Dev) (n : Nat) (i : Int) : Nat :=
  let k := if i ≤ 0 then 0 else ceilDiv i.toNat (d.f RAIL_ADDSHED_IPH_ADD n)
  min (max k (d.f RAIL_PHASE_NMIN n)) (d.staffedAll n)

/-- Step 6 (R155) at edge code `b`: the number of slices that joined. None of them has completed a period as an active slice
(R78), and what it was HIGH before `b` belongs to the period that ends there (R101, R145). -/
def Dev.joinEngine (d : Dev) (n b : Nat) : Dev × Nat :=
  let l := (d.slicesOf n).filter fun i => d.sRole i == roleMember && d.sState i == stEngine
  if l.isEmpty then (d, 0) else
  let d := d.each l fun i d => (d.setState i stActive).modSlice i fun s =>
    { s with run := false, hasAvg := false, perAt := b, used := 0 }
  (d.acted n actJoin, l.length)

/-- Slice `i` carries the mark of one of the predictions `rev` (R154). -/
def Dev.markedFor (d : Dev) (rev : List Nat) (i : Nat) : Bool := (d.slice i).mark.any rev.contains

/-- NP (R154), for an active count of `cnt`. On a spanning rail it is rail-wide (R150): the plan positions that pre-adds have
added, which the lead has announced itself, and the engine-added slices. DEDUCED (log 73): no message tells the marks of the
other devices, so those count as many as this device's own each, as R99 estimates them. -/
def Dev.markedCount (d : Dev) (n cnt : Nat) (rev : List Nat) : Nat :=
  let here := (d.activeSlices n).filter (d.markedFor rev)
  match d.spanOf n with
  | none => here.length
  | some c =>
    let pre := (List.range cnt).filter fun p => (d.span c).marks.any fun x => rev.contains x.2.2 && x.1 ≤ p && p < x.2.1
    pre.length + d.devicesOf n * (here.filter fun i => !pre.contains (d.sPos i)).length

/-- The marks of the predictions `rev` are cleared, and their reversal shed is done (R154). -/
def Dev.clearMarks (d : Dev) (n : Nat) (rev : List Nat) : Dev :=
  let d := d.each ((d.slicesOf n).filter (d.markedFor rev)) fun i d => d.modSlice i fun s => { s with mark := none }
  let d := match d.spanOf n with
    | some c => d.modSpan c fun s => { s with marks := s.marks.filter fun x => !rev.contains x.2.2 }
    | none => d
  (d.modSq n fun q => { q with rev := [] }).setB HMRAIL_STAT_REVERSING n false

/-- What a boundary pre-add adds to bring an active count of `cnt` to `nt` (R151, R154): the lowest position that IEVAL alone
would not have added, and the number of the prediction; none where no pre-add is in force. -/
def Dev.preMark (d : Dev) (n cnt nt : Nat) : Option (Nat × Nat) :=
  let from_ := max cnt (d.addTarget n (d.ieval n))
  if d.preAdd n > 0 && from_ < nt then (d.hr n).act.map fun p => (from_, p.id) else none

/-- An add, join, substitution, plane swap, calibration transition or reversal shed takes effect at this boundary (R153, R154,
R181). -/
def Dev.countReset (d : Dev) (n : Nat) : Bool :=
  [actSwap, actCal, actSubst, actJoin, actAdd, actRev].any (bit (d.f RAIL_BOUND_ACTIONS n))

/-- Step 7 (R152-R154): the next N from the present one. DESIGN CHOICE (log 78): a reversal that is due returns the shed count
to 0 where it sheds no slice too. -/
def Dev.addShed (d : Dev) (n cnt : Nat) : Dev × Nat :=
  let i0 := d.ieval n
  let nmin := d.f RAIL_PHASE_NMIN n
  let rev := (d.rail n).sq.rev
  if !rev.isEmpty then
    let nt := d.addTarget n i0
    let new := max (max (cnt - d.markedCount n cnt rev) nt) nmin
    let d := (d.clearMarks n rev).modSq n fun q => { q with shedCnt := 0 }
    ((if new != cnt then d.acted n actRev else d), new)
  else
    let i1 := i0 + d.preAdd n
    let nt := d.addTarget n i1
    if nt > cnt then
      let d := match d.spanOf n, d.preMark n cnt nt with
        | none, some (from_, id) =>
          d.each ((((d.rail n).sq.plan.filter d.staffs).take nt).drop from_) fun i d =>
            d.modSlice i fun s => { s with mark := some id }
        | _, _ => d
      ((d.modSq n fun q => { q with shedCnt := 0 }).acted n actAdd, nt)
    else
      let can := decide (cnt > max nt nmin) && decide (i1 < ((cnt - 1 : Nat) : Int) * d.f RAIL_ADDSHED_IPH_SHED n) && !d.countReset n
      let k := if can then (d.rail n).sq.shedCnt + 1 else 0
      if k ≥ d.a1 RAIL_XSHED_SHED_CNT n then ((d.modSq n fun q => { q with shedCnt := 0 }).acted n actShed, cnt - 1)
      else (d.modSq n fun q => { q with shedCnt := k }, cnt)

/-- PLAN_LEAD in boundaries of period `tsw`, rounded up. -/
def Dev.planBoundaries (d : Dev) (n : Nat) : Nat := ceilDiv (32 * d.planLead) (d.rail n).sq.tsw

/-- The lead's change of NR, with what a pre-add adds of it, is announced for the first boundary at least PLAN_LEAD after this
one (R213); `rev` says that a reversal sheds there (R154). -/
def Dev.announceNr (d : Dev) (n c nr : Nat) (mark : Option (Nat × Nat)) (rev : Bool) : Dev :=
  let k := (d.span c).k + max 1 (d.planBoundaries n)
  let d := d.modSpan c fun s =>
    { s with nrPlan := s.nrPlan ++ [(k, nr, mark)], revAt := if rev then s.revAt ++ [k] else s.revAt }
  d.sendMsg 3 c (k % 256 * 2 ^ 32 + nr % 512 * 2 ^ 23)

/-- The boundary that a message of the lead names by the low 8 bits `low` of its index: the last one with them that is no
more than `ahead` boundaries away (R206, R213, R219); none when that one has passed. -/
def Dev.namedBoundary (d : Dev) (c low ahead : Nat) : Option Nat :=
  let top := (d.span c).k + ahead
  let back := (top + 256 - low % 256) % 256
  if top ≥ back + (d.span c).k then some (top - back) else none

/-- The plan positions from `from_` on up to `nr` that a pre-add of prediction `id` has added carry its mark (R154). -/
def Dev.markPositions (d : Dev) (n c from_ nr id : Nat) : Dev :=
  let q := (d.rail n).sq
  let d := d.modSpan c fun s => { s with marks := s.marks ++ [(from_, nr, id)] }
  d.each ((q.plan.zip q.planIdx).filter fun p => from_ ≤ p.2 && p.2 < nr) fun p d =>
    d.modSlice p.1 fun s => { s with mark := some id }

/-- NR changes due at this boundary of a spanning rail, announced for it or late (R213). At the lead the one that a reversal
has made is a reversal shed (R154, R162). DEDUCED (log 73): no message tells the other members which it is, so there it is a
shed. -/
def Dev.dueNr (d : Dev) (n c cnt : Nat) : Dev × Nat :=
  let s := d.span c
  let due := s.nrDue ++ ((s.nrPlan.filter fun x => x.1 == s.k).map (·.2))
  let shed := if s.revAt.contains s.k then actRev else actShed
  let d := d.modSpan c fun s =>
    { s with nrDue := [], nrPlan := s.nrPlan.filter fun x => x.1 > s.k, revAt := s.revAt.filter (· > s.k) }
  match due.getLast? with
  | none => (d, cnt)
  | some (nr, mark) =>
    let d := d.setF CHAIN_SPANc_MEMB_NR c nr
    let d := match mark with
      | some (from_, id) => d.markPositions n c from_ nr id
      | none => d
    ((if nr > cnt then d.acted n actAdd else if nr < cnt then d.acted n shed else d), nr)

/-- Steps 6 and 7 of a rail: the new N. On a spanning rail N is the rail-wide NR, which local joins do not change; the lead
announces what it decides, and every member takes what is due here (R150, R211, R213). -/
def Dev.evalN (d : Dev) (n b : Nat) : Dev × Nat :=
  let (d, joined) := d.joinEngine n b
  match d.spanOf n with
  | none => d.addShed n ((d.rail n).lp.n + joined)
  | some c =>
    let (d, cnt) := d.dueNr n c (d.rail n).lp.n
    let d := if d.isLead c then
        let acts := d.f RAIL_BOUND_ACTIONS n
        let cur := ((d.span c).nrPlan.getLast?.map (·.2.1)).getD cnt
        let rev := !(d.rail n).sq.rev.isEmpty
        let mark := if !rev then d.preMark n cur (d.addTarget n (d.ieval n + d.preAdd n)) else none
        let (d, nr) := d.addShed n cur
        let d := d.setF RAIL_BOUND_ACTIONS n acts
        if nr != cur then d.announceNr n c nr mark rev else d
      else if !(d.rail n).sq.rev.isEmpty then d.clearMarks n (d.rail n).sq.rev
      else d
    (d, cnt)

/-! ### Step 8: calibration start (R172, R173, R277) -/

/-- The slice that calibration would start with (R172): CAL_NOW first, then the rotation. -/
def Dev.calNext (d : Dev) (n : Nat) : Option Nat :=
  let cand := (d.slicesOf n).filter fun i =>
    (d.sRole i == roleMember && d.sState i == stActive) || (d.sRole i == roleSpare && d.sState i == stFree)
  match cand.find? fun i => (d.slice i).cal.now with
  | some i => some i
  | none =>
    if d.now - (d.rail n).sq.calEnd < 400000 * d.f RAIL_CAL_CAL_INT n then none
    else
      let last := (d.rail n).sq.calLast
      match cand.find? fun i => i > last with
      | some i => some i
      | none => cand.head?

/-- Take-out of slice `x` (R173): a member is covered by the first FREE spare. DESIGN CHOICE (log 78): where R173 has `x`
drive tri-state from cycle B, an on-time in progress is completed first, as R149 has it of a slice that leaves the active
set. -/
def Dev.calTakeOut (d : Dev) (n x b : Nat) : Dev :=
  let d := d.owAbandon x
  let pos := if d.sRole x = roleMember then (d.rail n).sq.plan.idxOf? x else none
  let d := match pos with
    | some j =>
      match (d.freeSpares n).head? with
      | some sp =>
        let d := (d.owAbandon sp).takePosition n j x sp
        d.setB SLICE_STAT_COVER sp true |>.raise SLICE_FLAGS_TOOK_POS sp
      | none => d
    | none => d
  let d := (d.leave n x b).setState x stCal |>.setF SLICE_STAT_CALSTEP x 1
  let d := d.modSlice x fun s => { s with cal := { pos := pos, since := d.now }, mark := none }
  (d.modSq n fun q => { q with calCur := some x }).acted n actCalStart

/-- Step 8 (R172, R277). A slice of the pass that is in READMIT waits. -/
def Dev.calStart (d : Dev) (n b : Nat) : Dev :=
  if !d.b RAIL_STAT_POWER_GOOD n || d.b RAIL_STAT_SHUTTING n || d.f RAIL_TE_STAT_STATE n != 0 || (d.hr n).act.isSome ||
      d.f RAIL_BOUND_ACTIONS n != 0 || (d.rail n).sq.calCur.isSome then d
  else
    let l := d.accum.lop
    let spare := fun i => (d.freeSpares n).any (· != i)
    if l.op = 3 && l.rail = n then
      match d.passNext with
      | none => d.lopEnd opDone 0
      | some i =>
        if d.sState i != stActive && d.sState i != stFree then d
        else if !spare i then d.lopEnd opFailed 5
        else (d.modLop fun l => { l with next := i + 1, cur := some i }).calTakeOut n i b
    else if !d.b RAIL_CAL_CAL_EN n then d
    else match d.calNext n with
      | none => d
      | some i => if spare i then d.calTakeOut n i b else d

/-! ### The boundary (R162) -/

/-- A slice of the pass that has left CAL by a fault of another kind adds its record as FAULTED (R277). -/
def Dev.passOrphan (d : Dev) (n : Nat) : Dev :=
  let l := d.accum.lop
  match l.cur with
  | some i => if l.op = 3 && l.rail = n && d.sState i != stCal then d.passRecord i 0xF else d
  | none => d

/-- Expert trims that wait take force (R186). -/
def Dev.trimsTake (d : Dev) (n : Nat) : Dev :=
  d.each ((d.slicesOf n).filter fun i => (d.slice i).wait != 0) fun i d => d.trimTake i (d.slice i).wait

/-- Steps 2 to 5 (R162); the last part is true when step 5 failed. DESIGN CHOICE (log 78): a cover that step 3 has set free
serves in step 4 of the same boundary, which uses the state that step 3 leaves; R178 speaks of the next boundary. -/
def Dev.boundEarly (d : Dev) (m : Mem) (n b : Nat) : Dev × Bool :=
  let d := match (d.rail n).sq.swapTo with
    | some p => ((d.each (d.slicesOf n) fun i d => d.boundAbort n i).swapRail m n p).acted n actSwap
    | none => d
  let d := d.each (d.slicesOf n) fun i d => d.calTransition n i b
  let d := match d.spanOf n with
    | some c => d.spanXfers m n c b
    | none => d
  let d := d.substitute n
  if d.staffed n < d.f RAIL_PHASE_HREQ n then ((d.acted n actHealth).shutAsk n causeHealth, true) else (d, false)

/-- The background tests and the long operation see the boundary (R269, R274, R276). -/
def Dev.boundTests (d : Dev) (n : Nat) : Dev :=
  let d := if d.f RAIL_BOUND_ACTIONS n != 0 then (d.bgBoundVoid n).lopBoundActs n else d
  let d := d.each ((d.slicesOf n).filter fun i => !d.isOn i) fun i d => d.bgSliceEnd i
  d.bgRailEnd n

/-- The edge code of this device at which the ring edge time `e` falls, by its RT as it stands (R212). -/
def Dev.ringEdge (d : Dev) (e : Nat) : Nat := (32 * d.now + toS 37 (e + 2 ^ 37 - 32 * d.r CHAIN_RTIME)).toNat

/-- The edge code of the coming boundary: on a spanning rail that of E_k, by the present RT (R148, R212). -/
def Dev.boundaryEdge (d : Dev) (n : Nat) : Nat :=
  match d.spanOf n with
  | some c => d.ringEdge (d.span c).e
  | none => (d.rail n).sq.bEdge

/-- The boundary after this one: position 0's next period start; on a spanning rail the ring edge time of R212, which goes on
from E_k with the TSW in force. -/
def Dev.nextBoundary (d : Dev) (n : Nat) : Dev :=
  let d := d.modSq n fun q => { q with bEdge := q.bEdge + q.tsw, ievalSum := 0, ievalN := 0 }
  match d.spanOf n with
  | some c =>
    let d := d.modSpan c fun s => { s with k := s.k + 1, e := (s.e + (d.rail n).sq.tsw) % 2 ^ 37 }
    d.modSq n fun q => { q with bEdge := d.boundaryEdge n }
  | none => d

/-- The hook of AUTO at a boundary: 16 cell periods with shares return the member to following (R216). -/
def Dev.autoExit (d : Dev) (c : Nat) : Dev :=
  let s := d.span c
  if d.f CHAIN_SPANc_STAT_STATE c = spAuto && s.gotRun ≥ 16 then
    d.setF CHAIN_SPANc_STAT_STATE c spFollow |>.modSpan c fun s => { s with missRun := 0 }
  else d

/-- A boundary named by a SPAN_PLAN has passed this many cycles after the message has come: PLAN_LEAD and the period in
which that ends, with one more for the message's way (R213). -/
def Dev.planAge (d : Dev) (n : Nat) : Nat := d.planLead + ceilDiv (d.f RAIL_PWM_TSW n) 16

/-- What the low 8 bits `low` of a boundary index say of how far it lies from boundary `k`. -/
def boundaryDiff (low k : Nat) : Int := toS 8 (low % 256 + 256 - k % 256)

/-- E_k and k of the boundary at which this device is admitted, of which SPAN_XFER has named the low 8 bits `low`: the one
with them that lies next to the coming boundary, which every device that knows BT0 counts (R212, `Dev.countBoundaries`).
DESIGN CHOICE (log 73): no message tells a device BT0 that was not there when the rail started; its boundary is this one. -/
def Dev.admitEdge (d : Dev) (n c low : Nat) : Nat × Nat :=
  let s := d.span c
  match s.bt0 with
  | none => (32 * (d.r CHAIN_RTIME + 5) % 2 ^ 37, low)
  | some _ =>
    let k := ((s.k : Int) + boundaryDiff low s.k).toNat
    (ofS 37 (s.e + ((k : Int) - s.k) * d.f RAIL_PWM_TSW n), k)

/-- A device that is in channel `c` and does not run its rail goes on counting the boundaries of the channel once BT0 is
known, so that it can be admitted (R212, R220). An ARMED one takes the changes of NR that are due (R213). -/
def Dev.countBoundaries (d : Dev) (c : Nat) : Dev :=
  let n := d.f CHAIN_SPANc_STAT_RAIL c
  let s := d.span c
  let tsw := d.f RAIL_PWM_TSW n
  if !s.used || s.bt0.isNone || tsw = 0 || (d.rail n).phase == .running || (d.rail n).phase == .discharge ||
      toS 37 (32 * d.r CHAIN_RTIME + 2 ^ 37 - s.e) < 0 then d
  else
    let due := s.nrDue ++ ((s.nrPlan.filter fun x => x.1 == s.k).map (·.2))
    let d := d.modSpan c fun s =>
      { s with k := s.k + 1, e := (s.e + tsw) % 2 ^ 37, nrDue := [], nrPlan := s.nrPlan.filter fun x => x.1 > s.k }
    match due.getLast? with
    | some (nr, _) => if (d.rail n).phase == .armed then d.setF CHAIN_SPANc_MEMB_NR c nr else d
    | none => d

/-- What a device that does not know BT0 has heard of NR, by the boundaries that lie next to boundary `k`; what was heard so
long ago that its boundary has passed stands at boundary 0 (R212, R213). -/
def Dev.heardPlan (d : Dev) (n c k : Nat) : List (Nat × Nat) :=
  (d.span c).heard.map fun x =>
    (if d.now ≥ x.1 + d.planAge n then 0 else ((k : Int) + boundaryDiff x.2.1 k).toNat, x.2.2)

/-- An ARMED member that transfers name is admitted at their boundary (R220): its slices take their positions, VSLEW is at
the destination, and POWER_GOOD is set when the error is inside 8 × PG_WIN. NR is the latest that it has heard of for this
boundary or one before; what it has heard of later ones waits for them. -/
def Dev.admitSelf (d : Dev) (n c : Nat) : Dev :=
  let pos := d.f CHAIN_STAT_POS
  let due := (d.span c).xfers.filter fun x => x.2.2.1 == pos
  match due.head? with
  | none => d
  | some (k, _, _, _) =>
    let inWin := decide ((d.rail n).lp.err.natAbs ≤ 8 * d.f RAIL_SOFTSTART_PG_WIN n)
    let (e, kk) := d.admitEdge n c k
    let heard := (d.span c).nrPlan.map (fun x => (x.1, x.2.1)) ++ d.heardPlan n c kk
    let nr := ((heard.filter fun x => x.1 ≤ kk).getLast?.map (·.2)).getD (d.f CHAIN_SPANc_MEMB_NR c)
    let later := (heard.filter fun x => x.1 > kk).map fun x => (x.1, x.2, none)
    let b := d.ringEdge e
    let d := d.modSpan c fun s =>
      { s with xfers := s.xfers.filter fun x => x.1 != k, k := kk + 1, e := (e + d.f RAIL_PWM_TSW n) % 2 ^ 37, nrPlan := later, heard := [] }
    let d := d.each due fun x d => d.modSpan c fun s => { s with plan := s.plan.set x.2.2.2 pos }
    let d := d.beginRun n (2 * d.f RAIL_VTARGET_VTARGET n : Nat) b 0
    let d := if nr = 0 then d else (d.setActive n nr b).setF CHAIN_SPANc_MEMB_NR c nr
    let d := d.setB RAIL_STAT_SOFTSTART n false |>.setB RAIL_STAT_FOLLOWER n true |>.setF CHAIN_SPANc_STAT_STATE c spFollow
    let d := d.setF CHAIN_SPANc_MEMB_MEMBERS c (putBits (d.f CHAIN_SPANc_MEMB_MEMBERS c) pos 1 1)
    if inWin then
      (d.setB RAIL_STAT_POWER_GOOD n true).raise RAIL_FLAGS_PG_SET n |>.modSq n fun q => { q with calEnd := d.now }
    else d

/-- One boundary of a rail that switches (R162). -/
def Dev.boundary (d : Dev) (m : Mem) (n : Nat) : Dev :=
  if (d.rail n).phase == .armed then
    match d.spanOf n with
    | some c => if d.f CHAIN_SPANc_STAT_ROLE c = 1 then d else d.admitSelf n c
    | none => d
  else if (d.rail n).phase != .running && (d.rail n).phase != .discharge then d else
  let b := d.boundaryEdge n
  let d := d.setF RAIL_BOUND_COUNT n (d.f RAIL_BOUND_COUNT n + 1) |>.setF RAIL_BOUND_ACTIONS n 0
  let d := d.modSq n fun q => { q with tsw := d.f RAIL_PWM_TSW n }
  let d := match d.spanOf n with
    | some c => d.autoExit c
    | none => d
  let d := d.trimsTake n
  let shutting := d.b RAIL_STAT_SHUTTING n || !(d.rail n).sq.pend.isEmpty
  let off := (d.rail n).sq.swapTo.any fun p => (findSec (dirList m p) 2 n).isNone
  -- steps 2 to 8 do not run in a shutdown; step 9 finds N and the active set frozen (R162, R167)
  if shutting then ((d.setOffsets n b).boundTests n).nextBoundary n
  else if off then (((d.shutAsk n causeSwapOff).setOffsets n b).boundTests n).nextBoundary n
  else
    let n0 := (d.rail n).lp.n
    let (d, failed) := d.boundEarly m n b
    if (d.rail n).phase != .running then d.boundTests n
    else
      let (d, cnt) := if failed then (d, n0) else d.evalN n b
      let d := d.raiseIf (cnt != n0) RAIL_FLAGS_ADDSHED n
      let d := if failed then d else ((d.passOrphan n).passSkip 32).calStart n b
      let d := d.setActive n cnt b
      let acts := d.f RAIL_BOUND_ACTIONS n
      let d := if acts != 0 then d.each (d.onSlices n) fun i d => d.modSlice i fun s => { s with hold := true } else d
      ((d.boundTests n).nextBoundary n).showSeq n

/-! ### Calibration rows (R174-R179) -/

/-- CAL_OFFSET_DONE (R174): the candidate offset. -/
def Dev.calOffsetDone (d : Dev) (i : Nat) : Dev :=
  let c := (d.slice i).cal
  if (d.sState i = stCal || d.sState i = stReadmit) && d.f SLICE_STAT_CALSTEP i = 2 && c.ofsN = 256 then
    let ofs := rdiv c.ofsSum 256
    let d := d.setFs SLICE_CALRES0_OFS i ofs |>.setF SLICE_STAT_CALSTEP i 3
    d.modCal i fun c => { c with ofs := ofs, since := d.now, pulses := 0, a := 0, b := 0, z := 0 }
  else d

def execCalOffsetDone (i : Fin 32) (s : State) : Outcome := s.onFabric fun d => d.calOffsetDone i

/-- CAL_PULSE_END (R174): HIGH for 2 × CAL_TH + 8 ADC clocks, then tri-state; before those have passed nothing happens. -/
def Dev.calPulseEnd (d : Dev) (i : Nat) : Dev :=
  let c := (d.slice i).cal
  if !c.pulsing then d else
  let t := 32 * (c.h0 + 2 * (2 * d.calTh (d.sRail i) + 8))
  if t ≥ d.w0 + 64 then d else
  (d.drive i lvTri t).modCal i fun c => { c with pulsing := false, pulses := c.pulses + 1, since := d.now }

def execCalPulseEnd (i : Fin 32) (s : State) : Outcome := s.onFabric fun d => d.calPulseEnd i

/-- A failing result (R176, R179): CAL_FAIL and the fault, or the failed readmission. -/
def Dev.calFails (d : Dev) (i result : Nat) : Dev :=
  if d.sState i = stReadmit then (d.raise SLICE_FLAGS_CAL_FAIL i).readmitFail i 7 result
  else
    let n := d.sRail i
    let d := d.setF SLICE_CALRES0_RESULT i result |>.raise SLICE_FLAGS_CAL_FAIL i |>.raise RAIL_FLAGS_CAL_FAIL n |>.hostScan n
    let d := d.faultSlice i 7
    let d := d.modSq n fun q => { q with calLast := i }
    d.passEnded i result

/-- dcr of R175; none where its quotients are not defined. -/
def calDcr (c : CalSt) (npl th : Nat) : Option Int :=
  if c.a = 0 || c.a + c.b = 0 then none
  else some (rdivI (25600000 * c.v * th * npl * (c.a - c.b)) (1000 * c.a * (th * (c.a + c.b))))

/-- lq of R175; none where its quotients are not defined. -/
def calLq (c : CalSt) (npl th : Nat) (dcr : Int) : Option Int :=
  if c.a = 0 || c.v = 0 then none
  else some (rdivI (256 * th * (25600 * npl * c.v - (2 * c.z + c.a) * dcr)) (1000 * c.a * 25600))

/-- A quotient of R175, or a free value where it is not defined (assumption 1). -/
def Dev.orFree (d : Dev) (x : Option Int) : Dev × Int :=
  match x with
  | some v => (d, v)
  | none =>
    let (v, d) := d.fresh 16
    (d, v)

/-- The checks of R176 on the offset alone, which come first; 0 when both pass. -/
def Dev.calOfsCheck (d : Dev) (n i : Nat) (c : CalSt) : Nat :=
  let img := toS 12 (d.im (SLICE_XOFS.addr i))
  if (c.ofs - img).natAbs > d.a RAIL_XCAL_OFS_LIM n then 1
  else if c.ofsMax - c.ofsMin > 2 * d.a RAIL_XCAL2_SPREAD n then 2
  else 0

/-- The first failing check of R176; 0 is PASS. -/
def Dev.calCheck (d : Dev) (n i : Nat) (c : CalSt) (lq dcr : Int) : Nat :=
  let lnom := d.a RAIL_XCAL2_LNOM n
  if d.calOfsCheck n i c != 0 then d.calOfsCheck n i c
  else if c.a ≤ 0 || (lq - lnom).natAbs > d.a RAIL_XCAL_LTOL n * lnom / 256 then 3
  else if dcr < 0 || dcr > 16 * d.a RAIL_XCAL_DCR_MAX n then 4
  else 0

/-- CAL_RESULT (R175-R177, R179). -/
def Dev.calResult (d : Dev) (i : Nat) : Dev :=
  if !((d.sState i = stCal || d.sState i = stReadmit) && d.f SLICE_STAT_CALSTEP i = 4) ||
      (d.slice i).cal.abort || (d.slice i).cal.ret then d else
  let n := d.sRail i
  let c := (d.slice i).cal
  let th := 64 * d.calTh n
  let (d, dcr) := d.orFree (calDcr c (d.npl n) th)
  let (d, lq) := d.orFree (calLq c (d.npl n) th dcr)
  let res := d.calCheck n i c lq dcr
  let d := d.setR SLICE_CALRES1 i (satU 16 lq + satU 16 dcr * 2 ^ 16) |>.setF SLICE_CALRES0_RESULT i res
  let d := d.modCal i fun c => { c with lq := satU 16 lq, dcr := satU 16 dcr }
  if res != 0 then d.calFails i res
  else
    let d := d.incSat SLICE_CALRES0_PASSES i
    if d.sState i = stReadmit then (d.calTrims i).readmitPass i
    else d.modCal i fun c => { c with ret := true }

def execCalResult (i : Fin 32) (s : State) : Outcome := s.onFabric fun d => d.calResult i

/-- CAL_ZMAX_EXPIRY (R174, R176, R181): the ZERO condition has not held within ZMAX µs. Before a pulse the checks on the
offset come first. While it holds, after the last pulse, and before ZMAX has passed, nothing happens. -/
def Dev.calZmax (d : Dev) (i : Nat) : Dev :=
  let n := d.sRail i
  let step := d.f SLICE_STAT_CALSTEP i
  let c := (d.slice i).cal
  if d.now < c.since + 400 * d.a1 RAIL_XCAL2_ZMAX n then d else
  if (d.sState i = stCal || d.sState i = stReadmit) && !c.abort && !c.ret && !c.passed &&
      (step = 1 || (step = 3 && !c.pulsing && c.pulses < d.npl n)) && !d.calZero n i then
    let early := if step = 3 then d.calOfsCheck n i c else 0
    d.calFails i (if early = 0 then 5 else early)
  else d

def execCalZmaxExpiry (i : Fin 32) (s : State) : Outcome := s.onFabric fun d => d.calZmax i

/-- SLICE_READMIT (R179): a FAULTED member or spare enters READMIT and its current-sense input is tested. -/
def Dev.readmit (d : Dev) (i : Nat) : Dev :=
  if d.sRole i = roleNone || d.sState i != stFaulted then d else
  let d := (d.setState i stReadmit).setF SLICE_STAT_CALSTEP i 0
  let d := d.modSlice i fun s => { s with cal := { readmit := true }, ocCnt := 0, convCnt := 0, attrCnt := 0 }
  if d.accum.ow.running then d.modOw fun w => { w with waiting := w.waiting ++ [i] }
  else d.owBegin 0 i true

def execSliceReadmit (i : Fin 32) (s : State) : Outcome := s.onDev fun d => d.storeTo SLICE_CTRL i fun d => d.readmit i

/-- SLICE_CAL_NOW (R172). -/
def execSliceCalNow (i : Fin 32) (s : State) : Outcome := s.onDev fun d =>
  d.storeTo SLICE_CTRL i fun d => if d.sRole i = roleNone then d else d.modCal i fun c => { c with now := true }

/-- SLICE_FORCE_FAULT (R157, R185): no effect on an unassigned or a FAULTED slice. -/
def execSliceForceFault (i : Fin 32) (s : State) : Outcome := s.onDev fun d =>
  d.storeTo SLICE_CTRL i fun d => if d.sRole i = roleNone || d.sState i = stFaulted then d else d.faultSlice i 8

/-! ### Stage faults (R158) -/

/-- STAGE_FAULT_SAMPLE: STGFLTk_N is sampled; a fall opens the attribution window for ATTR ADC clocks. -/
def Dev.stageSample (d : Dev) (k : Nat) (low : Bool) : Dev :=
  let fell := low && !d.b CL_STAT_STGFLT k
  let d := d.setB CL_STAT_STGFLT k low
  if fell && !d.b CL_STAT_ATTR_RUN k then
    (d.setB CL_STAT_ATTR_RUN k true).modCluster k fun c =>
      { c with winEnd := d.now + 2 * max 1 (d.f CL_CTRL_ATTR k), attr := false }
  else d

def execStageFaultSample (k : Fin 8) (low : Bool) (s : State) : Outcome := s.onFabric fun d => d.stageSample k low

/-- ATTRIBUTION_WINDOW_CLOSE, once the window has stood for its ATTR ADC clocks: with no slice attributed, a line still low
faults the whole cluster, a high one is a glitch. -/
def Dev.stageClose (d : Dev) (k : Nat) (low : Bool) : Dev :=
  if !d.b CL_STAT_ATTR_RUN k || d.now < (d.cluster k).winEnd then d else
  let d := d.setB CL_STAT_ATTR_RUN k false |>.setB CL_STAT_STGFLT k low
  let hit := (d.cluster k).attr
  let d := d.modCluster k fun c => { c with winEnd := 0, attr := false }
  if hit then d
  else if low then
    let d := d.raise CL_FLAGS_STG_CLUSTER k
    let all := ((List.range 4).map fun j => 4 * k + j).filter fun i => d.sRole i != roleNone && d.sState i != stFaulted
    (d.raiseIf (!all.isEmpty) CL_FLAGS_STG_ATTR k).each all fun i d => d.faultSlice i 1
  else d.raise CL_FLAGS_STG_GLITCH k

def execAttributionWindowClose (k : Fin 8) (low : Bool) (s : State) : Outcome := s.onFabric fun d => d.stageClose k low

/-- ENPIN_LOW (R166): with ENPIN_USE a shutdown with cause ENPIN. -/
def execEnpinLow (n : Fin 8) (s : State) : Outcome := s.onFabric fun d =>
  if d.b RAIL_PWM_ENPIN_USE n then d.shutAsk n causeEnpin else d

end Sys2Proof.Machine
end

