-- ==== Sys2Proof/Machine/Chain.lean ====
section
/-! DEFINITION. The Trintanis ring: lanes and clocks, cells and shares, messages, enumeration, spanning rails, the span
commands (R188-R223). -/
namespace Sys2Proof.Machine

/-- Receive states of a lane (R190, R223). -/
abbrev rxTrain : Nat := 1
abbrev rxRun : Nat := 2
abbrev rxFailed : Nat := 3

/-- Clock states (R195). -/
abbrev ckLocked : Nat := 0
abbrev ckHoldover : Nat := 1
abbrev ckRelock : Nat := 2
abbrev ckExpired : Nat := 3

/-- Every counter of R204 saturates at 255. -/
def Dev.inc255 (d : Dev) (x : Fld) (n : Nat := 0) : Dev := d.setF x n (min 255 (d.f x n + 1))

/-! ### Lanes (R189, R190) -/

/-- A training cell (R190). -/
def Dev.trainCell (d : Dev) : Nat :=
  let c := 0x5A3C * 2 ^ 16 + d.pos % 32 * 2 ^ 11 + b2n d.isRoot * 2 ^ 10
  c + crc4Cell c

/-- The output of lane `l` carries training cells while its receive lane has not trained (R189, R190; log 72). -/
def Dev.sendTrain (d : Dev) (l : Nat) : Dev := d.modLane l fun x => { x with out := d.trainCell }

/-- LANE_RUN: 64 consecutive valid cells bring a lane in TRAIN or FAILED to RUN; before that nothing happens. The tap of a
lane that has trained, and at the root the realignment, are of values the spec does not determine (R189, R201): free. -/
def Dev.laneRun (d : Dev) (l : Nat) : Dev :=
  let was := d.f (rxF l)
  if (was != rxTrain && was != rxFailed) || (d.lane l).good < 64 then d else
  let d := d.setF (rxF l) 0 rxRun |>.setB (headF l) 0 false
  let d := d.raise (pf l CHAIN_FLAGS_RX_OK_U CHAIN_FLAGS_RX_OK_D)
  let d := d.modLane l fun x => { x with bad := 0, late := 0, rx := [], seenAt := d.now, okAt := d.now, upAt := d.now }
  if was = rxFailed then d.modLane l fun x => { x with mendAt := d.now }
  else
    let (t, d) := d.fresh 5
    let d := d.setF (tapF l) 0 t
    if !d.isRoot || d.f (rxF (1 - l)) = rxRun then d
    else
      let (a, d) := d.fresh 5
      d.setF CHAIN_STAT_REALIGN 0 a

def execLaneRun (lane : Fin 2) (s : State) : Outcome := s.onFabric fun d => d.laneRun lane

/-- LANE_FAILED: 16 cell periods without a valid cell; the device heads that stream and stops the clock of that port (R190,
R193, R202). Before they have passed nothing happens. DEDUCED (log 72): a lane in TRAIN that gets no valid cell ends in
FAILED too. -/
def Dev.laneFailed (d : Dev) (l : Nat) : Dev :=
  if (d.f (rxF l) != rxRun && d.f (rxF l) != rxTrain) || d.now < (d.lane l).okAt + 512 then d else
  let d := d.setF (rxF l) 0 rxFailed |>.setB (headF l) 0 true
  let d := if !d.isRoot && d.f (ckRoleF l) = 2 then d.setF (ckRoleF l) 0 0 else d
  let d := d.raise (pf l CHAIN_FLAGS_RX_FAIL_U CHAIN_FLAGS_RX_FAIL_D)
  let d := d.inc255 (pf l CHAIN_CNT_U_FAILS CHAIN_CNT_D_FAILS)
  let d := d.modChain fun c => { c with copies := c.copies.filter fun x => x.2.1 == l }
  d.modLane l fun x => { x with good := 0, share := [], rx := [] }

def execLaneFailed (lane : Fin 2) (s : State) : Outcome := s.onFabric fun d => d.laneFailed lane

/-- The sampling tap of lane `l` moves by at most one tap (R189): which way is free. -/
def Dev.trackTap (d : Dev) (l : Nat) : Dev :=
  let (x, d) := d.fresh 2
  let t := d.f (tapF l)
  d.setF (tapF l) 0 (if x = 1 then min 31 (t + 1) else if x = 2 then t - 1 else t)

/-! ### Clocks (R192-R196) -/

/-- CLOCK_VALID: port `p` carries a valid chain clock; without a reference it becomes REF (R192, R194). -/
def Dev.clockValid (d : Dev) (p : Nat) : Dev :=
  if d.isRoot then d else
  let d := d.setB (ckValidF p) 0 true |>.setF (ckRoleF p) 0 1
  let d := d.raise (pf p CHAIN_FLAGS_CK_VALID_U CHAIN_FLAGS_CK_VALID_D)
  if d.f CHAIN_STAT_CKSTATE = ckHoldover then
    d.setF CHAIN_STAT_REF 0 p |>.setF CHAIN_STAT_CKSTATE 0 ckRelock
  else if !d.chain.pllOk && d.f CHAIN_STAT_CKSTATE = ckLocked then
    d.setF CHAIN_STAT_REF 0 (if d.b CHAIN_UPORT_CKVALID then 0 else 1)
  else d

def execClockValid (port : Fin 2) (s : State) : Outcome := s.onDev fun d => d.clockValid port

/-- HOLDOVER is entered: the forwarded clock stops (R193, R194). -/
def Dev.enterHoldover (d : Dev) (lost : Nat) : Dev :=
  let d := if d.f CHAIN_STAT_CKSTATE = ckLocked then
      (d.setR CHAIN_HOLD 0 0).modChain fun c => { c with holdCyc := 0 } else d
  let d := d.setF CHAIN_STAT_CKSTATE 0 ckHoldover |>.raise CHAIN_FLAGS_HOLD_ENTER
  let d := d.modChain fun c => { c with rtErr := 0 }
  let d := d.post 1 0x012 0xFF [lost]
  d.each [0, 1] fun p d => if d.f (ckRoleF p) = 2 then d.setF (ckRoleF p) 0 0 else d

/-- REF_CLOCK_LOST (R194): holdover; a valid clock on the other port becomes REF. -/
def Dev.refLost (d : Dev) : Dev :=
  let st := d.f CHAIN_STAT_CKSTATE
  if d.isRoot || st = ckHoldover || st = ckExpired then d else
  let p := d.f CHAIN_STAT_REF
  let d := d.setB (ckValidF p) 0 false |>.setF (ckRoleF p) 0 0
  let d := d.raise (pf p CHAIN_FLAGS_CK_LOST_U CHAIN_FLAGS_CK_LOST_D)
  let d := d.enterHoldover p
  if d.b (ckValidF (1 - p)) then
    d.setF CHAIN_STAT_REF 0 (1 - p) |>.setF CHAIN_STAT_CKSTATE 0 ckRelock
  else d

def execRefClockLost (s : State) : Outcome := s.onDev Dev.refLost

/-- RELOCK_DONE (R194, R195): the PLL is locked to REF. -/
def Dev.relockDone (d : Dev) : Dev :=
  if d.f CHAIN_STAT_CKSTATE = ckRelock then
    (d.setF CHAIN_STAT_CKSTATE 0 ckLocked).raise CHAIN_FLAGS_HOLD_EXIT |>.modChain fun c =>
      { c with pllOk := true, lockAt := d.now }
  else if d.f CHAIN_STAT_CKSTATE = ckLocked then
    d.modChain fun c => { c with pllOk := true, lockAt := if c.pllOk then c.lockAt else d.now }
  else d

def execRelockDone (s : State) : Outcome := s.onDev Dev.relockDone

/-- The cycle since which the first two conditions of R193 hold for port `p`, and its listen time: 64 chain-clock periods
downstream, 128 upstream. -/
def Dev.listenEnd (d : Dev) (p : Nat) : Nat := max d.chain.lockAt (d.lane p).mendAt + (if p = 0 then 512 else 256)

/-- The first two conditions of R193 hold for port `p`: the PLL is locked and the port's lane is not FAILED. -/
def Dev.mayDrive (d : Dev) (p : Nat) : Bool :=
  d.f CHAIN_STAT_CKSTATE == ckLocked && d.chain.pllOk && d.f (rxF p) != rxFailed

/-- CLOCK_LISTEN_DONE (R193): the non-REF port has been free of edges for the listen time; a clock that was valid there has
stopped. The port drives the clock OUT where the first two conditions of the rule have held for that time, and is OFF where
they do not hold. -/
def Dev.listenDone (d : Dev) : Dev :=
  let p := 1 - d.f CHAIN_STAT_REF
  if d.isRoot then d
  else if !d.mayDrive p then d.setB (ckValidF p) 0 false |>.setF (ckRoleF p) 0 0
  else if d.now < d.listenEnd p then d
  else d.setB (ckValidF p) 0 false |>.setF (ckRoleF p) 0 2

def execClockListenDone (s : State) : Outcome := s.onDev Dev.listenDone

/-- HOLDOVER_EXPIRED (R196): holdover has lasted 2,000 µs; every rail of the device shuts down with cause HOLDOVER. -/
def Dev.holdExpired (d : Dev) : Dev :=
  let st := d.f CHAIN_STAT_CKSTATE
  if (st = ckHoldover || st = ckRelock) && decide (d.chain.holdCyc ≥ 800000) then
    let d := d.setF CHAIN_STAT_CKSTATE 0 ckExpired |>.raise CHAIN_FLAGS_HOLD_LIMIT
    let d := d.setR CHAIN_HOLD 0 (max 2000 (d.r CHAIN_HOLD))
    let d := d.post 0 0x007 0xFF [d.r CHAIN_HOLD]
    d.each (List.range 8) fun n d => d.shutAsk n causeHoldover
  else d

/-- ROOT_REFERENCE_FAIL (R196): the root is as in HOLDOVER, with no clock to find. -/
def execRootReferenceFail (s : State) : Outcome := s.onDev fun d =>
  if d.isRoot && d.f CHAIN_STAT_CKSTATE = ckLocked then d.enterHoldover (d.f CHAIN_STAT_REF) else d

/-! ### The preferred lane and the shares (R203, R204, R216) -/

/-- This device takes part in channel `c`. -/
def Dev.inSpan (d : Dev) (c : Nat) : Bool := (d.span c).used && d.f CHAIN_SPANc_STAT_ROLE c != 0

/-- The preferred lane of channel `c`: the smaller latency from the lead among lanes in RUN; lane 0 on a tie. -/
def Dev.preferred (d : Dev) (c : Nat) : Nat :=
  let lead := d.f CHAIN_SPANc_STAT_LEAD c
  if d.f (rxF 0) != rxRun then 1
  else if d.f (rxF 1) != rxRun then 0
  else if d.latency lead 1 < d.latency lead 0 then 1 else 0

/-- Reserved share codes (R199). -/
abbrev shNone : Nat := 0x800
abbrev shShut : Nat := 0x801
abbrev shCtl : Nat := 0x802

/-- The share that the latest valid cell of lane `l` gives channel `c`, if it carries one and is no older than `age`. -/
def Dev.laneShare (d : Dev) (l c age : Nat) : Option Nat :=
  let x := d.lane l
  match x.share[c]? with
  | some s => if d.now ≤ x.okAt + age && s != shNone && s != shShut && s != shCtl then some s else none
  | none => none

/-- MISS_LIM in cell periods (R223). -/
def Dev.missLim (d : Dev) : Nat := max 1 (d.f CHAIN_XTIME_MISS_LIM)

/-- SPAN_AUTO_ENTER (R216): the miss count of a member that follows has reached MISS_LIM. -/
def Dev.autoEnter (d : Dev) (c : Nat) : Dev :=
  if d.f CHAIN_SPANc_STAT_STATE c != spFollow || (d.span c).missRun < d.missLim then d else
  let n := d.f CHAIN_SPANc_STAT_RAIL c
  let sl := (d.span c).s
  let d := d.setF CHAIN_SPANc_STAT_STATE c spAuto |>.incSat CHAIN_SPANc_CNT_AUTOS c |>.raise CHAIN_FLAGS_SPAN_AUTO
  let d := d.modSpan c fun s =>
    { s with sl := sl, icmd0 := (d.rail n).lp.limY, autoAt := d.r CHAIN_RTIME, lastAuto := sl, gotRun := 0 }
  d.post 1 0x013 c [ofS 32 sl]

def execSpanAutoEnter (ch : Fin 2) (s : State) : Outcome := s.onFabric fun d => d.autoEnter ch

/-- A member other than the lead takes the share of this cell period (R203, R204, R216). -/
def Dev.takeShare (d : Dev) (c : Nat) : Dev :=
  let p := d.preferred c
  let put := fun (d : Dev) (s l : Nat) =>
    let d := d.setF CHAIN_SPANc_SHARE_S c s |>.setF CHAIN_SPANc_SHARE_LANE c l
    let d := d.setF CHAIN_SPANc_SHARE_AGE c (d.latency (d.f CHAIN_SPANc_STAT_LEAD c) l / 32)
    d.modSpan c fun x => { x with s := toS 12 s, missRun := 0, gotRun := x.gotRun + 1, noneSeen := false }
  match d.laneShare p c 0 with
  | some s => put d s p
  | none =>
    match d.laneShare (1 - p) c 32 with
    | some s => put d s (1 - p)
    | none =>
      let d := (d.inc255 CHAIN_SPANc_CNT_MISS c).modSpan c fun x =>
        { x with missRun := x.missRun + 1, gotRun := 0, noneSeen := true }
      d.autoEnter c

/-- The cell period of lane `l` has come to its share: the channels that prefer the lane take theirs. -/
def Dev.takeShares (d : Dev) (l : Nat) : Dev :=
  d.each [0, 1] fun c d => if d.inSpan c && !d.isLead c && d.preferred c = l then d.takeShare c else d

/-- SHUT has been received for channel `c` (R218, R223). -/
def Dev.rxShut (d : Dev) (c : Nat) : Dev :=
  let n := d.f CHAIN_SPANc_STAT_RAIL c
  if !(d.span c).used then d else
  let d := d.raise CHAIN_FLAGS_SPAN_SHUT
  if d.b RAIL_STAT_ENABLED n && !d.b RAIL_STAT_SHUTTING n && !(d.rail n).sq.pend.contains causeSpan then d.shutAsk n causeSpan
  else d

/-! ### The slot plan and sending (R200-R202, R205, R210) -/

/-- The stream that the nibble of the superframe count belongs to. -/
abbrev rootStream : Nat := 32

/-- The owner of the nibble of cell number `no` (R200): 0 to 15 for a general owner by its position, 16 and 17 for the lead of
a channel, 32 for the root's count; and whether it is this device. A root is at position 0. DESIGN CHOICE (log 72): whether a
channel in which this device has no part has a lead is free, one value for the channel. -/
def Dev.slotOwner (d : Dev) (no : Nat) : Nat × Bool :=
  let i := no % 32
  let g := no / 32 % 16
  let general := (g, (if d.isRoot then 0 else d.pos) == g)
  if i < 2 then (rootStream, d.isRoot)
  else if i ≥ 30 then general
  else
    let c := if i < 16 then 0 else 1
    if d.inSpan c then (16 + c, d.isLead c)
    else if Config.channelLed c then (16 + c, false) else general

/-- The last nibble of a SPAN_XFER of channel `c` has left on lane `l`: PROGRESS counts the messages sent (R221), each once.
-/
def Dev.xferLeft (d : Dev) (l c : Nat) : Dev :=
  if (d.span c).cmd = 0 then d else
  let k := (d.lane l).xSent.toList.getD c 0 + 1
  let d := d.modLane l fun y => { y with xSent := y.xSent.setIfInBounds c k }
  d.setF CHAIN_SPANCMDST_PROGRESS 0 (max (d.f CHAIN_SPANCMDST_PROGRESS) k)

/-- The next nibble of the lead's stream of channel `c` on lane `l`; a message's second nibble is its type (R205). -/
def Dev.leadNibble (d : Dev) (l c : Nat) : Dev × Nat :=
  let q := d.leadQueue l c
  let x := q.headD 0
  let typ := (d.lane l).txTyp.toList.getD c 0
  let d := d.modLane l fun y => { y with txLead := y.txLead.setIfInBounds c q.tail }
  let d := if q.length % 16 = 15 then d.modLane l fun y => { y with txTyp := y.txTyp.setIfInBounds c x } else d
  (if q.length % 16 = 1 && typ = 5 then d.xferLeft l c else d, x)

/-- The nibble this device writes on lane `l` in its own cell number `no` of stream `o`: the root's superframe count, or the
next of its message stream. -/
def Dev.ownNibble (d : Dev) (l no o : Nat) : Dev × Nat :=
  if o = rootStream then (d, bits (no / 32 % 256) (4 * (1 - no % 32)) 4)
  else if o ≥ 16 then d.leadNibble l (o - 16)
  else (d.modLane l fun y => { y with tx := y.tx.tail }, (d.lane l).tx.headD 0)

/-- What this device writes into SHAREc, if it owns it: SHUT during its shutdown, the lead's share or NONE (R199, R210,
R218). -/
def Dev.ownShare (d : Dev) (c : Nat) : Option Nat :=
  if (d.span c).shut then some shShut
  else if d.isLead c then
    some (if d.f CHAIN_SPANc_STAT_STATE c = spLead then ofS 12 (d.span c).s else shNone)
  else none

/-- A cell with its check code (R198), off by `syn`. -/
def mkCell (s0 s1 msg syn : Nat) : Nat :=
  let c := s0 % 4096 * 2 ^ 20 + s1 % 4096 * 2 ^ 8 + msg % 16 * 2 ^ 4
  c + (crc4Cell c ^^^ syn)

/-- By what the check code of a cell is off; 0 when it matches (R198). -/
def cellSyn (cell : Nat) : Nat := crc4Cell cell ^^^ bits cell 0 4

/-- Control payload (R206): COUNT, MHINT, REV, DONE. -/
def ctlWord (count mhint rev done : Nat) : Nat :=
  count % 16 * 2 ^ 8 + mhint % 16 * 2 ^ 4 + rev * 2 ^ 3 + done * 2 ^ 2

/-- The root's control cell for lane `l` while it enumerates (R207). -/
def Dev.rootControl (d : Dev) (l : Nat) : Option Nat :=
  let m := d.chain.enumM % 16
  if !d.isRoot || d.chain.enumCells = 0 then none
  else match d.chain.enumPhase with
    | 1 => if l = 0 then some (ctlWord 0 0 0 0) else none
    | 2 => some (ctlWord m 0 0 1)
    | 3 => if l = 1 then some (ctlWord 0 m 1 0) else none
    | 4 => some (ctlWord m 0 0 1)
    | _ => none

/-- Send cell number `no` on lane `l`: the fields of `s0 s1 msg` that this device does not own go on unchanged, and a check
code that was off by `syn` stays so (R201). `o` is the owner of the nibble and `mine` says that it is this device. DEDUCED
(log 72): a control cell that has come back to the root ends there, with NONE in both shares in its place, so that shares can
pass again after an enumeration (R202, R207). -/
def Dev.sendCell (d : Dev) (l no s0 s1 msg syn o : Nat) (mine : Bool) : Dev :=
  let (s0, s1) := if d.isRoot && s0 = shCtl then (shNone, shNone) else (s0, s1)
  let (s0, s1) := match d.rootControl l with
    | some w => (shCtl, w)
    | none => if s0 = shCtl then (s0, s1) else ((d.ownShare 0).getD s0, (d.ownShare 1).getD s1)
  let (d, msg) := if mine then d.ownNibble l no o else (d, msg)
  d.modLane l fun x => { x with out := mkCell s0 s1 msg syn, sentNo := some no }

/-! ### Enumeration (R207-R209) -/

/-- The ring hint (R208). -/
def Dev.hint (d : Dev) : Nat := d.r BD_REG 8

/-- CHAIN_STAT.RING follows the hint (R208). -/
def Dev.showRing (d : Dev) : Dev := d.setF CHAIN_STAT_RING 0 (if bit d.hint 31 then bits d.hint 24 2 else 0)

/-- The outcome of an enumeration is compared with the hint (R207 step 5, R208). -/
def Dev.enumFinish (d : Dev) (reversed : Bool) : Dev :=
  let h := d.hint
  let ok := bit h 31 && bits h 16 5 == d.f CHAIN_STAT_M && bits h 0 4 == d.pos
  let d := d.showRing.setR CHAIN_ENSTAT 0 ((if ok then 1 else 2) + b2n reversed * 4 + bits h 16 16 * 2 ^ 16)
  let d := d.raise CHAIN_FLAGS_ENUM_DONE
  let d := d.modChain fun c => { c with enumBad := !ok, enumSeen := false }
  if ok then d else (d.raise CHAIN_FLAGS_HINT_MISMATCH).post 2 0x022 0xFF [d.r CHAIN_ENSTAT]

/-- Enumeration fails: no position (R208). -/
def Dev.enumFail (d : Dev) : Dev :=
  let d := d.setPos 16 |>.setF CHAIN_STAT_M 0 0
  let d := d.setR CHAIN_ENSTAT 0 (3 + bits d.hint 16 16 * 2 ^ 16) |>.raise CHAIN_FLAGS_ENUM_FAIL
  let d := d.modChain fun c => { c with enumPhase := 0, enumCells := 0, enumOk := false, enumBad := true }
  d.post 2 0x023 0xFF [d.r CHAIN_ENSTAT]

/-- ENUM_START (R207): on the root only, with its lanes in RUN, or one in RUN and the other FAILED. -/
def Dev.enumStart (d : Dev) : Dev :=
  let a := d.f (rxF 0)
  let b := d.f (rxF 1)
  let ready := (a = rxRun && (b = rxRun || b = rxFailed)) || (a = rxFailed && b = rxRun)
  if d.isRoot && ready then
    (d.setPos 0).modChain fun c =>
      { c with enumPhase := 1, enumCells := 64, enumM := 0, enumOk := false, enumAt := some d.now }
  else d

def execEnumStart (s : State) : Outcome := s.onFabric Dev.enumStart

/-- ENUM_TIMEOUT (R207 step 4): lane 0 has not returned within 10 µs; the root enumerates in reverse from its hint, or
fails. -/
def Dev.enumTimeout (d : Dev) : Dev :=
  if !d.isRoot || d.chain.enumPhase != 1 || d.chain.enumM != 0 || !d.chain.enumAt.any (fun t => decide (d.now ≥ t + 4000)) then d
  else if bit d.hint 31 then
    let m := bits d.hint 16 5
    d.modChain fun c => { c with enumPhase := 3, enumCells := 64, enumM := m }
  else d.enumFail

def execEnumTimeout (s : State) : Outcome := s.onFabric Dev.enumTimeout

/-- Step 3 of R207 begins once the 64 cells of step 2 have been sent and lane 0 has returned control cells. -/
def Dev.enumDone (d : Dev) : Dev :=
  if d.chain.enumPhase = 1 && d.chain.enumCells = 0 && d.chain.enumM != 0 then
    d.modChain fun c => { c with enumPhase := 2, enumCells := 64 }
  else d

/-- After a control cell that the root sends on lane `l`: the phases of R207 follow one another, each of 64 cell periods of
lane 0, or of lane 1 in the reversed one. -/
def Dev.enumTick (d : Dev) (l : Nat) : Dev :=
  if !d.isRoot || d.chain.enumCells = 0 || l != (if d.chain.enumPhase = 3 then 1 else 0) then d else
  let d := d.modChain fun c => { c with enumCells := c.enumCells - 1 }
  if d.chain.enumCells != 0 then d
  else if d.chain.enumPhase = 1 then d.enumDone
  else if d.chain.enumPhase = 3 then d.modChain fun c => { c with enumPhase := 4, enumCells := 64 }
  else if d.chain.enumPhase = 2 || d.chain.enumPhase = 4 then
    let rev := d.chain.enumPhase == 4
    let d := d.setF CHAIN_STAT_M 0 d.chain.enumM
    let d := d.modChain fun c => { c with enumPhase := 0, enumOk := true }
    d.enumFinish rev
  else d

/-- A control cell with payload `w` has been received on lane `l`: positions are taken, and the payload to forward is
answered (R207). -/
def Dev.rxControl (d : Dev) (l w : Nat) : Dev × Nat :=
  let count := bits w 8 4
  let mh := bits w 4 4
  let rev := bit w 3
  let done := bit w 2
  if d.isRoot then
    if d.chain.enumPhase = 1 && l = 0 && !done && !rev then
      ((d.modChain fun c => { c with enumM := count + 1 }).enumDone, w)
    else (d, w)
  else if done then
    let m := if count = 0 then 16 else count
    let first := d.chain.enumSeen || d.f CHAIN_STAT_M != m || d.f CHAIN_ENSTAT_RESULT = 0
    let d := d.setF CHAIN_STAT_M 0 m
    (if first && d.pos < 16 then d.enumFinish (d.b CHAIN_ENSTAT_REVERSED) else d, w)
  else
    let d := if d.chain.enumSeen then d else
      (d.setB CHAIN_ENSTAT_REVERSED 0 false).modChain fun c => { c with enumSeen := true, enumAt := some d.now }
    if rev then
      let m := if mh = 0 then 16 else mh
      let d := if d.pos = 16 then
          (d.setPos ((m + 15 - count) % 16)).setB CHAIN_ENSTAT_REVERSED 0 true else d
      (d, putBits w 8 4 (m - d.pos))
    else
      let d := if d.pos = 16 then d.setPos ((count + 1) % 16) else d
      (d, putBits w 8 4 d.pos)

/-! ### Ring time (R197, R209) -/

/-- One cycle of what RT is still to be corrected by, no sooner than 256 cycles after the correction before (R197). A
correction across the wrap of RT counts in LOG_EPOCH too (R280). -/
def Dev.slewRt (d : Dev) : Dev :=
  let e := d.chain.rtErr
  if e = 0 || d.now < d.chain.rtAt + 256 then d else
  let wraps := if e < 0 then d.r CHAIN_RTIME = 0 else d.r CHAIN_RTIME = 2 ^ 32 - 1
  let d := if wraps then d.setR LOG_EPOCH 0 (ofS 32 (d.r LOG_EPOCH + sgn e)) else d
  (d.setR CHAIN_RTIME 0 (ofS 32 (d.r CHAIN_RTIME + sgn e))).modChain fun c => { c with rtErr := e - sgn e, rtAt := d.now }

/-- RT moves to `t`: at once the first time, afterwards by at most one cycle per 256 cycles. In HOLDOVER and RELOCK it runs
free. -/
def Dev.correctRt (d : Dev) (t : Nat) : Dev :=
  if !d.chain.rtSet then
    (d.setR CHAIN_RTIME 0 (t % 2 ^ 32)).modChain fun c => { c with rtSet := true, rtAt := d.now, rtErr := 0 }
  else if d.f CHAIN_STAT_CKSTATE != ckLocked then d
  else (d.modChain fun c => { c with rtErr := tdiff t (d.r CHAIN_RTIME) }).slewRt

/-- Enumeration gives this device no position (R208, R209). -/
def Dev.noPosition (d : Dev) : Dev :=
  ((d.raise CHAIN_FLAGS_ENUM_FAIL).modChain fun c => { c with sized := true }).post 2 0x023 0xFF [d.r CHAIN_ENSTAT]

/-- The ring size of an RT_SET with MV at 1, and the position a device without one takes from its neighbours at the first of
them (R206, R209). -/
def Dev.rtSize (d : Dev) (payload : Nat) : Dev :=
  if !bit payload 3 || d.isRoot then d else
  let m := if bits payload 4 4 = 0 then 16 else bits payload 4 4
  let d := d.setF CHAIN_STAT_M 0 m
  if d.pos != 16 || d.chain.sized then d else
  let up := d.f CHAIN_UPORT_NBR
  let dn := d.f CHAIN_DPORT_NBR
  if (d.lane 0).nbrOk && (d.lane 1).nbrOk && up < 16 && dn < 16 && dn = (up + 2) % m then
    (d.setPos ((up + 1) % m)).modChain fun c => { c with sized := true }
  else d.noPosition

/-- RT_SET (R197, R206): `latency` is the time since the named cell left the root, in cycles. -/
def Dev.rtSetMsg (d : Dev) (payload latency : Nat) : Dev :=
  if d.isRoot then d else (d.correctRt ((bits payload 8 32 + latency) % 2 ^ 32)).rtSize payload

def execRtSet (payload : BitVec 40) (latency : Nat) (s : State) : Outcome := s.onFabric fun d =>
  d.rtSetMsg payload.toNat latency

/-- POSITION_WAIT_TIMEOUT (R209): a device without a position has been in the running ring, by a lane in RUN, for 256
superframes, and no RT_SET with MV at 1 has come. -/
def Dev.positionWait (d : Dev) : Dev :=
  let waited := [0, 1].any fun l => d.f (rxF l) = rxRun && decide (d.now ≥ (d.lane l).upAt + 262144)
  if d.isRoot || d.pos != 16 || d.chain.sized || !waited then d else d.noPosition

def execPositionWaitTimeout (s : State) : Outcome := s.onFabric fun d => d.positionWait

/-- The superframe count of cells 0 and 1 (R197, R200): count 0 brings an RT_SET of the same lane into force, and every other
corrects RT to the time that it names. A 0 alone corrects nothing: a head sends it in the place of the root (R202). -/
def Dev.rxCount (d : Dev) (l count : Nat) : Dev :=
  if d.isRoot then d else
  let late := 64 + d.rootLatency l
  let rt := d.r CHAIN_RTIME
  if count = 0 then
    match d.chain.rtNext with
    | some (l0, t) =>
      if l0 = l then (d.modChain fun c => { c with rtNext := none }).correctRt ((t + late) % 2 ^ 32) else d
    | none => d
  else if d.chain.rtSet then d.correctRt (ofS 32 (rt + toS 18 (count * 1024 + late + 2 ^ 18 - rt % 2 ^ 18)))
  else d

/-! ### Messages (R205, R206, R212-R221) -/

/-- The RT with low 24 bits `low` next to this device's RT (R212, R214). -/
def Dev.rtNear (d : Dev) (low : Nat) : Nat :=
  let rt := d.r CHAIN_RTIME
  ofS 32 (rt + toS 24 (low + 2 ^ 24 - rt % 2 ^ 24))

/-- SPAN_START (R212, R214): a member takes VPRE and BT0, which lies ahead of its RT by less than 2^23 cycles; a time that
does not is no BT0. -/
def Dev.spanStart (d : Dev) (c payload : Nat) : Dev :=
  let t := d.rtNear (bits payload 0 24)
  if !d.inSpan c || d.isLead c || tdiff t (d.r CHAIN_RTIME) < 0 then d else
  d.modSpan c fun s => { s with vpre := some (bits payload 24 16), bt0 := some t, k := 0, e := 32 * t % 2 ^ 37 }

/-- SPAN_PLAN (R213): the change is kept for its boundary; after that boundary's cut it is late. A device that does not know
BT0 keeps what it hears, with the index bits as they came, and the last of what has passed. What a boundary pre-add adds is
marked (R154). DEDUCED (log 73): a member judges that by its own prediction and its own IT, which no message gives it. -/
def Dev.spanPlan (d : Dev) (c payload : Nat) : Dev :=
  if !d.inSpan c || d.isLead c then d else
  let low := bits payload 32 8
  let nr := bits payload 23 9
  let n := d.f CHAIN_SPANc_STAT_RAIL c
  if (d.span c).bt0.isNone then
    let old := fun (x : Nat × Nat × Nat) => decide (d.now ≥ x.1 + d.planAge n)
    d.modSpan c fun s =>
      { s with heard := (s.heard.filter old).getLast?.toList ++ (s.heard.filter fun x => !old x) ++ [(d.now, low, nr)] }
  else
  let cur := ((d.span c).nrPlan.getLast?.map (·.2.1)).getD (d.f CHAIN_SPANc_MEMB_NR c)
  let mark := d.preMark n cur nr
  match d.namedBoundary c low (d.planBoundaries n + 1) with
  | some k => d.modSpan c fun s => { s with nrPlan := s.nrPlan ++ [(k, nr, mark)] }
  | none => (d.modSpan c fun s => { s with nrDue := s.nrDue ++ [(nr, mark)] }).raise CHAIN_FLAGS_PLAN_LATE

/-- SPAN_TARGET (R214): the target waits for its RT, after those that wait already. -/
def Dev.spanTarget (d : Dev) (c payload : Nat) : Dev :=
  if !d.inSpan c || d.isLead c then d else
  d.modSpan c fun s => { s with target := s.target ++ [(bits payload 24 16, d.rtNear (bits payload 0 24))] }

/-- SPAN_TARGET_EFFECT (R214): the oldest waiting target takes effect at its RT; a member that waits for
admission sets VSLEW to it (R220). -/
def Dev.spanTargetEffect (d : Dev) (c : Nat) : Dev :=
  match (d.span c).target with
  | [] => d
  | (v, t) :: rest =>
    if tdiff (d.r CHAIN_RTIME) t < 0 then d else
    let n := d.f CHAIN_SPANc_STAT_RAIL c
    let d := d.modSpan c fun s => { s with target := rest }
    let d := (d.setF RAIL_VTARGET_VTARGET n v).reckonRv n
    if (d.rail n).phase == .armed && !d.isLead c then
      (d.modLp n fun l => { l with vslew := 2 * v * 2 ^ 16 }).setF RAIL_VREF_VREF n (2 * v)
    else d

def execSpanTargetEffect (ch : Fin 2) (s : State) : Outcome := s.onFabric fun d => d.spanTargetEffect ch

/-- How many boundaries ahead a SPAN_XFER may name one (R219): PLAN_LEAD after the last of the messages, of which there are as
many as the plan has positions at most, each of 16 slots of the lead, with two superframes to wait for the first. -/
def Dev.xferAhead (d : Dev) (c : Nat) : Nat :=
  let n := d.f CHAIN_SPANc_STAT_RAIL c
  min 255 (ceilDiv (32 * (d.planLead + 1024 * (ceilDiv (16 * (d.span c).plan.length) 14 + 2))) (d.rail n).sq.tsw + 1)

/-- SPAN_XFER (R219): a plan position is assigned to another member at a named boundary; one that names a boundary that has
passed comes too late for this device. -/
def Dev.spanXfer (d : Dev) (c payload : Nat) : Dev :=
  if !d.inSpan c then d else
  let low := bits payload 32 8
  let armed := (d.rail (d.f CHAIN_SPANc_STAT_RAIL c)).phase == .armed
  match if armed then some low else d.namedBoundary c low (d.xferAhead c) with
  | some k => d.modSpan c fun s => { s with xfers := s.xfers ++
      [(k, bits payload 28 4, bits payload 24 4, bits payload 16 8)] }
  | none => d

/-- SIG_RELAY (R129, R215): a follower raises the prediction with source 3. `latency` is the time since the message's last
nibble left the lead, in cycles. -/
def Dev.sigRelay (d : Dev) (c payload latency : Nat) : Dev :=
  if !d.inSpan c || d.isLead c then d else
  let n := d.f CHAIN_SPANc_STAT_RAIL c
  let rem := bits payload 18 11
  let te := tsub (d.r HM_TIME) latency
  d.predNew n { down := bit payload 39, mr := 64 * bits payload 29 10, ts := if rem < 8 then te else tadd te rem
                rise := bits payload 12 6, src := 3 }

/-- The lead of channel `c` becomes position `p` (R217, R219); the new lead sends LEAD_MOVE (R206). One that names the present
lead changes nothing. -/
def Dev.leadMove (d : Dev) (c p : Nat) : Dev :=
  if !d.inSpan c || d.f CHAIN_SPANc_STAT_LEAD c = p then d else
  let n := d.f CHAIN_SPANc_STAT_RAIL c
  let was := d.isLead c
  let dep := d.f CHAIN_SPANc_STAT_DEPUTY c
  let running := d.b RAIL_STAT_ENABLED n && (d.rail n).phase == .running
  let d := d.setF CHAIN_SPANc_STAT_LEAD c p |>.raise CHAIN_FLAGS_LEAD_MOVE
  let d := d.post 1 0x014 c [p]
  if p = d.pos then
    let d := d.setF CHAIN_SPANc_STAT_ROLE c 1 |>.setB RAIL_STAT_FOLLOWER n false
    let d := if running then d.setF CHAIN_SPANc_STAT_STATE c spLead else d
    let d := if was then d else d.modSpan c fun s => { s with s := clampI s.lastAuto (-2045) 2047, missRun := 0 }
    d.sendMsg 7 c (d.pos * 2 ^ 36 + (d.span c).k % 256 * 2 ^ 28)
  else
    let d := d.setF CHAIN_SPANc_STAT_ROLE c (if dep = d.pos && !was then 2 else 3)
    if was then
      let d := d.setB RAIL_STAT_FOLLOWER n running
      if running then d.setF CHAIN_SPANc_STAT_STATE c spFollow else d
    else d

/-- SPAN_READY (R206). -/
def Dev.spanReady (d : Dev) (src c payload : Nat) : Dev :=
  if !d.inSpan c then d else
  d.modSpan c fun s => { s with ready := (s.ready.filter fun r => r.1 != src) ++
    [(src, bits payload 37 3, bit payload 36, bits payload 30 6)] }

/-- SPAN_CAUSE (R218): logged. -/
def Dev.spanCause (d : Dev) (src c payload : Nat) : Dev :=
  if !d.inSpan c then d else
  let cause := bits payload 32 8
  (d.modSpan c fun s => { s with shutFrom := some (cause, src) }).post 0 0x008 c [cause + src % 16 * 2 ^ 8]

/-- WITHDRAWN (R219). -/
def Dev.withdrawn (d : Dev) (c payload : Nat) : Dev :=
  if !d.inSpan c then d else
  let p := bits payload 36 4
  let d := d.setF CHAIN_SPANc_MEMB_MEMBERS c (putBits (d.f CHAIN_SPANc_MEMB_MEMBERS c) p 1 0)
  d.modSpan c fun s => { s with ready := s.ready.filter fun r => r.1 != p }

def execSpanStart (src : Fin 16) (ch : Fin 2) (payload : BitVec 40) (s : State) : Outcome := s.onFabric fun d =>
  if d.f CHAIN_SPANc_STAT_LEAD ch = src then d.spanStart ch payload.toNat else d
def execSpanPlan (src : Fin 16) (ch : Fin 2) (payload : BitVec 40) (s : State) : Outcome := s.onFabric fun d =>
  if d.f CHAIN_SPANc_STAT_LEAD ch = src then d.spanPlan ch payload.toNat else d
def execSpanTarget (src : Fin 16) (ch : Fin 2) (payload : BitVec 40) (s : State) : Outcome := s.onFabric fun d =>
  if d.f CHAIN_SPANc_STAT_LEAD ch = src then d.spanTarget ch payload.toNat else d
def execSpanXfer (src : Fin 16) (ch : Fin 2) (payload : BitVec 40) (s : State) : Outcome := s.onFabric fun d =>
  if d.f CHAIN_SPANc_STAT_LEAD ch = src then d.spanXfer ch payload.toNat else d
def execSigRelay (src : Fin 16) (ch : Fin 2) (payload : BitVec 40) (latency : Nat) (s : State) : Outcome :=
  s.onFabric fun d => if d.f CHAIN_SPANc_STAT_LEAD ch = src then d.sigRelay ch payload.toNat latency else d
def execLeadMove (_src : Fin 16) (ch : Fin 2) (payload : BitVec 40) (s : State) : Outcome := s.onFabric fun d =>
  d.leadMove ch (bits payload.toNat 36 4)
def execSpanReady (src : Fin 16) (ch : Fin 2) (payload : BitVec 40) (s : State) : Outcome := s.onFabric fun d =>
  d.spanReady src ch payload.toNat
def execSpanCause (src : Fin 16) (ch : Fin 2) (payload : BitVec 40) (s : State) : Outcome := s.onFabric fun d =>
  d.spanCause src ch payload.toNat
def execWithdrawn (_src : Fin 16) (ch : Fin 2) (payload : BitVec 40) (s : State) : Outcome := s.onFabric fun d =>
  d.withdrawn ch payload.toNat

/-- A message whose CRC matches reaches its use (R206); only the named senders' messages are taken. -/
def Dev.deliver (d : Dev) (l m : Nat) : Dev :=
  let src := bits m 52 4
  let c := bits m 48 2
  let p := bits m 8 40
  let lead := c < 2 && d.f CHAIN_SPANc_STAT_LEAD c = src
  match bits m 56 4 with
  | 1 =>
    if d.isRoot then d else (d.modChain fun x => { x with rtNext := some (l, bits p 8 32) }).rtSize p
  | 2 => if lead then d.spanStart c p else d
  | 3 => if lead then d.spanPlan c p else d
  | 4 => if lead then d.spanTarget c p else d
  | 5 => if lead then d.spanXfer c p else d
  | 6 => if lead then d.sigRelay c p (d.latency src l / 32) else d
  | 7 => if c < 2 then d.leadMove c (bits p 36 4) else d
  | 8 => if c < 2 then d.spanReady src c p else d
  | 9 => if c < 2 then d.spanCause src c p else d
  | 10 => if c < 2 then d.withdrawn c p else d
  | _ => d

/-- What the two copies of a message have in common: all of it, but for the REM of a SIG_RELAY, which belongs to the lane on
which the copy leaves, and the CRC (R205, R215). -/
def copyKey (m : Nat) : Nat := if bits m 56 4 = 6 then putBits (putBits m 26 11 0) 0 8 0 else m

/-- A message of stream `o` with a right CRC has come on lane `l`: the first of its two copies is delivered, and the second is
awaited while the other lane is in RUN (R205). -/
def Dev.rxMsg (d : Dev) (l o m : Nat) : Dev :=
  let key := copyKey m
  if d.chain.copies.contains (o, 1 - l, key) then
    d.modChain fun c => { c with copies := c.copies.erase (o, 1 - l, key) }
  else
    let d := if d.f (rxF (1 - l)) = rxRun then d.modChain fun c => { c with copies := c.copies ++ [(o, l, key)] } else d
    d.deliver l m

/-- A message of stream `o` on lane `l` has a wrong CRC: it is discarded and counted, and with it the copy that was awaited
(R204, R205). -/
def Dev.msgError (d : Dev) (l o : Nat) : Dev :=
  (d.inc255 (pf l CHAIN_CNT_U_MSGERR CHAIN_CNT_D_MSGERR)).modChain fun c =>
    { c with copies := c.copies.eraseP fun x => x.1 == o && x.2.1 != l }

/-- A nibble of stream `o` on lane `l` (R205): a message of 16 nibbles is checked. -/
def Dev.rxNibble (d : Dev) (l o x : Nat) : Dev :=
  let streams := (List.range 18).map fun k => (d.lane l).rx.getD k []
  let cur := streams.getD o []
  let next := if cur.isEmpty then (if x = 0xA then [x] else []) else cur ++ [x]
  let full := next.length ≥ 16
  let d := d.modLane l fun y => { y with rx := streams.set o (if full then [] else next) }
  if !full then d else
  let m := next.foldl (fun a k => a * 16 + k) 0
  if crc8Bits 52 (bits m 8 52) != bits m 0 8 then d.msgError l o else d.rxMsg l o m

/-! ### Cells (R198, R201-R204) -/

/-- LATE_TOL in force (R223). -/
def Dev.lateTol (d : Dev) : Nat := max 8 (d.f CHAIN_XTIME_LATE_TOL)

/-- The counts of an invalid cell (R204). -/
def Dev.badCell (d : Dev) (l : Nat) (chk late : Bool) : Dev :=
  let d := if chk then d.inc255 (pf l CHAIN_CNT_U_CHK CHAIN_CNT_D_CHK) else d
  let d := if late then d.inc255 (pf l CHAIN_CNT_U_LATE CHAIN_CNT_D_LATE) else d
  let d := d.modLane l fun x => { x with good := 0, bad := min 255 (x.bad + 1), late := if late then x.late + 1 else 0 }
  if (d.lane l).late ≥ 4 then
    (d.raise (pf l CHAIN_FLAGS_PHASE_SLIP_U CHAIN_FLAGS_PHASE_SLIP_D)).modLane l fun x => { x with late := 0 }
  else d

/-- A received cell with the fields `s0 s1 msg` is sent on (R201); the root sends it on its own grid, where the cell number
and so the owner is another. `r` is the owner of the nibble as received. -/
def Dev.passCell (d : Dev) (l s0 s1 msg syn : Nat) (r : Nat × Bool) : Dev :=
  let no := d.txCellNo l
  let w := if d.isRoot then d.slotOwner no else r
  (d.sendCell l no s0 s1 msg syn w.1 w.2).enumTick l

/-- What the nibble of a valid cell of owner `o` gives (R197, R200, R205). -/
def Dev.rxMsgNibble (d : Dev) (l o msg : Nat) (mine : Bool) : Dev :=
  if o = rootStream then
    (if d.rxCellNo l % 32 = 0 then d.modChain fun x => { x with cntHi := msg } else d.rxCount l (d.chain.cntHi * 16 + msg))
  else if mine then d
  else d.rxNibble l o msg

/-- What a valid cell on a lane in RUN does: shares, SHUT, the message nibble, the cell sent on (R199-R205). -/
def Dev.goodCell (d : Dev) (l cell : Nat) : Dev :=
  let s0 := bits cell 20 12
  let s1 := bits cell 8 12
  let msg := bits cell 4 4
  let r := d.slotOwner (d.rxCellNo l)
  let ctl := s0 = shCtl
  let (d, s1) := if ctl then d.rxControl l s1 else (d, s1)
  let d := d.modLane l fun x => { x with share := if ctl then [shNone, shNone] else [s0, s1] }
  let d := if ctl then d else d.each [(0, s0), (1, s1)] fun p d => if p.2 = shShut then d.rxShut p.1 else d
  ((d.takeShares l).rxMsgNibble l r.1 msg r.2).passCell l s0 s1 msg 0 r

/-- A valid cell while the lane is not in RUN: in TRAIN only training cells count toward RUN, in FAILED every valid cell does,
in DOWN none; a training cell reports the neighbour (R190, R209). -/
def Dev.trainStep (d : Dev) (l cell : Nat) : Dev :=
  let train := bits cell 16 16 = 0x5A3C
  let counts := d.f (rxF l) = rxFailed || (d.f (rxF l) = rxTrain && train)
  let d := d.modLane l fun x => { x with good := if counts then min 255 (x.good + 1) else 0 }
  if train then (d.setF (nbrF l) 0 (bits cell 11 5)).modLane l fun x => { x with nbrOk := true } else d

/-- RING_CELL: a cell reaches lane `l`, `late` cycles from its learned phase (R190, R198, R201-R205). -/
def Dev.ringCell (d : Dev) (l cell late : Nat) : Dev :=
  let chkBad := crc4Cell cell != bits cell 0 4
  let tooLate := decide (late > d.lateTol)
  let d := d.modLane l fun x => { x with seenAt := d.now }
  if chkBad || tooLate then
    let d := d.badCell l chkBad tooLate
    if d.f (rxF l) = rxRun then
      let r := d.slotOwner (d.rxCellNo l)
      (d.takeShares l).passCell l (bits cell 20 12) (bits cell 8 12) (bits cell 4 4) (cellSyn cell) r
    else d
  else
    let d := d.modLane l fun x => { x with bad := 0, late := 0, okAt := d.now }
    if d.f (rxF l) = rxRun then (d.modLane l fun x => { x with good := min 255 (x.good + 1) }).goodCell l cell
    else d.trainStep l cell

def execRingCell (lane : Fin 2) (cell : Word) (late : Nat) (s : State) : Outcome := s.onFabric fun d =>
  d.ringCell lane cell.toNat late

/-- HEAD_CELL (R202): the head of a stream generates a cell on its own RT grid. -/
def Dev.headCell (d : Dev) (l : Nat) : Dev :=
  if d.b (headF l) then
    let w := d.slotOwner (d.txCellNo l)
    ((d.takeShares l).sendCell l (d.txCellNo l) shNone shNone 0 0 w.1 w.2).enumTick l
  else d

def execHeadCell (lane : Fin 2) (s : State) : Outcome := s.onFabric fun d => d.headCell lane

/-- What time does to lane `l` (R189, R190, R204): it trains while the supplies are valid, its tap is tracked, a cell period
without a cell ends a row of consecutive valid ones, and one in which a lane in RUN brought no cell gives no share. -/
def Dev.tickLane (d : Dev) (l : Nat) : Dev :=
  let d := if d.f (rxF l) = 0 then d.setF (rxF l) 0 rxTrain else d
  let t := d.r CHAIN_RTIME
  let d := if d.f (rxF l) != rxRun && d.now ≥ (d.lane l).seenAt + 64 && (d.lane l).good != 0 then
      d.modLane l fun x => { x with good := 0 } else d
  if d.f (rxF l) = rxTrain then (if t % 32 = 0 then d.sendTrain l else d)
  else if d.f (rxF l) = rxRun then
    let d := if d.now % 256 = 0 then d.trackTap l else d
    let gap := d.now - (d.lane l).seenAt
    if gap ≥ 64 && gap % 32 = 0 then d.takeShares l else d
  else d

/-! ### Spanning rails: begin, AUTO, lead (R212-R217) -/

/-- SPAN_BEGIN (R214): at BT0 the lead and every ARMED member begin; a member that is not ARMED stays out. It takes place in
the six cycles before BT0 or after. -/
def Dev.spanBegin (d : Dev) (c : Nat) : Dev :=
  let n := d.f CHAIN_SPANc_STAT_RAIL c
  match (d.span c).vpre, (d.span c).bt0 with
  | some v, some t =>
    if !d.inSpan c || tdiff (d.r CHAIN_RTIME) t < -6 then d else
    let tsw := d.f RAIL_PWM_TSW n
    let d := d.modSpan c fun s =>
      { s with vpre := none, k := 1, e := (32 * t + tsw) % 2 ^ 37, s := 0, missRun := 0, gotRun := 0, nrPlan := [], nrDue := []
               revAt := [], marks := [], xfers := [] }
    if (d.rail n).phase == .armed then
      let d := d.beginRun n v (d.ringEdge (32 * t)) 0
      let lead := d.isLead c
      (d.setF CHAIN_SPANc_STAT_STATE c (if lead then spLead else spFollow)).setB RAIL_STAT_FOLLOWER n !lead
    else d.raise CHAIN_FLAGS_LATE_START
  | _, _ => d

def execSpanBegin (ch : Fin 2) (s : State) : Outcome := s.onFabric fun d => d.spanBegin ch

/-- The coming boundary of channel `c` has reached its cut, 6 cycles before its edge (R162, R212). -/
def Dev.atBoundary (d : Dev) (c : Nat) : Bool := decide (toS 37 (32 * (d.r CHAIN_RTIME + 6) + 2 ^ 37 - (d.span c).e) ≥ 0)

/-- SPAN_AUTO_EXIT (R216): at the boundary after 16 periods with shares; between boundaries nothing happens. -/
def execSpanAutoExit (ch : Fin 2) (s : State) : Outcome := s.onFabric fun d => if d.atBoundary ch then d.autoExit ch else d

/-- LEAD_LIM in cycles (R217, R223). -/
def Dev.leadLim (d : Dev) : Nat := 1024 * max 1 (d.f CHAIN_XTIME_LEAD_LIM)

/-- LEAD_TAKEOVER (R217): the deputy that has been in AUTO for LEAD_LIM superframes becomes the lead and sends LEAD_MOVE. -/
def Dev.leadTakeover (d : Dev) (c : Nat) : Dev :=
  if d.f CHAIN_SPANc_STAT_ROLE c = 2 && d.f CHAIN_SPANc_STAT_STATE c = spAuto && (d.span c).noneSeen &&
      decide (tdiff (d.r CHAIN_RTIME) (d.span c).autoAt ≥ d.leadLim) then
    d.leadMove c d.pos
  else d

def execLeadTakeover (ch : Fin 2) (s : State) : Outcome := s.onFabric fun d => d.leadTakeover ch

/-! ### Span commands (R219-R221) -/

/-- A command is refused because one runs on the channel, with REASON 5 (R221). DEDUCED (log 47): REASON is that of an
operation that FAILED (R18), so the register shows the refused one as FAILED, until the one that runs writes its fields
again. -/
def Dev.spanBusy (d : Dev) : Dev := d.setF CHAIN_SPANCMDST_STATE 0 opFailed |>.setF CHAIN_SPANCMDST_REASON 0 5

/-- A command starts (R18, R221). DESIGN CHOICE (log 73): CHAIN_SPANCMDST is one register and R221 lets a command run on each
channel; the latest command to write a field of it stands, and an abort is judged by it. -/
def Dev.spanCmdRun (d : Dev) (c op p bound : Nat) : Dev :=
  let d := d.setR CHAIN_SPANCMDST 0 (opWord opRunning 0 0 0 false)
  let d := d.each [0, 1] fun l d => d.modLane l fun y =>
    { y with txTyp := y.txTyp.setIfInBounds c 0, xSent := y.xSent.setIfInBounds c 0 }
  d.modSpan c fun s => { s with cmd := op, cmdPos := p, cmdBound := bound }

/-- Send one SPAN_XFER and keep it for the boundary (R219). -/
def Dev.sendXfer (d : Dev) (c k from_ to_ pp : Nat) : Dev :=
  let d := d.sendMsg 5 c (k % 256 * 2 ^ 32 + from_ * 2 ^ 28 + to_ * 2 ^ 24 + pp * 2 ^ 16)
  d.modSpan c fun s => { s with xfers := s.xfers ++ [(k, from_, to_, pp)] }

/-- The members other than `x` that can take positions, each as often as it has FREE spares, in ascending clockwise
distance from the lead (R219). -/
def Dev.takers (d : Dev) (c n x : Nat) : List Nat :=
  let m := d.ringM
  ((List.range m).map fun k => (d.pos + k) % m).filter (fun p => p != x && bit (d.f CHAIN_SPANc_MEMB_MEMBERS c) p) |>.flatMap fun p =>
    List.replicate (if p = d.pos then (d.freeSpares n).length else (d.span c).freeOf p) p

/-- The boundary index at which `cnt` transfers take effect: at least PLAN_LEAD after the last message has left (R219). -/
def Dev.xferBoundary (d : Dev) (c n cnt : Nat) : Nat :=
  (d.span c).k + ceilDiv (32 * (d.planLead + d.txWait c (16 * cnt))) (d.rail n).sq.tsw + 1

/-- SPANCMD_WITHDRAW (R219). -/
def Dev.cmdWithdraw (d : Dev) (c x : Nat) : Dev :=
  if !d.inSpan c || !d.isLead c || x = d.pos then d
  else if (d.span c).cmd != 0 then d.spanBusy
  else
    let n := d.f CHAIN_SPANc_STAT_RAIL c
    let plan := (d.span c).plan
    let mine := (List.range plan.length).filter fun k => plan.getD k 255 == x
    let takers := d.takers c n x
    let k := d.xferBoundary c n mine.length
    let d := d.spanCmdRun c 1 x k
    if takers.length < mine.length then d.spanCmdEnd c opFailed 1
    else d.each (mine.zip takers) fun p d => d.sendXfer c k x p.2 p.1

def execSpancmdWithdraw (ch : Fin 2) (pos : Fin 16) (s : State) : Outcome := s.onDev fun d =>
  d.storeTo CHAIN_SPANCMD 0 fun d => d.cmdWithdraw ch pos

/-- The lead names the rail's destination for an admission (R220), which a target that still waits will change: SPAN_TARGET,
at least PLAN_LEAD ahead. -/
def Dev.repeatTarget (d : Dev) (c : Nat) : Dev :=
  let v := ((d.span c).target.getLast?.map (·.1)).getD (d.f RAIL_VTARGET_VTARGET (d.f CHAIN_SPANc_STAT_RAIL c))
  (d.modSpan c fun s => { s with targetAt := d.now }).sendTarget c v (d.r CHAIN_RTIME + d.txWait c 16 + d.planLead)

/-- SPANCMD_ADMIT (R220): a SPAN_XFER for each plan position that the image gives `y`, one that the plan names it for already
among them: a member that was not ARMED at BT0 does not staff it (R214). -/
def Dev.cmdAdmit (d : Dev) (c y : Nat) : Dev :=
  if !d.inSpan c || !d.isLead c || y = d.pos then d
  else if (d.span c).cmd != 0 then d.spanBusy
  else
    let n := d.f CHAIN_SPANc_STAT_RAIL c
    let s := d.span c
    let give := (List.range s.planImg.length).filter fun k => s.planImg.getD k 255 == y
    let k := d.xferBoundary c n (give.length + 1)
    let d := (d.spanCmdRun c 2 y k).repeatTarget c
    d.each give fun p d => d.sendXfer c k (s.plan.getD p 0) y p

def execSpancmdAdmit (ch : Fin 2) (pos : Fin 16) (s : State) : Outcome := s.onDev fun d =>
  d.storeTo CHAIN_SPANCMD 0 fun d => d.cmdAdmit ch pos

/-- SPANCMD_MOVE_LEAD (R219): the deputy becomes the lead by LEAD_MOVE. DESIGN CHOICE (log 73): no message of R206 tells the
deputy, since LEAD_MOVE is the new lead's; the old lead sends one that names the deputy, which then sends its own
(`Dev.leadMove`). -/
def Dev.cmdMoveLead (d : Dev) (c : Nat) : Dev :=
  if !d.inSpan c || !d.isLead c then d
  else if (d.span c).cmd != 0 then d.spanBusy
  else
    let p := d.f CHAIN_SPANc_STAT_DEPUTY c
    let d := d.spanCmdRun c 3 p 0
    let d := d.sendMsg 7 c (p * 2 ^ 36 + (d.span c).k % 256 * 2 ^ 28)
    (d.leadMove c p).spanCmdEnd c opDone 0

def execSpancmdMoveLead (ch : Fin 2) (s : State) : Outcome := s.onDev fun d =>
  d.storeTo CHAIN_SPANCMD 0 fun d => d.cmdMoveLead ch

/-- SPANCMD_ABORT (R21, R221): before the transfer boundary's cut every transfer is cancelled, with the messages that have not
left; after it, or once the command has ended at it, the abort is too late. DEDUCED (log 73): no message takes back a
SPAN_XFER that has left. -/
def Dev.cmdAbort (d : Dev) (c : Nat) : Dev :=
  let s := d.span c
  if s.cmd != 0 && !(s.k == s.cmdBound && d.atBoundary c) then
    let d := d.each [0, 1] fun l d => d.modLane l fun y =>
      { y with txLead := y.txLead.setIfInBounds c (dropMsgs 5 (y.txLead.getD c [])) }
    (d.modSpan c fun x => { x with xfers := x.xfers.filter fun t => t.1 != s.cmdBound }).spanCmdEnd c opAborted 4
  else if s.cmd != 0 || d.f CHAIN_SPANCMDST_STATE = opDone ||
      (d.f CHAIN_SPANCMDST_STATE = opFailed && [2, 3].contains (d.f CHAIN_SPANCMDST_REASON)) then
    d.setB CHAIN_SPANCMDST_ABORT_LATE 0 true
  else d

def execSpancmdAbort (ch : Fin 2) (s : State) : Outcome := s.onDev fun d =>
  d.storeTo CHAIN_SPANCMD 0 fun d => d.cmdAbort ch

/-- CHAIN_SPAN_CNT_READ (R222). -/
def execChainSpanCntRead (ch : Fin 2) (s : State) : Outcome := s.onDev fun d =>
  (d.answer (d.r CHAIN_SPANc_CNT ch)).setR CHAIN_SPANc_CNT ch 0

end Sys2Proof.Machine
end

