-- ==== Sys2Proof/Machine/Crypto.lean ====
section
/-! DEFINITION. The cryptographic functions the boot and SECURE use, as the standards that ch. 09 names give them:
Keccak and SHAKE256 (FIPS 202), cSHAKE256 and KMAC256 (NIST SP 800-185), and the verification of a Falcon-1024
signature in the padded format (R329). A byte is a number below 256, a lane one below 2^64. -/
namespace Sys2Proof.Machine

/-! ### Keccak-f[1600] -/

/-- One step of the bit generator of FIPS 202, 3.2.5: the remainder of `2 r` modulo x^8 + x^6 + x^5 + x^4 + 1. -/
def keccakBit (r : Nat) : Nat := if r < 128 then 2 * r else 2 * r ^^^ 0x171

/-- The round constant that starts at generator state `r`, with the state after it: the j-th of its seven bits stands at
position 2^j - 1. -/
def keccakConst (r : Nat) : Nat × Nat :=
  (List.range 7).foldl (fun x j => (keccakBit x.1, x.2 + x.1 % 2 * 2 ^ (2 ^ j - 1))) (r, 0)

/-- `n` round constants from generator state `r`. -/
def keccakConsts : Nat → Nat → List Nat
  | 0, _ => []
  | n + 1, r => (keccakConst r).2 :: keccakConsts n (keccakConst r).1

/-- The rotation of lane `x + 5 y` (FIPS 202, 3.2.2): the walk of 24 lanes from (1, 0), of which the t-th, from 1, is
rotated by t (t + 1) / 2; lane 0 is not. -/
def keccakWalk : Nat → Nat → Nat → Nat → Nat → Nat
  | 0, _, _, _, _ => 0
  | n + 1, t, x, y, lane =>
    if x + 5 * y = lane then t * (t + 1) / 2 % 64 else keccakWalk n (t + 1) y ((2 * x + 3 * y) % 5) lane

/-- A 64-bit lane rotated left by `k`. -/
def rotl64 (v k : Nat) : Nat := v * 2 ^ k % 2 ^ 64 + v / 2 ^ (64 - k)

/-- One round on 25 lanes, lane `x + 5 y` at that index. -/
def keccakRound (a : List Nat) (rc : Nat) : List Nat :=
  let at_ := fun (l : List Nat) i => l.getD i 0
  let c := (List.range 5).map fun x => (List.range 5).foldl (fun v y => v ^^^ at_ a (x + 5 * y)) 0
  let dl := (List.range 5).map fun x => at_ c ((x + 4) % 5) ^^^ rotl64 (at_ c ((x + 1) % 5)) 1
  let a := (List.range 25).map fun i => at_ a i ^^^ at_ dl (i % 5)
  -- rho and pi: lane (x, y) moves to (y, 2x + 3y); the lane at (u, w) comes from x = u + 3w, y = u
  let b := (List.range 25).map fun i =>
    let j := (i % 5 + 3 * (i / 5)) % 5 + 5 * (i % 5)
    rotl64 (at_ a j) (keccakWalk 24 1 1 0 j)
  (List.range 25).map fun i =>
    let y := 5 * (i / 5)
    let n1 := at_ b (y + (i + 1) % 5)
    let n2 := at_ b (y + (i + 2) % 5)
    at_ b i ^^^ (n2 ^^^ (n1 &&& n2)) ^^^ (if i = 0 then rc else 0)

/-- The permutation. -/
def keccakF (a : List Nat) : List Nat := (keccakConsts 24 1).foldl keccakRound a

/-! ### The sponge with rate 136 -/

/-- The rate, in bytes. -/
abbrev rate : Nat := 136

/-- Little-endian value of a byte list. -/
def leVal : List Nat → Nat
  | [] => 0
  | b :: t => b + 256 * leVal t

/-- `n` little-endian bytes of `v`. -/
def leBytes : Nat → Nat → List Nat
  | 0, _ => []
  | n + 1, v => v % 256 :: leBytes n (v / 256)

/-- Absorb `n` blocks. -/
def absorb : Nat → List Nat → List Nat → List Nat
  | 0, st, _ => st
  | n + 1, st, m =>
    let st := (List.range 25).map fun i => st.getD i 0 ^^^ (if i < 17 then leVal ((m.drop (8 * i)).take 8) else 0)
    absorb n (keccakF st) (m.drop rate)

/-- The message with the domain bits and the padding of the sponge. -/
def padded (m : List Nat) (dom : Nat) : List Nat :=
  let k := rate - m.length % rate
  if k = 1 then m ++ [dom ||| 0x80] else m ++ dom :: List.replicate (k - 2) 0 ++ [0x80]

/-- The state after the padded message. -/
def sponge (m : List Nat) (dom : Nat) : List Nat :=
  let p := padded m dom
  absorb (p.length / rate) (List.replicate 25 0) p

/-- The bytes of the rate part of a state. -/
def rateBytes (st : List Nat) : List Nat := (st.take 17).flatMap (leBytes 8)

/-- `n` blocks of output. -/
def squeeze : Nat → List Nat → List Nat
  | 0, _ => []
  | n + 1, st => rateBytes st ++ squeeze n (keccakF st)

/-- SHAKE256, `n` bytes of output. -/
def shake256 (m : List Nat) (n : Nat) : List Nat := (squeeze (n / rate + 1) (sponge m 0x1F)).take n

/-! ### KMAC256 -/

/-- The bytes of `v`, most significant first, at least one; `n` bounds their number. -/
def beMin : Nat → Nat → List Nat
  | 0, _ => []
  | n + 1, v => if v < 256 then [v] else beMin n (v / 256) ++ [v % 256]

def leftEncode (v : Nat) : List Nat := (beMin 8 v).length :: beMin 8 v
def rightEncode (v : Nat) : List Nat := beMin 8 v ++ [(beMin 8 v).length]
def encodeString (l : List Nat) : List Nat := leftEncode (8 * l.length) ++ l

/-- Prepend the rate and fill with zeros to a multiple of it. -/
def bytepad (l : List Nat) : List Nat :=
  let x := leftEncode rate ++ l
  x ++ List.replicate ((rate - x.length % rate) % rate) 0

/-- The bytes of an ASCII string. -/
def ascii (s : String) : List Nat := s.toList.map Char.toNat

/-- KMAC256(K, X, 8 n, S), `n` bytes of output. -/
def kmac256 (k x : List Nat) (n : Nat) (cust : List Nat) : List Nat :=
  let m := bytepad (encodeString (ascii "KMAC") ++ encodeString cust) ++ bytepad (encodeString k) ++ x ++ rightEncode (8 * n)
  (squeeze (n / rate + 1) (sponge m 0x04)).take n

/-! ### Falcon-1024 (R329) -/

abbrev falconQ : Nat := 12289

/-- The number whose bits, most significant first, are `l`. -/
def bitsVal (l : List Bool) : Nat := l.foldl (fun v b => 2 * v + b2n b) 0

/-- The public key: its 1,024 coefficients, or none where the encoding is invalid. -/
def falconKey (p : List Nat) : Option (List Nat) :=
  if p.length != 1793 || p.headD 0 != 0x0A then none else
  let l := (p.drop 1).flatMap (msbBits 8)
  let h := (List.range 1024).map fun i => bitsVal ((l.drop (14 * i)).take 14)
  if h.all (· < falconQ) then some h else none

/-- The unary part of a coefficient: how many zeros before the first one, at most 15, and what follows that one. -/
def unary : Nat → List Bool → Option (Nat × List Bool)
  | _, [] => none
  | _, true :: t => some (0, t)
  | 0, false :: _ => none
  | n + 1, false :: t => (unary n t).map fun x => (x.1 + 1, x.2)

/-- `n` coefficients of the compressed encoding: sign, 7 low bits, unary high part; a negative zero is invalid. -/
def falconCoefs : Nat → List Bool → Option (List Int × List Bool)
  | 0, l => some ([], l)
  | n + 1, l =>
    if l.length < 9 then none else
    match unary 15 (l.drop 8) with
    | none => none
    | some (k, rest) =>
      let v := bitsVal ((l.drop 1).take 7) + 128 * k
      if l.headD false && v = 0 then none
      else (falconCoefs n rest).map fun x => ((if l.headD false then -(v : Int) else (v : Int)) :: x.1, x.2)

/-- The signature: nonce and s2, or none where the encoding is invalid. -/
def falconSig (s : List Nat) : Option (List Nat × List Int) :=
  if s.length != 1280 || s.headD 0 != 0x3A then none else
  match falconCoefs 1024 ((s.drop 41).flatMap (msbBits 8)) with
  | some (c, rest) => if rest.any id then none else some ((s.drop 1).take 40, c)
  | none => none

/-- The compressed encoding of `n` coefficients whose sign, low bits and high part are those of the numbers that `v` gives,
with at most `room` zeros in their unary parts together, so that 1,024 coefficients end within 9,216 + `room` bits. Every
number below 4,096 stands for a coefficient, and none for a negative zero (R329). -/
def falconBits (v : Nat → Nat) : Nat → Nat → List Bool
  | 0, _ => []
  | n + 1, room =>
    let high := min (v n / 128 % 16) room
    (bit (v n) 11 && decide (v n % 128 + high ≠ 0)) :: msbBits 7 (v n % 128) ++ List.replicate high false ++
      true :: falconBits v n (room - high)

/-- The signature in the padded format whose nonce and coefficients the numbers of `v` give, 0 to 39 and from 40 on (R329).
Every valid encoding is the one of some `v`. -/
def falconBytes (v : Nat → Nat) : List Nat :=
  let l := falconBits (fun i => v (40 + i)) 1024 696 ++ List.replicate 696 false
  0x3A :: (List.range 40).map (v · % 256) ++ (List.range 1239).map fun i => bitsVal ((l.drop (8 * i)).take 8)

/-- The pairs of bytes of a block as big-endian 16-bit numbers. -/
def be16s : List Nat → List Nat
  | a :: b :: t => (256 * a + b) :: be16s t
  | _ => []

/-- Output blocks taken until 1,024 samples below 5 q have been found. -/
def pointLoop : Nat → List Nat → List Nat → List Nat
  | 0, _, acc => acc
  | n + 1, st, acc =>
    if acc.length ≥ 1024 then acc.take 1024
    else pointLoop n (keccakF st) (acc ++ ((be16s (rateBytes st)).filter (· < 5 * falconQ)).map (· % falconQ))

/-- HashToPoint. The number of output blocks is bounded by 1,000, of which some 17 are needed. -/
def hashToPoint (m : List Nat) : List Nat := pointLoop 1000 (sponge m 0x1F) []

/-- `x h` in the ring modulo x^1024 + 1. -/
def negShift (h : List Int) : List Int := -(h.getLastD 0) :: h.dropLast

/-- `acc + s h` in the ring. -/
def ringMul : List Int → List Int → List Int → List Int
  | [], _, acc => acc
  | a :: t, h, acc => ringMul t (negShift h) (List.zipWith (fun x y => x + a * y) acc h)

/-- A residue modulo q in centred form. -/
def centred (x : Int) : Int :=
  let r := x % (falconQ : Int)
  if r > (falconQ / 2 : Nat) then r - falconQ else r

/-- Why a signature is refused: 0x09 the key's encoding, 0x0A the signature's encoding, 0x0B the check; 0 when it is
valid (R329, R331). -/
def falconVerify (pk sig msg : List Nat) : Nat :=
  match falconKey pk with
  | none => 0x09
  | some h =>
    match falconSig sig with
    | none => 0x0A
    | some (nonce, s2) =>
      let c := hashToPoint (nonce ++ msg)
      let prod := ringMul s2 (h.map Int.ofNat) (List.replicate 1024 0)
      let s1 := List.zipWith (fun x y => centred ((x : Int) - y)) (c.map Int.ofNat) prod
      let norm := (s1 ++ s2).foldl (fun v x => v + x * x) 0
      if norm ≤ 70265242 then 0 else 0x0B

end Sys2Proof.Machine
end

