-- ==== Sys2Proof/Machine/Region.lean ====
section
/-! DEFINITION. The address map and the attributes of its regions (R35-R37, R431). -/
namespace Sys2Proof.Machine

/-- The regions of R35. -/
inductive Region where
  | rom
  | flash
  | info
  | sram
  | logRam
  | plane
  | periph
  | rail
  | slice
  | hawkmoth
  | qspi
  | priv
  | battery
  deriving DecidableEq, Repr

/-- The region of bus address `a` (R35); none for a hole. -/
def regionOf (a : Nat) : Option Region :=
  if a < 0x10000 then some .rom
  else if a < 0x08000000 then none
  else if a < 0x08400000 then some .flash
  else if a < 0x08800000 then none
  else if a < 0x08804000 then some .info
  else if a < 0x20000000 then none
  else if a < 0x20080000 then some .sram
  else if a < 0x24000000 then none
  else if a < 0x24010000 then some .logRam
  else if a < 0x30000000 then none
  else if a < 0x30018000 then some .plane
  else if a < 0x30020000 then none
  else if a < 0x30038000 then some .plane
  else if a < 0x40000000 then none
  else if a < 0x40010000 then some .periph
  else if a < 0x50000000 then none
  else if a < 0x50008000 then some .rail
  else if a < 0x50010000 then none
  else if a < 0x50012000 then some .slice
  else if a < 0x50020000 then none
  else if a < 0x50021000 then some .hawkmoth
  else if a < 0x60000000 then none
  else if a < 0x64000000 then some .qspi
  else if a < 0xE0000000 then none
  else if a < 0xE0010000 then some .priv
  else if a < 0xF0000000 then none
  else if a < 0xF0000400 then some .battery
  else none

/-- Byte and halfword accesses are allowed (R36, R431). -/
def Region.narrow : Region → Bool
  | .rom => true
  | .flash => true
  | .info => true
  | .sram => true
  | .logRam => true
  | .qspi => true
  | .plane => false
  | .periph => false
  | .rail => false
  | .slice => false
  | .hawkmoth => false
  | .priv => false
  | .battery => false

/-- User state may access the region (R35). -/
def Region.user : Region → Bool
  | .flash => true
  | .sram => true
  | .qspi => true
  | .rom => false
  | .info => false
  | .logRam => false
  | .plane => false
  | .periph => false
  | .rail => false
  | .slice => false
  | .hawkmoth => false
  | .priv => false
  | .battery => false

/-- Instructions may be fetched from the region (R35, R37): the ROM in BOOT only. -/
def Region.exec (r : Region) (boot : Bool) : Bool :=
  match r with
  | .flash => true
  | .sram => true
  | .rom => boot
  | _ => false

/-- The SRAM bank of an address (R431). -/
def sramBank (a : Nat) : Nat := if a < 0x20040000 then 0 else 1

/-- The bit of SYSCTL_OWNER that gives the owner of the block at `a` while the cores run apart (R324, R423); none where
the block belongs to neither core. -/
def ownerBit (a : Nat) : Option Nat :=
  match regionOf a with
  | some .periph => some (a / 0x1000 % 16)
  | some .rail => some 16
  | some .slice => some 16
  | some .hawkmoth => some 16
  | some .plane => some 17
  | some .battery => some 18
  | _ => none

/-- An access of `size` bytes at `a` is aligned to its size. -/
def alignedTo (a size : Nat) : Bool := size == 1 || (size == 2 && a % 2 == 0) || (size == 4 && a % 4 == 0)

/-- The core of a master, when it is one. -/
def masterCore : Master → Option CoreId
  | .core c _ => some c
  | .dma => none
  | .security => none
  | .jtag => none

/-- The syndrome of an access that its region refuses (R35, R36, R39, R423): UNMAPPED, then PRIV, then SIZE, then
NOT_OWNER. -/
def Dev.regionFault (d : Dev) (m : Master) (a size : Nat) : Option Nat :=
  match regionOf a with
  | none => some synUnmapped
  | some r =>
    let user := match m with
      | .core _ u => u
      | _ => false
    if r = .priv && (masterCore m).isNone && m != .jtag then some synUnmapped
    else if user && !r.user then some synPriv
    else if !r.narrow && !(size == 4 && a % 4 == 0) then some synSize
    else match masterCore m, ownerBit a with
      | some c, some b =>
        if d.b CORE_STAT_SPLIT && bit (d.r SYSCTL_OWNER) b != (c == .b) then some synNotOwner else none
      | _, _ => none

end Sys2Proof.Machine
end

