-- ==== Sys2Proof/Machine/Event.lean ====
section
/-! DEFINITION. The 128 event sources and the choice among pending events (R40, R412, R413, R427, R428). -/
namespace Sys2Proof.Machine

/-- Some enabled flag of a block is set. -/
def Dev.flagged (d : Dev) (flags even : Reg) (n : Nat) : Bool := (d.r flags n &&& d.r even n) != 0

/-- Some enabled CHAIN flag of bits `lo` to `lo + w - 1` is set (R223). -/
def Dev.chainFlagged (d : Dev) (lo w : Nat) : Bool := bits (d.r CHAIN_FLAGS &&& d.r CHAIN_EVEN) lo w != 0

/-- Accumulator event group `g` (R278): its units' enabled bits, and the global flags in group 0. -/
def Dev.accumFlagged (d : Dev) (g : Nat) : Bool :=
  let h := fun (r e : Reg) => bits (d.r r (g / 2) &&& d.r e (g / 2)) (16 * (g % 2)) 16 != 0
  h ACCUM_NEW ACCUM_NEWEN || h ACCUM_LIM ACCUM_LIMEN || (g == 0 && d.flagged ACCUM_FLAGS ACCUM_EVEN 0)

/-- Some enabled flag of Hawkmoth is set: the port's, or a rail's. -/
def Dev.hmFlagged (d : Dev) : Bool :=
  d.flagged HM_FLAGS HM_EVEN 0 || (List.range 8).any fun n => d.flagged HMRAIL_FLAGS HMRAIL_EVEN n

/-- The block of event `k` asserts it (R40, R323, R412, R530). -/
def Dev.eventSource (d : Dev) (k : Nat) : Bool :=
  if k < 8 then d.flagged RAIL_FLAGS RAIL_EVEN k || d.flagged RAIL_TE_FLAGS RAIL_TE_EVEN k
  else if k < 40 then
    d.flagged SLICE_FLAGS SLICE_EVEN (k - 8) || ((k - 8) % 4 == 0 && d.flagged CL_FLAGS CL_EVEN ((k - 8) / 4))
  else if k < 48 then d.flagged STITCHe_FLAGS STITCHe_EVEN (k - 40)
  else if k < 64 then d.flagged TIMERt_FLAGS TIMERt_EVEN (k - 48)
  else if k < 80 then d.flagged CHn_FLAGS CHn_EVEN (k - 64)
  else if k < 82 then d.flagged UART_FLAGS UART_EVEN (k - 80)
  else if k = 82 then d.flagged HB_FLAGS HB_EVEN 0
  else if k = 83 then d.flagged QSPI_FLAGS QSPI_EVEN 0
  else if k = 84 then d.chainFlagged 0 8
  else if k = 85 then d.chainFlagged 8 8
  else if k = 86 then d.chainFlagged 16 16
  else if k = 87 then d.flagged FLASHC_FLAGS FLASHC_EVEN 0
  else if k = 88 then d.flagged SECURE_FLAGS SECURE_EVEN 0
  else if k = 89 then d.flagged LOG_FLAGS LOG_EVEN 0
  else if k = 90 then d.flagged CFG_FLAGS CFG_EVEN 0
  else if k = 91 then d.hmFlagged
  else if k < 96 then d.accumFlagged (k - 92)
  else if k < 120 then d.gpRaised (k - 96)
  else bit d.cpu.swset (k - 120) || (k == 127 && d.flagged SYSCTL_FLAGS SYSCTL_EVEN 0)

/-- Event `k` is raised: by its source, or by XFORCE for test (R427). -/
def Dev.eventRaised (d : Dev) (k : Nat) : Bool := d.eventSource k || bit (d.r EVENT_XFORCEr (k / 32)) (k % 32)

/-- Event `k` is pending (R412). -/
def Dev.eventPending (d : Dev) (k : Nat) : Bool := bit (d.r EVENT_ENr (k / 32)) (k % 32) && d.eventRaised k

/-- The priority of event `k` (R428). -/
def Dev.eventPrio (d : Dev) (k : Nat) : Nat := bits (d.r EVENT_PRIOp (k / 8)) (4 * (k % 8)) 3

/-- The pending event with the highest priority above `ipl`, the lowest number among equals (R412, R413). -/
def Dev.topEvent (d : Dev) (ipl : Nat) : Option Nat :=
  (List.range 128).foldl (fun best k =>
    if d.eventPrio k > ipl && d.eventPending k then
      match best with
      | some b => if d.eventPrio k > d.eventPrio b then some k else best
      | none => some k
    else best) none

/-- Word `r` of a mask over the 128 events. -/
def eventWord (p : Nat → Bool) (r : Nat) : Nat := (List.range 32).foldl (fun v j => v + b2n (p (32 * r + j)) * 2 ^ j) 0

/-- EVENT_SWSET (R427): the selected software events are raised. -/
def Dev.swSet (d : Dev) (v : Nat) : Dev := { d with cpu := { d.cpu with swset := d.cpu.swset ||| v % 256 } }
def execEventSwset (v : Word) (s : State) : Outcome := s.onDev fun d => d.storeTo EVENT_SWSET 0 fun d => d.swSet v.toNat

/-- EVENT_SWCLR (R427): the same bits are cleared. -/
def Dev.swClr (d : Dev) (v : Nat) : Dev :=
  { d with cpu := { d.cpu with swset := d.cpu.swset - (d.cpu.swset &&& v % 256) } }
def execEventSwclr (v : Word) (s : State) : Outcome := s.onDev fun d => d.storeTo EVENT_SWCLR 0 fun d => d.swClr v.toNat

end Sys2Proof.Machine
end

