-- ==== Sys2Proof/Machine/Flash.lean ====
section
/-! DEFINITION. RAM and flash with their error correction, the scrubber, and the flash commands (R434-R456). A command
row is the write of FLASHC_CMD; FLASH_COMMAND_END is the end of the command that runs, ERASE_SUSPENDED the moment at
which a suspension takes effect. -/
namespace Sys2Proof.Machine

/-! ### RAM with SECDED (R434-R437) -/

/-- The memory code of FLASHC_ECCSTAT.SRC of a RAM word, by its memory key (R467). -/
def ramSrc (k : Nat) : Nat :=
  if k < 0x20040000 then 0 else if k < 0x20080000 then 1 else if k < 0x30000000 then 2 else if k < 2 ^ 32 then 3 else 4

def Dev.modFlash (d : Dev) (f : FlashSt → FlashSt) : Dev := { d with flash := f d.flash }

/-- A corrected single-bit error of the word or double word at `a` (R434, R438). -/
def Dev.eccCe (d : Dev) (a : Nat) : Dev :=
  (d.incSat FLASHC_ECCSTAT_CE).setR FLASHC_ECCCE 0 (a % 2 ^ 32) |>.raise FLASHC_FLAGS_CE

/-- An uncorrectable error found by a read at `a` of memory `src` (R435, R438). -/
def Dev.eccUe (d : Dev) (src a : Nat) : Dev :=
  let d := (d.incSat FLASHC_ECCSTAT_UE).setF FLASHC_ECCSTAT_SRC 0 src |>.setR FLASHC_ECCUE 0 (a % 2 ^ 32)
  let d := d.raise FLASHC_FLAGS_UE
  if src < 5 then d.post 1 0x040 src [a % 2 ^ 32, 0] else d.post 1 0x041 (src - 5) [a]

/-- The check of the RAM word with key `k` by a read: true when it is uncorrectable; a single-bit error is corrected and
written back (R434, R435). -/
def Dev.ramCheck (d : Dev) (k : Nat) : Dev × Bool :=
  if d.flash.ue.contains k then (d.eccUe (ramSrc k) k, true)
  else if d.flash.ce.contains k then
    ((d.eccCe k).modFlash fun f => { f with ce := f.ce.filter (· != k) }, false)
  else (d, false)

/-- A store of `size` bytes into the RAM word that holds key `k` (R436): a full-word store never checks the old word; a
narrow one into a word with an uncorrectable error poisons it. -/
def Dev.ramStored (d : Dev) (k size : Nat) : Dev :=
  let w := k - k % 4
  if size = 4 then
    d.modFlash fun f => { f with ue := f.ue.filter (· != w), ce := f.ce.filter (· != w) }
  else if d.flash.ue.contains w then
    (d.raise FLASHC_FLAGS_UE).post 1 0x040 (ramSrc w) [w % 2 ^ 32, 1]
  else (d.ramCheck w).1

/-- Store `size` bytes at RAM key `k`. -/
def State.ramStore (s : State) (k size v : Nat) : State :=
  { s with mem := s.mem.writeN size k v, dev := s.dev.ramStored k size }

/-- Word `i` of the scrubber's order: SRAM bank 0, bank 1, the log RAM (R437). -/
def scrubKey (i : Nat) : Nat := if i < 131072 then 0x20000000 + 4 * i else 0x24000000 + 4 * (i - 131072)

/-- STEP of the scrubber: values below 16 act as 16 (R467). -/
def Dev.scrubStep (d : Dev) : Nat := max 16 (d.f FLASHC_XSCRUB_STEP)

/-- RAM_SCRUB_STEP (R437): with EN 1 the scrubber reads one word, STEP cycles after the one before; after the last one a pass
is complete. Before that nothing happens. -/
def Dev.ramScrub (d : Dev) : Dev :=
  if !d.b FLASHC_XSCRUB_EN || d.cpu.cyc < d.flash.scrubAt + d.scrubStep then d else
  let i := d.flash.scrub % 147456
  let d := (d.ramCheck (scrubKey i)).1
  let d := d.modFlash fun f => { f with scrub := (i + 1) % 147456, scrubAt := d.cpu.cyc }
  if i + 1 = 147456 then d.inc FLASHC_SCRUB_PASSES else d
def execRamScrubStep (s : State) : Outcome := s.onDev Dev.ramScrub

/-! ### Flash (R438, R439) -/

/-- The device block number of a flash address (R438). -/
def flashBlock (a : Nat) : Nat := (a - 0x08000000) / 0x2000

/-- The bus address of a device block. -/
def blockAddr (b : Nat) : Nat := 0x08000000 + 0x2000 * b

/-- The page number, 32 × block + page, of a flash address. -/
def flashPage (a : Nat) : Nat := (a - 0x08000000) / 0x100

/-- The bank of a flash address: 0 A, 1 B. -/
def flashBank (a : Nat) : Nat := if a < 0x08200000 then 0 else 1

/-- The bank that a foreground PROGRAM, ERASE, BCHECK or MREAD keeps busy (R442). -/
def Dev.busyBank (d : Dev) : Option Nat := if d.flash.op = 0 then none else some (flashBank d.flash.addr)

/-- The suspended erase, by its device block (R445). -/
def Dev.suspBlock (d : Dev) : Option Nat :=
  if d.b FLASHC_SUSP_ACTIVE then some (256 * d.f FLASHC_SUSP_BANK + d.f FLASHC_SUSP_BLOCK) else none

/-- The page with number `p` is blank (R439): every bit reads 1 at the erase margin level, with no error. -/
def Dev.pageBlank (d : Dev) (m : Mem) (p : Nat) : Bool :=
  !d.flash.weak.contains p && !d.flash.fce.any (fun k => flashPage k == p) &&
    !d.flash.fue.any (fun k => flashPage k == p) && (m.bytes 256 (0x08000000 + 0x100 * p)).all (· == 0xFF)

/-- The page is weak (R439): marked so, or not blank with an ECC error. -/
def Dev.pageWeak (d : Dev) (p : Nat) : Bool :=
  d.flash.weak.contains p || d.flash.fce.any (fun k => flashPage k == p) || d.flash.fue.any (fun k => flashPage k == p)

/-- What the check of the double word that holds flash address `a` gives (R438): true when it is uncorrectable. -/
def Dev.flashCheck (d : Dev) (a : Nat) : Dev × Bool :=
  let k := a - a % 8
  if d.flash.fue.contains k then (d.eccUe (5 + flashBank a) a, true)
  else if d.flash.fce.contains k then (d.eccCe a, false)
  else (d, false)

/-! ### Seals (R335) -/

/-- The seal and VERIFIED of `bank` are cleared. -/
def Dev.sealClear (d : Dev) (bank : Nat) : Dev :=
  let lost := if bank = 0 then d.b SECURE_STAT_SEAL_A else d.b SECURE_STAT_SEAL_B
  let d := if bank = 0 then (d.setB SECURE_STAT_SEAL_A 0 false).setB SECURE_STAT_VERIFIED_A 0 false
    else (d.setB SECURE_STAT_SEAL_B 0 false).setB SECURE_STAT_VERIFIED_B 0 false
  let d := { d with sec := { d.sec with sealTag := d.sec.sealTag.setIfInBounds bank [] } }
  d.raiseIf lost SECURE_FLAGS_SEAL_LOST

/-! ### Commands (R440-R447) -/

/-- FLASHC_CMD.OP codes (R441). -/
abbrev flProgram : Nat := 1
abbrev flErase : Nat := 2
abbrev flSuspend : Nat := 3
abbrev flResume : Nat := 4
abbrev flBcheck : Nat := 5
abbrev flMread : Nat := 6
abbrev flAbort : Nat := 7

/-- Why a command is refused, the lowest code of R440; 0 when it is accepted. -/
def Dev.flashWhy (d : Dev) (op lvl key : Nat) : Nat :=
  let a := d.r FLASHC_ADDR
  let runs := d.flash.op != 0
  let onAddr := op = flProgram || op = flErase || op = flBcheck || op = flMread
  let info := decide (0x08800000 ≤ a) && decide (a < 0x08804000)
  let inside := decide (0x08000000 ≤ a) && decide (a < 0x08400000)
  let aligned := if op = flProgram || op = flMread then a % 0x100 = 0 else a % 0x2000 = 0
  if key != 0xF1A5 then 1
  else if onAddr && runs then 2
  else if onAddr && !info && !(inside && aligned) then 3
  else if onAddr && info then 4
  else if onAddr && op != flErase && d.suspBlock == some (flashBlock a) then 5
  else if (op = flErase && d.suspBlock.isSome) || (op = flSuspend && d.flash.op != flErase) ||
      (op = flResume && (d.suspBlock.isNone || runs)) then 6
  else if op = flAbort && d.flash.op = flProgram then 7
  else if op = 0 || (op = flMread && lvl = 3) then 8
  else 0

/-- A refused request (R440). -/
def Dev.flashReject (d : Dev) (code : Nat) : Dev :=
  ((d.raise FLASHC_FLAGS_CMD_REJ).setF FLASHC_REJ_CODE 0 code).inc FLASHC_REJ_COUNT

/-- The foreground command ends (R441): STATE, REASON, CMD_DONE or CMD_FAIL; one that fails writes FLASH_OPFAIL. -/
def Dev.flashEnd (d : Dev) (state reason : Nat) : Dev :=
  let d := d.setF FLASHC_OPSTAT_STATE 0 state |>.setF FLASHC_OPSTAT_REASON 0 reason
  let d := if state = opDone then d.raise FLASHC_FLAGS_CMD_DONE else d.raise FLASHC_FLAGS_CMD_FAIL
  let d := if state = opFailed then d.post 1 0x043 d.flash.op [d.r FLASHC_OPSTAT, d.flash.addr] else d
  let d := d.setB FLASHC_STAT_BUSY 0 false |>.setB FLASHC_STAT_SUSP_WAIT 0 false
  d.modFlash fun f => { f with op := 0, suspReq := false, buf := [], fresh := none }

/-- A command on FLASHC_ADDR is accepted and runs in the foreground (R441, R443). -/
def Dev.flashRun (d : Dev) (op lvl : Nat) : Dev :=
  let a := d.r FLASHC_ADDR
  let d := d.setR FLASHC_OPSTAT 0 (opWord opRunning 0 0 0 false) |>.setR FLASHC_OPINFO 0 (a / 256 * 256 + op)
  let d := d.setB FLASHC_STAT_BUSY 0 true |>.setF FLASHC_STAT_BANK 0 (flashBank a)
  let d := d.modFlash fun f => { f with op := op, addr := a, lvl := lvl, suspReq := false, fresh := none, at_ := d.now, done := 0, noPulse := false }
  if op = flProgram then
    (d.modFlash fun f => { f with buf := (List.range 64).map fun j => d.r FLASHC_PBUF j }).sealClear (flashBank a)
  else if op = flErase then
    let b := flashBlock a
    (d.modFlash fun f => { f with incomplete := f.incomplete.filter (· != b) ++ [b] }).sealClear (flashBank a)
  else d

/-- The erase restarted less than 1,000 µs ago (R445). -/
def Dev.eraseFresh (d : Dev) : Bool :=
  match d.flash.fresh with
  | some t => decide (d.now < t + 400000)
  | none => false

/-- SUSPEND is accepted (R445): it waits while the erase restarted less than 1,000 µs before. -/
def Dev.flashSuspend (d : Dev) : Dev :=
  (d.modFlash fun f => { f with suspReq := true }).setB FLASHC_STAT_SUSP_WAIT 0 d.eraseFresh

/-- RESUME is accepted (R445): the erase is the foreground command again, and pulses restart within 10 µs. -/
def Dev.flashResume (d : Dev) : Dev :=
  let b := d.suspBlock.getD 0
  let d := d.setR FLASHC_OPSTAT 0 (opWord opRunning (d.f FLASHC_SUSP_PULSES) 0 0 false)
  let d := d.setR FLASHC_OPINFO 0 (blockAddr b + flErase)
  let d := d.setB FLASHC_SUSP_ACTIVE 0 false |>.setB FLASHC_STAT_SUSPENDED 0 false
  let d := d.setB FLASHC_STAT_BUSY 0 true |>.setF FLASHC_STAT_BANK 0 (b / 256)
  d.modFlash fun f =>
    { f with op := flErase, addr := blockAddr b, suspReq := false, fresh := some (d.now + 4000), at_ := d.now + 4000
             done := d.f FLASHC_SUSP_PULSES }

/-- The pulses or pages that the foreground command has completed (R441, R444): program pulses of 20 µs after the blank
check of 2 µs, none where that or the erase record forbids them; erase pulses of 100 µs after the 20 µs of the record, or
after the restart; pages of a BCHECK at its typical pace (DESIGN CHOICE, log 80). -/
def Dev.flashPulses (d : Dev) : Nat :=
  let t := d.now - d.flash.at_
  if d.flash.op = flProgram then (if d.flash.noPulse then 0 else min 10 ((t - 800) / 8000))
  else if d.flash.op = flErase then min 250 (d.flash.done + (if d.flash.fresh.isSome then t else t - 8000) / 40000)
  else if d.flash.op = flBcheck then min 31 (t / 500)
  else 0

/-- PROGRESS of the command that runs (R441). -/
def Dev.flashProgress (d : Dev) : Dev :=
  if d.flash.op = 0 || d.flash.op = flMread then d else d.setF FLASHC_OPSTAT_PROGRESS 0 d.flashPulses

/-- ABORT (R447). -/
def Dev.flashAbort (d : Dev) : Dev :=
  if d.flash.op != 0 then d.flashProgress.flashEnd opAborted 1
  else if d.suspBlock.isSome then
    let d := d.setR FLASHC_OPINFO 0 (blockAddr (d.suspBlock.getD 0) + flErase)
    let d := d.setR FLASHC_OPSTAT 0 (opWord opRunning (d.f FLASHC_SUSP_PULSES) 0 0 false)
    ((d.setB FLASHC_SUSP_ACTIVE 0 false).setB FLASHC_STAT_SUSPENDED 0 false).flashEnd opAborted 1
  else if d.f FLASHC_OPSTAT_STATE = opDone then d.setB FLASHC_OPSTAT_ABORT_LATE 0 true
  else d

/-- A write of FLASHC_CMD (R440, R441). -/
def Dev.flashCmd (d : Dev) (op lvl key : Nat) : Dev :=
  let why := d.flashWhy op lvl key
  if why != 0 then d.flashReject why
  else if op = flSuspend then d.flashSuspend
  else if op = flResume then d.flashResume
  else if op = flAbort then d.flashAbort
  else d.flashRun op lvl

/-- The double words of block `b` that read with an ECC error, and the pages that read otherwise at a margin, while it is half
erased: which are free (R439, R450). -/
def Dev.halfErased (d : Dev) (b : Nat) : Dev :=
  let (l, d) := d.freshBytes 1024
  let (w, d) := d.freshBytes 32
  let words := fun (v : Nat) => (l.zipIdx.filter fun x => x.1 % 4 == v).map fun x => blockAddr b + 8 * x.2
  let pages := (w.zipIdx.filter fun x => bit x.1 0).map fun x => 32 * b + x.2
  let out := fun k : Nat => flashBlock k != b
  d.modFlash fun f =>
    { f with fce := f.fce.filter out ++ words 1, fue := f.fue.filter out ++ words 2
             weak := f.weak.filter (· / 32 != b) ++ pages }

/-- A write of FLASHC_CMD, with its effect on the memory: from the acceptance of an ERASE until it ends DONE its block
may read with any content, ECC errors included (R450). -/
def State.flashCmd (s : State) (op lvl key : Nat) : State :=
  let erases := op = flErase && s.dev.flashWhy op lvl key = 0
  let d := s.dev.flashCmd op lvl key
  if erases then
    let (bytes, d) := d.freshBytes 0x2000
    let d := d.halfErased (flashBlock d.flash.addr)
    { s with dev := d, mem := s.mem.writeBytes (blockAddr (flashBlock d.flash.addr)) bytes }
  else
    let p := flashPage d.flash.addr
    let no := (d.flash.incomplete.contains (p / 32) || !d.pageBlank s.mem p)
    { s with dev := if op = flProgram && s.dev.flash.op = 0 && d.flash.op != 0 then d.modFlash fun f => { f with noPulse := no } else d }

/-- The bus write of FLASHC_CMD by firmware (R303, R440). -/
def State.flashCmdWrite (s : State) (op lvl key : Nat) : State :=
  if s.dev.modeNow = modeSafe then { s with dev := s.dev.busFail synSafeLock }
  else State.flashCmd { s with dev := s.dev.busOk } op lvl key

def execFlashProgram (key : Half) (s : State) : Outcome := s.live fun s => s.flashCmdWrite flProgram 0 key.toNat
def execFlashErase (key : Half) (s : State) : Outcome := s.live fun s => s.flashCmdWrite flErase 0 key.toNat
def execFlashSuspend (key : Half) (s : State) : Outcome := s.live fun s => s.flashCmdWrite flSuspend 0 key.toNat
def execFlashResume (key : Half) (s : State) : Outcome := s.live fun s => s.flashCmdWrite flResume 0 key.toNat
def execFlashBcheck (key : Half) (s : State) : Outcome := s.live fun s => s.flashCmdWrite flBcheck 0 key.toNat
def execFlashMread (key : Half) (lvl : Fin 4) (s : State) : Outcome := s.live fun s => s.flashCmdWrite flMread lvl key.toNat
def execFlashAbort (key : Half) (s : State) : Outcome := s.live fun s => s.flashCmdWrite flAbort 0 key.toNat

/-- ERASE_SUSPENDED (R445): the accepted suspension takes effect, not before 1,000 µs after the restart; the pulse in progress
is cut and given again later. -/
def Dev.eraseSuspended (d : Dev) : Dev :=
  if d.flash.op != flErase || !d.flash.suspReq || d.eraseFresh then d else
  let d := d.flashProgress
  let b := flashBlock d.flash.addr
  let d := d.setR FLASHC_SUSP 0 (b % 256 + b / 256 * 2 ^ 8 + 2 ^ 15 + d.f FLASHC_OPSTAT_PROGRESS % 256 * 2 ^ 16)
  let d := d.setB FLASHC_STAT_SUSPENDED 0 true |>.setB FLASHC_STAT_BUSY 0 false |>.setB FLASHC_STAT_SUSP_WAIT 0 false
  (d.raise FLASHC_FLAGS_SUSP_ON).modFlash fun f => { f with op := 0, suspReq := false, fresh := none }
def execEraseSuspended (s : State) : Outcome := s.onDev Dev.eraseSuspended

/-! ### The end of a command (R441, R444, R451) -/

/-- A PROGRAM ends (R441): in a block whose record is incomplete, or on a page that is not blank, without a pulse; `ok`
says whether the verify passed after `pulses`. A page that still fails is weak, and what it holds is free. -/
def State.programEnd (s : State) (ok : Bool) (pulses : Nat) : State :=
  let d := s.dev
  let p := flashPage d.flash.addr
  if d.flash.incomplete.contains (p / 32) then { s with dev := d.flashEnd opFailed 3 }
  else if !d.pageBlank s.mem p then { s with dev := d.flashEnd opFailed 2 }
  else if ok then
    let m := s.mem.writeBytes d.flash.addr ((List.range 256).map fun i => bits (d.flash.buf.getD (i / 4) 0) (8 * (i % 4)) 8)
    { s with mem := m, dev := (d.setF FLASHC_OPSTAT_PROGRESS 0 pulses).flashEnd opDone 0 }
  else
    let (bytes, d) := d.freshBytes 256
    let d := d.setF FLASHC_OPSTAT_PROGRESS 0 10 |>.modFlash fun f => { f with weak := f.weak ++ [p] }
    { s with mem := s.mem.writeBytes d.flash.addr bytes, dev := d.flashEnd opFailed 4 }

/-- An ERASE ends (R444): after a verify that passes the block is erased, its record complete and its HALFE bit clear
(R450); after 250 pulses without one it fails and END stays clear. -/
def State.eraseEnd (s : State) (ok : Bool) (pulses : Nat) : State :=
  let d := s.dev
  let b := flashBlock d.flash.addr
  if ok then
    let out := fun k : Nat => flashBlock k == b
    let d := d.modFlash fun f => { f with incomplete := f.incomplete.filter (· != b), weak := f.weak.filter (· / 32 != b),
                                          fce := f.fce.filter (!out ·), fue := f.fue.filter (!out ·) }
    let d := d.setR FLASHC_HALFE (b / 32) (putBits (d.r FLASHC_HALFE (b / 32)) (b % 32) 1 0)
    { s with mem := s.mem.drop fun k => decide (blockAddr b ≤ k) && decide (k < blockAddr (b + 1)),
             dev := (d.setF FLASHC_OPSTAT_PROGRESS 0 pulses).flashEnd opDone 0 }
  else { s with dev := (d.setF FLASHC_OPSTAT_PROGRESS 0 250).flashEnd opFailed 5 }

/-- A BCHECK ends (R451). -/
def Dev.bcheckEnd (d : Dev) (m : Mem) (ok : Bool) : Dev :=
  if !ok then d.flashEnd opFailed 0x0E else
  let b := flashBlock d.flash.addr
  let pages := (List.range 32).map fun p => 32 * b + p
  let mask := fun (f : Nat → Bool) => (List.range 32).foldl (fun v p => v + b2n (f (32 * b + p)) * 2 ^ p) 0
  let half := d.flash.incomplete.contains b
  let st := if half then 3 else if pages.any d.pageWeak then 2 else if pages.all (d.pageBlank m) then 0 else 1
  let d := d.setR FLASHC_BRES 0 (st + 2 ^ 2 + b2n (!half) * 2 ^ 3 + b * 2 ^ 8)
  let pair := fun p : Nat => p % 2 == 0 && d.pageWeak (p + 1) && !d.pageBlank m p
  let d := (d.setR FLASHC_BBLANK 0 (mask (d.pageBlank m))).setR FLASHC_BWEAK 0 (mask d.pageWeak)
  let d := d.setR FLASHC_BPAIR 0 (mask pair)
  (d.setF FLASHC_OPSTAT_PROGRESS 0 32).flashEnd opDone 0

/-- The page at `a` with no error correction: in a double word with a single-bit error one of the 64 data bits or 8 check
bits is wrong, which is free, and one with an uncorrectable error reads as anything (R438, R441). -/
def Dev.rawPage (d : Dev) (m : Mem) (a : Nat) : List Nat × Dev :=
  let here := fun k : Nat => flashPage k == flashPage a
  let ue := (d.flash.fue.filter here).foldl (fun (x : List Nat × Dev) k =>
    let (l, d) := x.2.freshBytes 8
    (x.1.take (k - a) ++ l ++ x.1.drop (k - a + 8), d)) (m.bytes 256 a, d)
  (d.flash.fce.filter here).foldl (fun x k =>
    let (p, d) := x.2.fresh 8
    let p := p % 72
    let j := k - a + p / 8
    (if p < 64 then x.1.set j (x.1.getD j 0 ^^^ 2 ^ (p % 8)) else x.1, d)) ue

/-- An MREAD ends (R441): the page at the level LVL, with no error correction. At a margin level a weak page may read
otherwise than at the normal level (R439); what it then reads is free. -/
def Dev.mreadEnd (d : Dev) (m : Mem) (ok : Bool) : Dev :=
  if !ok then d.flashEnd opFailed 0x0E else
  let free := d.flash.lvl != 0 && d.pageWeak (flashPage d.flash.addr)
  let (bytes, d) := if free then d.freshBytes 256 else d.rawPage m d.flash.addr
  let d := d.modFlash fun f => { f with fillAt := some d.now }
  let d := d.each (List.range 64) fun j d =>
    d.setR FLASHC_PBUF j ((List.range 4).foldl (fun v k => v + bytes.getD (4 * j + k) 0 * 2 ^ (8 * k)) 0)
  d.flashEnd opDone 0

/-- FLASH_COMMAND_END (R441): the foreground command ends; `ok` is the result of its last verify or read, `pulses` the
pulses given. -/
def execFlashCommandEnd (ok : Bool) (pulses : Byte) (s : State) : Outcome := s.live fun s =>
  if s.dev.flash.op = flProgram then s.programEnd ok (min 10 pulses.toNat)
  else if s.dev.flash.op = flErase then s.eraseEnd ok (min 250 pulses.toNat)
  else if s.dev.flash.op = flBcheck then { s with dev := s.dev.bcheckEnd s.mem ok }
  else if s.dev.flash.op = flMread then { s with dev := s.dev.mreadEnd s.mem ok }
  else s

/-! ### The scan after power-on reset (R450, R456) -/

/-- A copy of the factory-calibration row is correct (R455, R456). -/
def Mem.fcalOk (m : Mem) (k : Nat) : Bool :=
  let a := 0x08800000 + 0x800 * k
  m.readN 4 a == 0x4C414346 && m.readN 2 (a + 6) == 0x7216 && m.readN 4 (a + 0x7FC) == crc32c (m.bytes 0x7FC a)

/-- The scan of the erase records, and the factory calibration that is chosen and loaded (R450, R456). -/
def Dev.flashScan (d : Dev) (m : Mem) : Dev :=
  let d := d.each d.flash.incomplete fun b d =>
    let d := d.setR FLASHC_HALFE (b / 32) (d.r FLASHC_HALFE (b / 32) ||| 2 ^ (b % 32))
    (d.post 2 0x042 (b % 256) [b / 256]).raise FLASHC_FLAGS_HALFE_FOUND
  let ok0 := m.fcalOk 0
  let ok1 := m.fcalOk 1
  let d := d.setB FLASHC_STAT_SCAN_DONE 0 true |>.setB FLASHC_STAT_FCAL_OK 0 (ok0 || ok1)
  let d := d.setB FLASHC_STAT_FCAL_COPY 0 (!ok0 && ok1)
  let row := 0x08800000 + (if ok0 then 0 else 0x800)
  let d := { d with flash := { d.flash with dt := if ok0 || ok1 then [m.readN 4 (row + 0x20), m.readN 4 (row + 0x24)] else [] } }
  if ok0 || ok1 then d else (d.raise FLASHC_FLAGS_FCAL_BAD).post 0 0x045 0xFF []

end Sys2Proof.Machine
end

