-- ==== Sys2Proof/Machine/Cfg.lean ====
section
/-! DEFINITION. The configuration planes and the requests to the girth check: scrubbing, plane writes, and the queue of
waiting requests (R224-R229, R244, R245, R247-R249). -/
namespace Sys2Proof.Machine

/-! ### The scrubber (R225, R226) -/

/-- The directory entries of plane `p` that are in force, whose in-force state has not changed in this pass, and whose last
word is the word at offset `off`. -/
def Dev.sectionsEnding (d : Dev) (m : Mem) (p off : Nat) : List Ent :=
  (dirList m p).filter fun e =>
    d.inForce p e && !bit d.cfg.changed e.owner && 0 < e.len && (e.off + e.len - 1) / 4 * 4 == off

/-- The background CRC of the sections whose last word has been visited (R226): on a mismatch CRC_BG, CFG_BGCRC and a
class-1 entry. CFG_BGCRC keeps the first mismatch while it is pending. -/
def Dev.bgCrc (d : Dev) (m : Mem) (p off : Nat) : Dev :=
  if !d.b CFG_XSCRUB_BGCRC_EN then d else
  d.each ((d.sectionsEnding m p off).filter fun e => crc32c (pBytes m p e.off e.len) != e.crc) fun e d =>
    let d := d.raise CFG_FLAGS_CRC_BG
    let d := if d.b CFG_BGCRC_PENDING then d else d.setR CFG_BGCRC 0 (e.dir + p * 2 ^ 8 + 2 ^ 16)
    d.post 1 0x015 e.dir [p]

/-- Rewrite the four bytes of a plane word with their majority (R225). -/
def Mem.scrubWord (m : Mem) (a : Nat) : Mem :=
  (List.range 4).foldl (fun m k => m.writePlane (a + k) (m.readPlane (a + k))) m

/-- Some cell of a plane word disagrees with its majority. -/
def Mem.disagrees (m : Mem) (a : Nat) : Bool :=
  (List.range 4).any fun k =>
    let v := m.readPlane (a + k)
    m.read (a + k) != v || m.read (a + k + 2 ^ 33) != v || m.read (a + k + 2 ^ 34) != v

/-- CFG_XSCRUB.STEP: lower values act as 4. -/
def Dev.planeScrubStep (d : Dev) : Nat := max 4 (d.f CFG_XSCRUB_STEP)

/-- SCRUB_STEP (R225, R226): the scrubber visits its next word, STEP cycles after the one before. -/
def execScrubStep (s : State) : Outcome := s.live fun s =>
  if s.dev.now < s.dev.cfg.scrubAt then s else
  let d := s.dev
  let p := d.cfg.scrubPos % 2
  let off := 4 * (d.cfg.scrubPos / 2)
  let a := 0x30000000 + 0x20000 * p + off
  let d := if s.mem.disagrees a then (d.incSat CFG_SCRUB_CORR).raise CFG_FLAGS_SCRUB_CORR else d
  let m := s.mem.scrubWord a
  let d := d.bgCrc m p off
  let next := (d.cfg.scrubPos + 1) % 49152
  let d := d.modCfg fun c => { c with
      scrubPos := next, scrubAt := d.now + d.planeScrubStep, changed := if next = 0 then 0 else c.changed }
  let d := if next = 0 then d.inc CFG_SCRUB_PASSES else d
  { s with mem := m, dev := d }

/-! ### Plane writes (R36, R38, R224, R229, R303) -/

/-- The plane and the offset of an address in a plane window. -/
def planeAt (a : Nat) : Option (Nat × Nat) :=
  if 0x30000000 ≤ a && a < 0x30018000 then some (0, a - 0x30000000)
  else if 0x30020000 ≤ a && a < 0x30038000 then some (1, a - 0x30020000) else none

/-- A word write to a plane window, by a master that may write there: refused in SAFE and where a byte is in force, stored
in all three cells otherwise (R38, R224, R303). A write that the girth check stalls is stored when the check ends
(R229), which the model's order of commands shows. -/
def State.planeStore (s : State) (a v : Nat) : State :=
  match planeAt a with
  | none => { s with dev := s.dev.busFail synUnmapped }
  | some (p, off) =>
    if a % 4 != 0 then { s with dev := s.dev.busFail synSize }
    else if s.dev.modeNow = modeSafe then { s with dev := s.dev.busFail synSafeLock }
    else if (List.range 4).any fun k => s.dev.byteInForce s.mem p (off + k) then
      { s with dev := ((s.dev.raise CFG_FLAGS_WR_REFUSED).setR CFG_WRERR 0 a).busFail synPlaneInForce }
    else
      let m := (List.range 4).foldl (fun m k => m.writePlane (a + k) (bits v (8 * k) 8)) s.mem
      { s with mem := m, dev := s.dev.busOk }

/-! ### Requests (R244, R245, R247, R249, R256) -/

/-- SOURCE codes of CFG_GSTAT (R256). -/
abbrev srcFabric : Nat := 0x01
abbrev srcDevSwap : Nat := 0x02
abbrev srcRailSwap : Nat := 0x03
abbrev srcDevDry : Nat := 0x04
abbrev srcRailDry : Nat := 0x05
abbrev srcRail : Nat := 0x10
abbrev srcStitch : Nat := 0x20

/-- CFG_STAT.QUEUE (R256). -/
def Dev.showQueue (d : Dev) : Dev := d.setF CFG_STAT_QUEUE 0 (min 15 d.cfg.queue.length)

/-- A request of a source enters the queue; a source that waits already keeps its request (R245). -/
def Dev.request (d : Dev) (src plane rail : Nat) : Dev :=
  if d.cfg.queue.contains src then d else
  (d.modCfg fun c => { c with queue := c.queue ++ [src], qPlane := c.qPlane ++ [(src, plane, rail)] }).showQueue

/-- Remove a source's request. -/
def Dev.unrequest (d : Dev) (src : Nat) : Dev :=
  (d.modCfg fun c =>
    { c with queue := c.queue.filter (· != src), qPlane := c.qPlane.filter fun q => q.1 != src }).showQueue

/-- The rank of a source in the order of R245. -/
def srcRank (src : Nat) : Nat :=
  if src = srcDevSwap then 0
  else if src = srcRailSwap then 1
  else if src = srcFabric then 2
  else if src = srcDevDry then 0x40
  else if src = srcRailDry then 0x41
  else src

/-- The request that starts next (R245). -/
def Dev.nextRequest (d : Dev) : Option Nat :=
  d.cfg.queue.foldl (fun b x => match b with
    | none => some x
    | some y => if srcRank x < srcRank y then some x else some y) none

/-- The result of a check is shown (R246): reason, source, section, detail, the counts and flags. -/
def Dev.showCheck (d : Dev) (src reason sect detail : Nat) : Dev :=
  let d := d.setR CFG_GSTAT 0 (reason % 256 + src % 256 * 2 ^ 8 + sect % 128 * 2 ^ 16 + detail % 256 * 2 ^ 24)
  let d := if reason = 0 then (d.inc CFG_GCOUNT_ACCEPTS).raise CFG_FLAGS_ACCEPTED
    else (d.inc CFG_GCOUNT_REFUSALS).raise CFG_FLAGS_REFUSED
  d.raiseIf (src == srcDevDry || src == srcRailDry) CFG_FLAGS_CHECK_DONE

/-- FABRIC_ENABLE (R244, R256): a write of 1 to FABRIC_EN with DEV_SEL; while FABRIC_EN reads 1 it makes no request. -/
def Dev.askFabric (d : Dev) (sel : Nat) : Dev :=
  if d.b CFG_CTRL_FABRIC_EN then d else
  ((d.setF CFG_CTRL_DEV_SEL 0 sel).request srcFabric sel 0).modCfg fun c => { c with fabAt := d.now }

def execFabricEnable (sel : Fin 2) (s : State) : Outcome := s.onDev fun d =>
  d.storeTo CFG_CTRL 0 fun d => d.askFabric sel

/-- A swap request (R249). -/
def execDeviceSwap (plane : Fin 2) (s : State) : Outcome := s.onDev fun d =>
  d.storeTo CFG_SWAP 0 fun d => d.request srcDevSwap plane 0

def execRailSwap (n : Fin 8) (plane : Fin 2) (s : State) : Outcome := s.onDev fun d =>
  d.storeTo CFG_SWAP 0 fun d => d.request srcRailSwap plane n

/-- A dry-run request (R247): while the fabric domain is stopped it is refused at once. -/
def Dev.askDry (d : Dev) (src plane rail : Nat) : Dev :=
  if d.fabricStopped then d.showCheck src 0xFB 0x40 src else d.request src plane rail

def execDeviceDryRun (plane : Fin 2) (s : State) : Outcome := s.onDev fun d =>
  d.storeTo CFG_CHECK 0 fun d => d.askDry srcDevDry plane 0

def execRailDryRun (n : Fin 8) (plane : Fin 2) (s : State) : Outcome := s.onDev fun d =>
  d.storeTo CFG_CHECK 0 fun d => d.askDry srcRailDry plane n

/-- RAIL_ENABLE (R84, R244): while ENABLED is 1 the write makes no request. -/
def Dev.askRail (d : Dev) (n : Nat) : Dev :=
  if d.b RAIL_STAT_ENABLED n then d else d.request (srcRail + n) 0 n

def execRailEnable (n : Fin 8) (s : State) : Outcome := s.onDev fun d =>
  d.storeTo RAIL_CTRL n fun d => d.askRail n

end Sys2Proof.Machine
end

