-- ==== Sys2Proof/Machine/Stitch.lean ====
section
/-! DEFINITION. The stitch engines: words and reserved encodings, start groups, stop, the tick of an instruction, the
handshake with software, injection and program changes (R470-R485). -/
namespace Sys2Proof.Machine

/-! ### Instruction words (R477, R478) -/

/-- STITCHe_STAT.STATE codes. -/
abbrev enStopped : Nat := 0
abbrev enStarting : Nat := 1
abbrev enRunning : Nat := 2
abbrev enWaiting : Nat := 3
abbrev enStalled : Nat := 4
abbrev enHalted : Nat := 5

/-- A reserved encoding (R477, R478): an operation code from 0x11 up, a field the table gives as 0 that is not, or a
reserved value. -/
def stitchReserved (w : Nat) : Bool :=
  let f := w % 2 ^ 11
  match w / 2 ^ 11 % 32 with
  | 0x00 =>
    let cond := bits f 8 3
    if cond = 3 || cond = 4 then false
    else if cond = 7 then bit f 7
    else bits f 5 3 != 0
  | 0x01 => bits f 5 5 != 0
  | 0x02 => bits f 0 7 != 0
  | 0x03 => bits f 0 7 != 0
  | 0x04 => bits f 0 7 != 0
  | 0x05 => false
  | 0x06 => bits f 0 4 != 0
  | 0x07 => bits f 0 4 != 0
  | 0x08 => bits f 0 6 != 0
  | 0x09 => bits f 8 2 != 0
  | 0x0A => false
  | 0x0B => bits f 8 3 == 7 || bits f 5 3 ≥ 6 || bits f 3 2 == 3 || bits f 0 3 != 0
  | 0x0C =>
    let sub := bits f 7 4
    sub ≥ 6 || bits f 2 5 != 0 || (sub != 2 && sub != 3 && bits f 0 2 != 0)
  | 0x0D => false
  | 0x0E => false
  | 0x0F => bits f 0 10 != 0
  | 0x10 => f != 0
  | _ => true

/-- The word of an operation code and its operand bits. -/
def stWord (op f : Nat) : Nat := op * 2 ^ 11 + f

/-! ### Engines -/

def Dev.eng (d : Dev) (e : Nat) : EngSt := d.stitch.engs.getD e {}
def Dev.modStitch (d : Dev) (f : StitchSt → StitchSt) : Dev := { d with stitch := f d.stitch }
def Dev.modEng (d : Dev) (e : Nat) (f : EngSt → EngSt) : Dev :=
  d.modStitch fun s => { s with engs := s.engs.setIfInBounds e (f (d.eng e)) }
def Dev.engState (d : Dev) (e : Nat) : Nat := d.f STITCHe_STAT_STATE e
def Dev.setEngState (d : Dev) (e s : Nat) : Dev := d.setF STITCHe_STAT_STATE e s

/-- RUNNING, WAITING, STALLED or HALTED. -/
def Dev.engRuns (d : Dev) (e : Nat) : Bool := d.engState e ≥ enRunning

/-- STITCH_STAT follows the engines' states (R487). -/
def Dev.showStitch (d : Dev) : Dev :=
  let run := (List.range 8).foldl (fun v e => v + b2n (d.engRuns e) * 2 ^ e) 0
  let pend := (List.range 8).foldl (fun v e => v + b2n (d.engState e == enStarting) * 2 ^ e) 0
  d.setR STITCH_STAT 0 (run + pend * 2 ^ 8)

/-- STITCH_CTRL.EXPERT: some instruction memory differs from the words copied at its engine's start (R487). -/
def Dev.showStitchExpert (d : Dev) : Dev :=
  d.setB STITCH_CTRL_EXPERT 0 ((List.range 8).any fun e =>
    (List.range 32).any fun w => d.r2 STITCHe_IMEMw e w != (d.eng e).prog.getD w 0)

/-- The eight bits of a mask as engine numbers. -/
def maskList (v : Nat) : List Nat := (List.range 8).filter fun e => bit v e

/-- Publish SIN (R480). -/
def Dev.publish (d : Dev) (e : Nat) : Dev := (d.setB STITCHe_STAT_IFULL e true).raise STITCHe_FLAGS_IFULL e

/-! ### Start and stop (R470, R474-R476) -/

/-- The cycles from one tick of engine `e` to the next (R473). -/
def Dev.tickLen (d : Dev) (e : Nat) : Nat := max 1 (d.r STITCHe_CLKDIV e)

/-- The cycle of the latest tick given to engine `e`, which has one since its start. -/
def Dev.thisTick (d : Dev) (e : Nat) : Nat := (d.eng e).tickAt - d.tickLen e

/-- Ticks of engine `e` have passed that no command gave it: the samples taken at them are not known. -/
def Dev.ticksUnseen (d : Dev) (e : Nat) : Bool := d.engRuns e && decide ((d.eng e).tickAt < d.now)

/-- The next tick of engine `e` after a clock restart in this cycle (R475): it falls in this cycle, but where the tick of
this cycle, or a later one, was given already; then it is the next after that on the restarted divider's grid. -/
def Dev.restartAt (d : Dev) (e : Nat) : Nat :=
  let last := d.thisTick e
  if (d.eng e).seen = 1 && decide (d.now ≤ last) && decide (d.now < (d.eng e).tickAt) then
    d.now + d.tickLen e * ((last - d.now) / d.tickLen e + 1)
  else d.now

/-- The clock restart of the engines in `mask` (R475). -/
def Dev.clockRestart (d : Dev) (mask : Nat) : Dev :=
  d.each (maskList mask) fun e d =>
    if d.engRuns e then
      d.modEng e fun x => { x with tickAt := d.restartAt e, seen := if d.ticksUnseen e then 2 else x.seen }
    else d

/-- A start group is requested (R474): its engines become STARTING and wait for the girth check. An engine whose request
waits already is left out (R245). DESIGN CHOICE (log 77): where that leaves none, there is no group, and a restart that the
same write holds acts at once (R475). -/
def Dev.askStitch (d : Dev) (mask restart : Nat) : Dev :=
  let es := (maskList mask).filter fun e => !d.cfg.queue.contains (srcStitch + e)
  if es.isEmpty then d.clockRestart restart else
  let d := d.each es fun e d => if d.engRuns e then d else d.setEngState e enStarting
  let members := es.foldl (fun v e => v + 2 ^ e) 0
  let d := d.setR STITCH_GRPRES 0 members
  let d := d.modStitch fun s =>
    { s with asked := s.asked + 1
             groups := s.groups ++ [{ no := s.asked + 1, members := members, todo := es, restart := restart }] }
  (d.each es fun e d => d.request (srcStitch + e) 0 e).showStitch

/-- The engines of a group that does not start return to STOPPED. -/
def Dev.dropGroup (d : Dev) (g : StartGrp) : Dev :=
  (d.each (maskList g.members) fun e d => if d.engState e = enStarting then d.setEngState e enStopped else d).showStitch

/-- Group `g` is the latest: STITCH_GRPRES shows it (R487). -/
def Dev.latestGroup (d : Dev) (g : StartGrp) : Bool := g.no == d.stitch.asked

/-- The girth check has decided the request of engine `e` (R474): with the last decision a group that holds a refused
engine ends, and CFG_GSTAT shows the refusal, also where the check of a later engine of the group was accepted. -/
def Dev.stitchChecked (d : Dev) (e : Nat) (ok : Bool) : Dev :=
  match d.stitch.groups.find? fun g => g.todo.contains e with
  | none => d
  | some g =>
    let g' := { g with todo := g.todo.filter (· != e)
                       bad := if ok then g.bad else putBits g.bad e 1 1
                       stat := if ok then g.stat else d.r CFG_GSTAT }
    let d := if ok || !d.latestGroup g then d
      else d.setF STITCH_GRPRES_REFUSED 0 (putBits (d.f STITCH_GRPRES_REFUSED) e 1 1)
    if g'.todo.isEmpty && g'.bad != 0 then
      ((d.setR CFG_GSTAT 0 g'.stat).modStitch fun s => { s with groups := s.groups.filter (· != g) }).dropGroup g'
    else d.modStitch fun s => { s with groups := s.groups.map fun x => if x = g then g' else x }

/-- Engine `e` starts (R470, R474): its section's program, group and divider are copied and its state is cleared; its first
tick falls in this cycle. -/
def Dev.engStart (d : Dev) (m : Mem) (e : Nat) : Dev :=
  let p := d.f CFG_STAT_DEV_PLANE
  match findSec (dirList m p) 6 e with
  | none => d
  | some x =>
    let nw := min (pByte m p (x.off + 4)) 32
    let prog := (List.range 32).map fun w => if w < nw then pLe m p (x.off + 8 + 2 * w) 2 else 0
    let d := d.each (List.range 32) fun w d => d.setR2 STITCHe_IMEMw e w (prog.getD w 0)
    let d := d.setR STITCHe_GROUP e (pByte m p x.off % 64 + pByte m p (x.off + 1) % 16 * 2 ^ 8 + nw * 2 ^ 16)
    let d := d.setR STITCHe_CLKDIV e (pLe m p (x.off + 2) 2)
    let d := d.setR STITCHe_STAT e enRunning |>.setR STITCHe_SOUT e 0 |>.setR STITCHe_SIN e 0 |>.setR STITCHe_CNT e 0
    let d := d.setR STITCHe_CTR e 0 |>.setR STITCHe_PINS e (d.f STITCHe_PINS_IN e) |>.setR STITCHe_SHCFG e 0
    let d := d.setR STITCHe_CUR e 0 |>.setR STITCHe_HSSET e 0 |>.setR STITCHe_HSCLR e 0
    let d := d.modEng e fun _ => { prog := prog, tickAt := d.now }
    d.setF STITCH_EN_EN 0 (putBits (d.f STITCH_EN_EN) e 1 1)

/-- STITCH_GROUP_START (R474): the oldest group whose checks were all accepted starts in this cycle; in SAFE every engine
stays stopped (R34). -/
def Dev.groupStart (d : Dev) (m : Mem) : Dev :=
  if d.modeNow = modeSafe then d else
  match d.stitch.groups.find? fun g => g.todo.isEmpty && g.bad == 0 with
  | none => d
  | some g =>
    let d := d.modStitch fun s => { s with groups := s.groups.filter (· != g) }
    let d := d.each (maskList g.members) fun e d => d.engStart m e
    let d := if d.latestGroup g then d.setB STITCH_GRPRES_STARTED 0 true else d
    (d.clockRestart g.restart).showStitch.showStitchExpert

/-- What a history holds that reaches back to cycle `c`. -/
def histFrom (c : Nat) : List (Nat × Nat × Nat) → List (Nat × Nat × Nat)
  | [] => []
  | x :: t => if x.1 ≤ c then [x] else x :: histFrom c t

/-- What engine `e` drives from cycle `t` on, noted where it differs from what it drove before. Entries older than a
synchroniser of 2 CCLK cycles can look back at are dropped (R528). -/
def Dev.histNote (d : Dev) (e t : Nat) : Dev :=
  let v := (d.f STITCHe_PINS_LATCH e, d.f STITCHe_PINS_DIRS e)
  let h := (d.eng e).hist.filter fun x => x.1 < t
  d.modEng e fun x => { x with hist := if drivenAt t 0 h = v then h else (t, v) :: histFrom (d.now - 20) h }

/-- Pin `p` of engine `e`'s group at the tick in cycle `t`, where the engine itself has driven it long enough (R472): the
level that the ticks up to 5 cycles before left on it, unless the tick 4 cycles before changed it. DEDUCED (log 77): a level
driven at a tick is at the ball in the next cycle and the pad delay later (R550: 1.2 to 3.8 ns), and seen by the first
tick at least 5 ns after that. -/
def Dev.ownLevel (d : Dev) (e t p : Nat) : Option Bool :=
  let h := (d.eng e).hist
  let (v, w) := (drivenAt t 5 h, drivenAt t 4 h)
  if bit v.2 p && bit w.2 p && bit v.1 p == bit w.1 p then some (bit v.1 p) else none

/-- The samples at the tick in cycle `t`: of a pin that the engine drives, its own level; of the others, and of those whose
drive is only just changing, `x`. A pin beyond the group reads 0 (R471, R472). -/
def Dev.sampleAt (d : Dev) (e t x : Nat) : Nat :=
  (List.range (min 8 (d.f STITCHe_GROUP_PINCOUNT e))).foldl (fun v p =>
    v + b2n ((d.ownLevel e t p).getD (bit x p)) * 2 ^ p) 0

/-- STITCHe_PINS.IN takes a sample that no command gave: the latest of those ticks' samples is free (R472, R487). -/
def Dev.samplePins (d : Dev) (e : Nat) : Dev :=
  if !d.ticksUnseen e then d else
  let (x, d) := d.fresh 8
  d.setF STITCHe_PINS_IN e (x % 2 ^ d.f STITCHe_GROUP_PINCOUNT e)

/-- Engine `e` stops (R476): the instruction in progress is abandoned and every group pin becomes an input. -/
def Dev.engStop (d : Dev) (e : Nat) : Dev :=
  if !d.engRuns e then d else
  let d := d.samplePins e
  let d := d.setEngState e enStopped |>.setF STITCHe_PINS_DIRS e 0 |>.raise STITCHe_FLAGS_STOPPED e
  let d := d.setB STITCHe_STAT_INJ_PEND e false |>.setB STITCHe_STAT_INJ_RUN e false
  let d := d.setF STITCH_EN_EN 0 (putBits (d.f STITCH_EN_EN) e 1 0)
  ((d.modEng e fun x => { x with busy := false, low := false, inj := none, left := 0 }).histNote e d.now).showStitch

/-- STITCH_STOP (R476): a write of 0 to the bit of a running engine stops it; to that of an engine whose group is being
checked, it withdraws every such group; to that of an engine which is both, it does both. -/
def Dev.stitchOff (d : Dev) (e : Nat) : Dev :=
  let gone := d.stitch.groups.filter fun g => bit g.members e
  let d := d.each gone fun g d =>
    let d := d.modStitch fun s => { s with groups := s.groups.filter (· != g) }
    let d := d.each (maskList g.members) fun e d => d.unrequest (srcStitch + e)
    (if d.latestGroup g then d.setB STITCH_GRPRES_WITHDRAWN 0 true else d).dropGroup g
  d.engStop e

/-- Every engine stops (R248, R476). -/
def Dev.stitchStopAll (d : Dev) : Dev := d.each (List.range 8) fun e d => d.stitchOff e

/-! ### Injection and software access (R481-R484) -/

/-- A write of STITCHe_SOUT (R481). -/
def Dev.soutWrite (d : Dev) (e v : Nat) : Dev :=
  if d.b STITCHe_STAT_OFULL e then d.raise STITCHe_FLAGS_OUT_REJ e
  else d.setR STITCHe_SOUT e v |>.setF STITCHe_CNT_OCNT e 32 |>.setB STITCHe_STAT_OFULL e true

/-- A read of STITCHe_SIN (R481). -/
def Dev.sinRead (d : Dev) (e : Nat) : Dev :=
  let d := d.answer (d.r STITCHe_SIN e)
  if d.b STITCHe_STAT_IFULL e then
    d.setR STITCHe_SIN e 0 |>.setF STITCHe_CNT_ICNT e 0 |>.setB STITCHe_STAT_IFULL e false
  else d

/-- STITCHe_HSSET and STITCHe_HSCLR show F0 to F3. -/
def Dev.setFlags4 (d : Dev) (e v : Nat) : Dev :=
  (d.modEng e fun x => { x with fl := v % 16 }).setR STITCHe_HSSET e (v % 16) |>.setR STITCHe_HSCLR e (v % 16)

/-- The handshake flags set in cycle `c`: no clear in that cycle takes them away (R482). -/
def Dev.hsKept (d : Dev) (e c : Nat) : Nat := if (d.eng e).setAt = c then (d.eng e).setFl else 0

/-- Set handshake flags (R482). -/
def Dev.hsSet (d : Dev) (e mask : Nat) : Dev :=
  (d.modEng e fun x => { x with setAt := d.now, setFl := d.hsKept e d.now ||| mask % 16 }).setFlags4 e
    ((d.eng e).fl ||| mask % 16)

/-- Clear handshake flags in cycle `c` (R482): of a set and a clear of one flag in one cycle, the set wins. -/
def Dev.hsClr (d : Dev) (e mask c : Nat) : Dev :=
  d.setFlags4 e ((d.eng e).fl &&& (15 - mask % 16 ||| d.hsKept e c))

/-- A write of STITCHe_INJECT (R483). -/
def Dev.inject (d : Dev) (e v : Nat) : Dev :=
  if !d.engRuns e || d.b STITCHe_STAT_INJ_PEND e || d.b STITCHe_STAT_INJ_RUN e || stitchReserved (v % 2 ^ 16) then
    d.raise STITCHe_FLAGS_INJ_REJ e
  else (d.modEng e fun x => { x with inj := some (v % 2 ^ 16, bit v 16) }).setB STITCHe_STAT_INJ_PEND e true

/-- A write of an instruction word (R484). -/
def Dev.imemWrite (d : Dev) (e w v : Nat) : Dev :=
  if stitchReserved (v % 2 ^ 16) then d.raise STITCHe_FLAGS_WR_REJ e
  else (d.setR2 STITCHe_IMEMw e w (v % 2 ^ 16)).showStitchExpert

/-! ### One instruction (R473, R483, R484) -/

/-- A new instruction `w` begins: it is held in STITCHe_CUR, `inj` is true of an injected one. `first` sets what the
instruction counts down. -/
def Dev.engTake (d : Dev) (e w : Nat) (inj : Bool) (first : Dev → Dev) : Dev :=
  let pc := d.f STITCHe_STAT_PC e
  let d := d.setR STITCHe_CUR e (w % 2 ^ 16 + pc * 2 ^ 16 + b2n inj * 2 ^ 21)
  let d := if inj then d.setB STITCHe_STAT_INJ_PEND e false |>.setB STITCHe_STAT_INJ_RUN e true
    else d.setF STITCHe_STAT_PC e (pc + 1)
  let d := d.modEng e fun x => { x with busy := true, low := false, left := 0, inj := if inj then none else x.inj }
  first ((d.setF STITCHe_CNT_RC e 0).setEngState e enRunning)

/-- What engine `e` runs at its next tick, given that the command names word `w`: it goes on with the instruction in
progress, begins the injected one, or fetches at PC. None where that word is not the one it runs. -/
def Dev.engBegin (d : Dev) (e w : Nat) (first : Dev → Dev) : Option Dev :=
  let x := d.eng e
  if !d.engRuns e || stitchReserved w then none else
  match x.inj with
  | some (iw, force) =>
    if x.busy && !force then (if d.f STITCHe_CUR_WORD e = w then some d else none)
    else if iw = w then some (d.engTake e w true first) else none
  | none =>
    if x.busy then (if d.f STITCHe_CUR_WORD e = w then some d else none)
    else if d.engState e = enHalted then none
    else if d.r2 STITCHe_IMEMw e (d.f STITCHe_STAT_PC e) = w then some (d.engTake e w false first) else none

/-- The instruction in progress completes (R483): fetching goes on at PC, or the engine is HALTED. -/
def Dev.engDone (d : Dev) (e : Nat) (halt : Bool) : Dev :=
  let d := if d.b STITCHe_STAT_INJ_RUN e then (d.setB STITCHe_STAT_INJ_RUN e false).raise STITCHe_FLAGS_INJ_DONE e else d
  let d := d.setEngState e (if halt then enHalted else enRunning)
  d.modEng e fun x => { x with busy := false, low := false, left := 0 }

/-- A tick of engine `e` falls in this cycle: none has been given for it, and its divider stands at 0 (R473). -/
def Dev.tickNow (d : Dev) (e : Nat) : Bool := (d.eng e).tickAt ≤ d.now && (d.now - (d.eng e).tickAt) % d.tickLen e == 0

/-- The sample of the tick before, at a tick in this cycle whose own sample is `x` (R477): STITCHe_PINS.IN where that tick was
given; free where ticks have passed that were not. DEDUCED (log 77): at an engine's first tick there is none, and nothing
completes on the level alone, so `x` itself. -/
def Dev.prevSample (d : Dev) (e x : Nat) : Nat × Dev :=
  if (d.eng e).tickAt < d.now || (d.eng e).seen = 2 then d.fresh 8
  else (if (d.eng e).seen = 0 then x else d.f STITCHe_PINS_IN e, d)

/-- The ticks of an instruction: `body prev now` is one tick with the pin samples of the previous tick and of this one, and
says whether the instruction completes in it. Each moves the engine's next tick on. DESIGN CHOICE (log 77): the row's
samples are the levels at the balls 2 cycles before each tick (R472), of pins that the engine does not drive itself. -/
def Dev.engTicks (d : Dev) (e : Nat) (halt : Bool) (body : Nat → Nat → Dev → Dev × Bool) : Nat → List Nat → Dev
  | _, [] => d
  | prev, x :: l =>
    let t := (d.eng e).tickAt
    let x := d.sampleAt e t x
    let r := body prev x ((d.setF STITCHe_PINS_IN e x).modEng e fun y =>
      { y with tickAt := t + d.tickLen e, seen := 1 })
    let d := r.1.histNote e t
    if r.2 then d.engDone e halt else Dev.engTicks d e halt body x l

/-- Run word `w` on engine `e` for the ticks whose pin samples are `ins`, the first of which falls in this cycle. -/
def Dev.engRun (d : Dev) (e w : Nat) (ins : List (BitVec 8)) (first : Dev → Dev) (body : Nat → Nat → Dev → Dev × Bool)
    (halt : Bool := false) : Dev :=
  if ins.isEmpty || !d.tickNow e then d else
  match d.engBegin e w first with
  | none => d
  | some d' =>
    let ins := ins.map (·.toNat)
    let (prev, d') := d'.prevSample e (d.sampleAt e d.now (ins.headD 0))
    (d'.modEng e fun x => { x with tickAt := d.now }).engTicks e halt body prev ins

/-- A counter (R470). -/
def Dev.ctr (d : Dev) (e c : Nat) : Nat := if c = 0 then d.f STITCHe_CTR_C0 e else d.f STITCHe_CTR_C1 e
def Dev.setCtr (d : Dev) (e c v : Nat) : Dev :=
  if c = 0 then d.setF STITCHe_CTR_C0 e v else d.setF STITCHe_CTR_C1 e v

/-- A stalled step: STALLED, with FLAGS.STALL on entry (R480). -/
def Dev.stall (d : Dev) (e : Nat) : Dev × Bool :=
  ((d.raiseIf (d.engState e != enStalled) STITCHe_FLAGS_STALL e).setEngState e enStalled, false)

/-- The instruction waits. -/
def Dev.waits (d : Dev) (e : Nat) : Dev × Bool := (d.setEngState e enWaiting, false)

/-- An edge into level `pol` (WAITE). -/
def edgeTo (pol : Bool) (p prev now : Nat) : Bool := bit now p == pol && bit prev p != pol

/-- Drive pin index `p` of the group to a level: its LATCH bit; no effect at or above PINCOUNT (R471). -/
def Dev.latch (d : Dev) (e p : Nat) (v : Bool) : Dev :=
  if p < d.f STITCHe_GROUP_PINCOUNT e then d.setF STITCHe_PINS_LATCH e (putBits (d.f STITCHe_PINS_LATCH e) p 1 (b2n v))
  else d

/-- Set a pin's output enable. -/
def Dev.dirs (d : Dev) (e p : Nat) (v : Bool) : Dev :=
  if p < d.f STITCHe_GROUP_PINCOUNT e then d.setF STITCHe_PINS_DIRS e (putBits (d.f STITCHe_PINS_DIRS e) p 1 (b2n v))
  else d

/-- The shift configuration (R478, R487). -/
def Dev.outBase (d : Dev) (e : Nat) : Nat := bits (d.f STITCHe_SHCFG_FIELDS e) 8 3
def Dev.inBase (d : Dev) (e : Nat) : Nat := bits (d.f STITCHe_SHCFG_FIELDS e) 5 3
def Dev.shWidth (d : Dev) (e : Nat) : Nat := 2 ^ bits (d.f STITCHe_SHCFG_FIELDS e) 3 2
def Dev.shClk (d : Dev) (e : Nat) : Nat := bits (d.f STITCHe_SHCFG_FIELDS e) 0 3

/-- The data part of an SHO step (R479, R480). -/
def Dev.shoStep (d : Dev) (e : Nat) : Dev :=
  let w := d.shWidth e
  let v := d.r STITCHe_SOUT e
  let lsb := d.b STITCHe_SHCFG_ORDER e
  let b := if lsb then v % 2 ^ w else v / 2 ^ (32 - w)
  let d := d.each (List.range w) fun j d => d.latch e (d.outBase e + j) (bit b j)
  let d := d.setR STITCHe_SOUT e (if lsb then v / 2 ^ w else v * 2 ^ w % 2 ^ 32)
  let left := d.f STITCHe_CNT_OCNT e - w
  let d := d.setF STITCHe_CNT_OCNT e left
  if left = 0 then (d.setB STITCHe_STAT_OFULL e false).raise STITCHe_FLAGS_OEMPTY e else d

/-- The data part of an SHI step (R479, R480). -/
def Dev.shiStep (d : Dev) (e now : Nat) : Dev :=
  let w := d.shWidth e
  let b := now / 2 ^ d.inBase e % 2 ^ w
  let v := d.r STITCHe_SIN e
  let d := d.setR STITCHe_SIN e
    (if d.b STITCHe_SHCFG_ORDER e then v / 2 ^ w + b * 2 ^ (32 - w) else v * 2 ^ w % 2 ^ 32 + b)
  let n := min 32 (d.f STITCHe_CNT_ICNT e + w)
  let d := d.setF STITCHe_CNT_ICNT e n
  if n = 32 then d.publish e else d

/-- RC falls by one; the instruction completes when no step is left. -/
def Dev.stepDone (d : Dev) (e : Nat) : Dev × Bool :=
  let rc := d.f STITCHe_CNT_RC e - 1
  ((d.setF STITCHe_CNT_RC e rc).setEngState e enRunning, rc == 0)

/-- One tick of SHO (`out`) or SHI in clock mode `cm` (R479, R480). -/
def Dev.shiftTick (d : Dev) (e cm : Nat) (out : Bool) (prev now : Nat) : Dev × Bool :=
  let need := if out then d.b STITCHe_STAT_OFULL e else !d.b STITCHe_STAT_IFULL e
  let step := fun (d : Dev) => if out then d.shoStep e else d.shiStep e now
  if cm = 3 && (d.eng e).low then
    let d := d.latch e (d.shClk e) true
    let d := if out then d else step d
    (d.modEng e fun x => { x with low := false }).stepDone e
  else if !need then d.stall e
  else if cm = 0 then (step d).stepDone e
  else if cm = 3 then
    let d := d.latch e (d.shClk e) false
    let d := if out then step d else d
    ((d.modEng e fun x => { x with low := true }).setEngState e enRunning, false)
  else if edgeTo (cm == 1) (d.shClk e) prev now then (step d).stepDone e
  else d.waits e

/-- FN of XFER (R478): `half` is true of a 16-bit source. -/
def xferFn (fn : Nat) (half : Bool) (v : Nat) : Nat :=
  if fn = 0 then v
  else if half then bits v 0 8 * 2 ^ 8 + bits v 8 8
  else if fn = 1 then bits v 0 16 * 2 ^ 16 + bits v 16 16
  else bits v 0 8 * 2 ^ 24 + bits v 8 8 * 2 ^ 16 + bits v 16 8 * 2 ^ 8 + bits v 24 8

/-- The source of XFER (R478). -/
def Dev.xferSrc (d : Dev) (e src now : Nat) : Nat :=
  match src with
  | 0 => d.ctr e 0
  | 1 => d.ctr e 1
  | 2 => d.r STITCHe_SIN e
  | 3 => d.r STITCHe_SOUT e
  | 4 => now
  | _ => 0

/-- One tick of XFER (R478, R480). -/
def Dev.xferTick (d : Dev) (e dst src fn now : Nat) : Dev × Bool :=
  let v := xferFn fn (src ≤ 1) (d.xferSrc e src now)
  match dst with
  | 0 => (d.setCtr e 0 v, true)
  | 1 => (d.setCtr e 1 v, true)
  | 2 =>
    if d.b STITCHe_STAT_IFULL e then d.stall e
    else ((d.setR STITCHe_SIN e v |>.setF STITCHe_CNT_ICNT e 32).publish e, true)
  | 3 =>
    if d.b STITCHe_STAT_OFULL e then d.stall e
    else (d.setR STITCHe_SOUT e v |>.setF STITCHe_CNT_OCNT e 32 |>.setB STITCHe_STAT_OFULL e true, true)
  | 4 => (d.setF STITCHe_PINS_LATCH e v, true)
  | 5 => (d.setF STITCHe_PINS_DIRS e v, true)
  | _ => (d.setF STITCHe_STAT_PC e v, true)

/-- The condition of BRA (R477). -/
def Dev.braHolds (d : Dev) (e cond arg now : Nat) : Bool :=
  match cond with
  | 0 => true
  | 1 => d.ctr e 0 != 0
  | 2 => d.ctr e 1 != 0
  | 3 => bit now arg
  | 4 => !bit now arg
  | 5 => !d.b STITCHe_STAT_OFULL e
  | 6 => d.b STITCHe_STAT_IFULL e
  | _ => bit (d.eng e).fl (arg % 4)

/-- POST or RELAY at the tick in this cycle hands over a token or a `frame`, delivered two cycles later (R485). -/
def Dev.hand (d : Dev) (e : Nat) (frame : Bool) (v : Nat) : Dev :=
  { d with hm := { d.hm with handed := d.hm.handed ++ [⟨tadd (d.r HM_TIME) 2, e, frame, v⟩] } }

/-- What was handed over two cycles ago is delivered (R485): a token carries this cycle's HM_TIME (R123), and this cycle is
the TE of a frame, which is taken only while RELAY_EN is 1 (R113). -/
def Dev.handedDue (d : Dev) : Dev :=
  let (now, wait) := d.hm.handed.partition fun x => d.due x.at_
  if now.isEmpty then d else
  ({ d with hm := { d.hm with handed := wait } }).each now fun x d =>
    if !x.frame then d.tokenPosted x.engine x.val
    else if d.b HM_CTRL_RELAY_EN then d.relayFrame x.val
    else d.raise STITCHe_FLAGS_RELAY_DROP x.engine

/-! ### The rows -/

/-- STITCH_START (R474): the bits of `mask` that read 0 request a start group. -/
def execStitchStart (mask : BitVec 8) (s : State) : Outcome := s.onDev fun d =>
  d.storeTo STITCH_EN 0 fun d => d.askStitch (mask.toNat &&& (255 - d.f STITCH_EN_EN)) 0

/-- STITCH_SYNC_START (R474, R475): with an empty START mask the restart acts now. -/
def execStitchSyncStart (mask restart : BitVec 8) (s : State) : Outcome := s.onDev fun d =>
  d.storeTo STITCH_SYNC 0 fun d =>
    d.askStitch mask.toNat restart.toNat

def execStitchGroupStart (s : State) : Outcome := s.onFabric fun d => d.groupStart s.mem

def execStitchStop (e : Fin 8) (s : State) : Outcome := s.onDev fun d =>
  d.storeTo STITCH_EN 0 fun d => d.stitchOff e

def execStitchClockRestart (mask : BitVec 8) (s : State) : Outcome := s.onDev fun d =>
  d.storeTo STITCH_SYNC 0 fun d => d.clockRestart mask.toNat

/-- BRA. -/
def execBra (e cond arg : Fin 8) (target : Fin 32) (ins : List (BitVec 8)) (s : State) : Outcome := s.onFabric fun d =>
  d.engRun e (stWord 0x00 (cond * 2 ^ 8 + arg * 2 ^ 5 + target)) ins id fun _ now d =>
    (if d.braHolds e cond arg now then d.setF STITCHe_STAT_PC e target else d, true)

/-- DBNZ. -/
def execDbnz (e : Fin 8) (c : Fin 2) (target : Fin 32) (ins : List (BitVec 8)) (s : State) : Outcome := s.onFabric fun d =>
  d.engRun e (stWord 0x01 (c * 2 ^ 10 + target)) ins id fun _ _ d =>
    let v := d.ctr e c
    let d := d.setCtr e c (v - 1)
    (if v > 1 then d.setF STITCHe_STAT_PC e target else d, true)

/-- WAITL. -/
def execWaitl (e : Fin 8) (pol : Bool) (pin : Fin 8) (ins : List (BitVec 8)) (s : State) : Outcome := s.onFabric fun d =>
  d.engRun e (stWord 0x02 (b2n pol * 2 ^ 10 + pin * 2 ^ 7)) ins id fun _ now d =>
    if bit now pin == pol then (d, true) else d.waits e

/-- WAITE. -/
def execWaite (e : Fin 8) (pol : Bool) (pin : Fin 8) (ins : List (BitVec 8)) (s : State) : Outcome := s.onFabric fun d =>
  d.engRun e (stWord 0x03 (b2n pol * 2 ^ 10 + pin * 2 ^ 7)) ins id fun prev now d =>
    if edgeTo pol pin prev now then (d, true) else d.waits e

/-- WAITF. -/
def execWaitf (e : Fin 8) (pol : Bool) (flag : Fin 4) (clr : Bool) (ins : List (BitVec 8)) (s : State) : Outcome :=
  s.onFabric fun d =>
    d.engRun e (stWord 0x04 (b2n pol * 2 ^ 10 + flag * 2 ^ 8 + b2n clr * 2 ^ 7)) ins id fun _ _ d =>
      if bit (d.eng e).fl flag == pol then (if clr && pol then d.hsClr e (2 ^ flag.val) (d.thisTick e) else d, true) else d.waits e

/-- WAITT: `n` is N - 1. -/
def execWaitt (e : Fin 8) (n : Fin 2048) (ins : List (BitVec 8)) (s : State) : Outcome := s.onFabric fun d =>
  d.engRun e (stWord 0x05 n) ins (fun d => d.modEng e fun x => { x with left := n + 1 }) fun _ _ d =>
    let k := (d.eng e).left - 1
    let d := d.modEng e fun x => { x with left := k }
    if k = 0 then (d, true) else d.waits e

/-- The number of steps of a shift. -/
def stepsOf (steps : Nat) : Nat := if steps = 0 then 32 else steps

/-- SHO. -/
def execSho (e : Fin 8) (cm : Fin 4) (steps : Fin 32) (ins : List (BitVec 8)) (s : State) : Outcome := s.onFabric fun d =>
  d.engRun e (stWord 0x06 (cm * 2 ^ 9 + steps * 2 ^ 4)) ins (fun d => d.setF STITCHe_CNT_RC e (stepsOf steps))
    fun prev now d => d.shiftTick e cm true prev now

/-- STITCH_SHI. -/
def execStitchShi (e : Fin 8) (cm : Fin 4) (steps : Fin 32) (ins : List (BitVec 8)) (s : State) : Outcome :=
  s.onFabric fun d =>
    d.engRun e (stWord 0x07 (cm * 2 ^ 9 + steps * 2 ^ 4)) ins (fun d => d.setF STITCHe_CNT_RC e (stepsOf steps))
      fun prev now d => d.shiftTick e cm false prev now

/-- PIN. -/
def execPin (e pin : Fin 8) (act : Fin 4) (ins : List (BitVec 8)) (s : State) : Outcome := s.onFabric fun d =>
  d.engRun e (stWord 0x08 (pin * 2 ^ 8 + act * 2 ^ 6)) ins id fun _ _ d =>
    (match act.val with
      | 0 => (d.latch e pin false).dirs e pin true
      | 1 => (d.latch e pin true).dirs e pin true
      | 2 => d.latch e pin !bit (d.f STITCHe_PINS_LATCH e) pin
      | _ => d.dirs e pin false, true)

/-- PSET. -/
def execPset (e : Fin 8) (dirs : Bool) (v : BitVec 8) (ins : List (BitVec 8)) (s : State) : Outcome := s.onFabric fun d =>
  d.engRun e (stWord 0x09 (b2n dirs * 2 ^ 10 + v.toNat)) ins id fun _ _ d =>
    (if dirs then d.setF STITCHe_PINS_DIRS e v.toNat else d.setF STITCHe_PINS_LATCH e v.toNat, true)

/-- LDC. -/
def execLdc (e : Fin 8) (c : Fin 2) (fill : Bool) (v : BitVec 9) (ins : List (BitVec 8)) (s : State) : Outcome :=
  s.onFabric fun d =>
    d.engRun e (stWord 0x0A (c * 2 ^ 10 + b2n fill * 2 ^ 9 + v.toNat)) ins id fun _ _ d =>
      (d.setCtr e c (v.toNat + if fill then 0xFE00 else 0), true)

/-- XFER. -/
def execXfer (e dst src : Fin 8) (fn : Fin 4) (ins : List (BitVec 8)) (s : State) : Outcome := s.onFabric fun d =>
  d.engRun e (stWord 0x0B (dst * 2 ^ 8 + src * 2 ^ 5 + fn * 2 ^ 3)) ins id fun _ now d => d.xferTick e dst src fn now

/-- CTL PUB. -/
def execPub (e : Fin 8) (ins : List (BitVec 8)) (s : State) : Outcome := s.onFabric fun d =>
  d.engRun e (stWord 0x0C 0) ins id fun _ _ d => if d.b STITCHe_STAT_IFULL e then d.stall e else (d.publish e, true)

/-- CTL EMPTY. -/
def execEmpty (e : Fin 8) (ins : List (BitVec 8)) (s : State) : Outcome := s.onFabric fun d =>
  d.engRun e (stWord 0x0C (1 * 2 ^ 7)) ins id fun _ _ d =>
    ((d.setF STITCHe_CNT_OCNT e 0 |>.setB STITCHe_STAT_OFULL e false).raise STITCHe_FLAGS_OEMPTY e, true)

/-- CTL SETF. -/
def execSetf (e : Fin 8) (fl : Fin 4) (ins : List (BitVec 8)) (s : State) : Outcome := s.onFabric fun d =>
  d.engRun e (stWord 0x0C (2 * 2 ^ 7 + fl)) ins id fun _ _ d => (d.hsSet e (2 ^ fl.val), true)

/-- CTL CLRF. -/
def execClrf (e : Fin 8) (fl : Fin 4) (ins : List (BitVec 8)) (s : State) : Outcome := s.onFabric fun d =>
  d.engRun e (stWord 0x0C (3 * 2 ^ 7 + fl)) ins id fun _ _ d => (d.hsClr e (2 ^ fl.val) (d.thisTick e), true)

/-- CTL EVT. -/
def execEvt (e : Fin 8) (ins : List (BitVec 8)) (s : State) : Outcome := s.onFabric fun d =>
  d.engRun e (stWord 0x0C (4 * 2 ^ 7)) ins id fun _ _ d => (d.raise STITCHe_FLAGS_EVT e, true)

/-- CTL HALT: PC names the word after it. -/
def execHalt (e : Fin 8) (ins : List (BitVec 8)) (s : State) : Outcome := s.onFabric fun d =>
  d.engRun e (stWord 0x0C (5 * 2 ^ 7)) ins id (fun _ _ d => (d.raise STITCHe_FLAGS_HALT e, true)) true

/-- The operand bits of SHCFG0 and SHCFG1. -/
def shcfgBits (outb inb width k : Nat) : Nat := outb * 2 ^ 8 + inb * 2 ^ 5 + width * 2 ^ 3 + k

/-- SHCFG0. -/
def execShcfg0 (e outb inb : Fin 8) (width : Fin 4) (k : Fin 8) (ins : List (BitVec 8)) (s : State) : Outcome :=
  s.onFabric fun d =>
    d.engRun e (stWord 0x0D (shcfgBits outb inb width k)) ins id fun _ _ d =>
      (d.setR STITCHe_SHCFG e (shcfgBits outb inb width k), true)

/-- SHCFG1. -/
def execShcfg1 (e outb inb : Fin 8) (width : Fin 4) (k : Fin 8) (ins : List (BitVec 8)) (s : State) : Outcome :=
  s.onFabric fun d =>
    d.engRun e (stWord 0x0E (shcfgBits outb inb width k)) ins id fun _ _ d =>
      (d.setR STITCHe_SHCFG e (shcfgBits outb inb width k + 2 ^ 11), true)

/-- POST (R485). -/
def execPost (e : Fin 8) (sin : Bool) (ins : List (BitVec 8)) (s : State) : Outcome := s.onFabric fun d =>
  d.engRun e (stWord 0x0F (b2n sin * 2 ^ 10)) ins id fun _ _ d =>
    (d.hand e false (if sin then d.r STITCHe_SIN e % 2 ^ 16 else d.ctr e 0), true)

/-- RELAY (R485, R113). -/
def execRelay (e : Fin 8) (ins : List (BitVec 8)) (s : State) : Outcome := s.onFabric fun d =>
  d.engRun e (stWord 0x10 0) ins id fun _ _ d =>
    (if d.b HM_CTRL_RELAY_EN then d.hand e true (d.ctr e 0 % 2 ^ 8 * 2 ^ 32 + d.r STITCHe_SIN e)
     else d.raise STITCHe_FLAGS_RELAY_DROP e, true)

def execStitchSoutWrite (e : Fin 8) (v : Word) (s : State) : Outcome := s.onDev fun d =>
  d.storeTo STITCHe_SOUT e fun d => d.soutWrite e v.toNat

def execStitchSinRead (e : Fin 8) (s : State) : Outcome := s.onDev fun d => d.sinRead e

def execStitchHsset (e : Fin 8) (mask : Fin 16) (s : State) : Outcome := s.onDev fun d =>
  d.storeTo STITCHe_HSSET e fun d => d.hsSet e mask

def execStitchHsclr (e : Fin 8) (mask : Fin 16) (s : State) : Outcome := s.onDev fun d =>
  d.storeTo STITCHe_HSCLR e fun d => d.hsClr e mask d.now

def execStitchInject (e : Fin 8) (v : Word) (s : State) : Outcome := s.onDev fun d =>
  d.storeTo STITCHe_INJECT e fun d => d.inject e v.toNat

def execStitchImemWrite (e : Fin 8) (w : Fin 32) (v : Word) (s : State) : Outcome := s.onDev fun d =>
  if d.modeNow = modeSafe then d.busFail synSafeLock
  else if !d.b STITCH_CTRL_EXPERT_UNLOCK then d.busOk
  else d.busOk.imemWrite e w v.toNat

end Sys2Proof.Machine
end

