-- ==== Sys2Proof/Machine/Safe.lean ====
section
/-! DEFINITION. The shutdown-cause record (R319) and the entry to SAFE (R301, R302). -/
namespace Sys2Proof.Machine

def Dev.modMode (d : Dev) (f : ModeSt → ModeSt) : Dev := { d with mode := f d.mode }
def Dev.modCpu (d : Dev) (f : CpuSt → CpuSt) : Dev := { d with cpu := f d.cpu }
def Dev.modSec (d : Dev) (f : SecSt → SecSt) : Dev := { d with sec := f d.sec }

/-- The core without an open window: AW and AWCNT 0, no bank held (R389, R391). A core that stops closes its window (DEDUCED
from R415, log 82). -/
def CoreSt.closed (x : CoreSt) : CoreSt :=
  { x with psr := BitVec.ofNat 32 (putBits x.psr.toNat 5 7 0), banks := 0 }

/-- A core that goes out of service. -/
def CoreSt.stopped (x : CoreSt) : CoreSt := { x.closed with run := false }

/-! ### Cause codes of R319 -/

abbrev ccBowVdd : Nat := 0x01
abbrev ccBowVddio : Nat := 0x04
abbrev ccPorFall : Nat := 0x05
abbrev ccResetN : Nat := 0x06
abbrev ccSwReset : Nat := 0x07
abbrev ccDebugReset : Nat := 0x08
abbrev ccSafeCmd : Nat := 0x09
abbrev ccWatchdog : Nat := 0x0A
abbrev ccHoldover : Nat := 0x0B
abbrev ccLockstep : Nat := 0x0C
abbrev ccTamper : Nat := 0x0D
abbrev ccBootFail : Nat := 0x0E
abbrev ccSafeReturn : Nat := 0x0F

/-- The rails that are ENABLED, bit n for rail n. -/
def Dev.enabledMask (d : Dev) : Nat :=
  (List.range 8).foldl (fun v n => v + b2n (d.b RAIL_STAT_ENABLED n) * 2 ^ n) 0

/-- A debug halt begins or ends: the watchdog resumes from 0 after it (R325). -/
def Dev.debugStep (d : Dev) (halt : Bool) : Dev :=
  if halt || d.cpu.a.debug || d.cpu.b.debug then d.modMode fun m => { m with wdog := 0 } else d

/-- Any rail is ENABLED. -/
def Dev.anyEnabled (d : Dev) : Bool := (List.range 8).any fun n => d.b RAIL_STAT_ENABLED n

/-- BD_TIME, 48 bits (R322). -/
def Dev.bdTime (d : Dev) : Nat := d.r BD_TIME_LO + d.r BD_TIME_HI % 2 ^ 16 * 2 ^ 32

/-- A shutdown-cause record entry with `cause`; `bank` is the VDDIO bank (R319). -/
def Dev.srec (d : Dev) (cause bank : Nat) : Dev :=
  let k := d.f BD_STAT_SREC_NEXT
  let a := cause + d.modeNow % 8 * 2 ^ 8 + bank % 4 * 2 ^ 12 + d.enabledMask * 2 ^ 16 + d.mode.srecSeq % 256 * 2 ^ 24
  let d := (d.setR BD_REG (2 * k) a).setR BD_REG (2 * k + 1) (d.bdTime / 2 ^ 15)
  (d.setF BD_STAT_SREC_NEXT 0 (k + 1)).modMode fun m => { m with srecSeq := (m.srecSeq + 1) % 256 }

/-- Count in byte `k` of BD_COUNTS, saturating (R318). -/
def Dev.bdCount (d : Dev) (k : Nat) : Dev :=
  let v := d.r BD_REG 9
  d.setR BD_REG 9 (putBits v (8 * k) 8 (satAdd 8 (bits v (8 * k) 8) 1))

/-- Set a field of a handover register as both cores see it. -/
def Dev.hoSet (d : Dev) (x : Fld) (v : Nat) : Dev :=
  let d := d.setF x 0 v
  if d.b CORE_STAT_SPLIT then
    let k := x.reg.addr 0 + 2 ^ 32
    d.wr k (putBits (d.rd k) x.lo x.width v)
  else d

/-- Ownership as SYSCTL_OWNER and CORE_HOOWN show it. -/
def Dev.setOwner (d : Dev) (v : Nat) : Dev :=
  let d := (d.setR SYSCTL_OWNER 0 v).setR CORE_HOOWN 0 v
  if d.b CORE_STAT_SPLIT then d.wr (CORE_HOOWN.addr 0 + 2 ^ 32) v else d

/-- The handover ends because the device enters SAFE (R425): the core that does not own SYSCTL stops, and every block
passes to the owner. -/
def Dev.handoverSafe (d : Dev) : Dev :=
  if !d.b CORE_STAT_SPLIT then d else
  let toB := bit (d.r SYSCTL_OWNER) 0
  let d := if d.f CORE_HOSTAT_STATE = opRunning then (d.hoSet CORE_HOSTAT_STATE opFailed).hoSet CORE_HOSTAT_REASON 3 else d
  let d := d.setOwner (if toB then 0x7FFFF else 0)
  d.modCpu fun c => if toB then { c with a := c.a.stopped, joining := false } else { c with b := c.b.stopped, joining := false }

/-- PSR.DET of both cores becomes `v` (R45, R402). -/
def Dev.setDet (d : Dev) (v : Bool) : Dev :=
  let put := fun (c : CoreSt) => { c with psr := BitVec.ofNat 32 (putBits c.psr.toNat 13 1 (b2n v)) }
  d.modCpu fun c => { c with a := put c.a, b := put c.b }

/-- A mode request is refused with `k` (R309, R324). -/
def Dev.modeRej (d : Dev) (k : Nat) : Dev := (d.raise SYSCTL_FLAGS_MODE_REJ).setF SYSCTL_MODE_REJ 0 k

/-- The mode requests of the cycle in which a SAFE trigger comes are refused with REJ 9 (R301): a STANDBY that was accepted
in this cycle, and a fabric enable written in it. -/
def Dev.triggerWins (d : Dev) : Dev :=
  let slept := d.modeNow = modeStandby && d.mode.sleepAt = d.now
  let fab := d.cfg.queue.contains srcFabric && d.cfg.fabAt = d.now
  let d := if slept then d.setF SYSCTL_MODE_MODE 0 modeConfigure else d
  let d := if fab then d.unrequest srcFabric else d
  if slept || fab then d.modeRej 9 else d

/-- Entry to SAFE with `cause` (R302): the shutdown-cause record with the mode at the event, the end of a long operation
(R272), the shutdowns, the class-0 entry, the watchdog, the stitch engines and Hawkmoth, for which nothing is on its way any
more (R34); the cores take the SAFE exception, or halt from BOOT and after a lockstep failure. A root that leaves BOOT
enumerates (R207, R308). In DORMANT and SAFE a trigger has no effect. -/
def Dev.enterSafe (d : Dev) (cause bank : Nat) : Dev :=
  if d.mode.dormant || d.modeNow = modeSafe then d else
  let d := d.triggerWins
  let was := d.modeNow
  let d := ((d.srec cause bank).bdCount 2).lopEnd opFailed 7
  let d := d.each (List.range 8) fun n d =>
    if d.b RAIL_STAT_ENABLED n && !d.b RAIL_STAT_SHUTTING n then d.shutAsk n causeSafe else d
  let d := d.post 0 0x102 0xFF [cause]
  let d := (d.setB HB_CTRL_FW_READY 0 false).setF SYSCTL_MODE_MODE 0 modeSafe |>.setF SYSCTL_MODE_SAFE_CAUSE 0 cause |>.raise SYSCTL_FLAGS_SAFE_ENTERED
  let d := d.modMode fun m =>
    { m with wdog := 0, lastSafe := cause, safeAt := some d.now, sleep := if m.sleep ≥ 2 then 3 else 0 }
  let d := if cause = ccLockstep then (d.sealClear 0).sealClear 1 else d
  let d := (d.stitchStopAll.handoverSafe).setDet true
  let d := { d with hm := { d.hm with handed := [], relays := [] } }
  let d := if was = modeBoot then d.enumStart else d
  let halts := was = modeBoot || cause = ccLockstep
  d.modCpu fun c =>
    if halts then { c with a := c.a.stopped, b := c.b.stopped, selfTest := false }
    else { c with safeDue := true, a := { c.a with wfe := false }, b := { c.b with wfe := false } }

end Sys2Proof.Machine
end

