-- ==== Sys2Proof/Machine/CoreBase.lean ====
section
/-! DEFINITION. The core pair: which cores run, checkpoints and rollback (R416-R421), taking an exception or an event and
returning from one (R404-R411), the ends of the self-test (R420), and the ends of a window (R389, R415). -/
namespace Sys2Proof.Machine

/-! ### The cores -/

def Dev.core (d : Dev) (c : CoreId) : CoreSt :=
  match c with
  | .a => d.cpu.a
  | .b => d.cpu.b

def Dev.setCore (d : Dev) (c : CoreId) (x : CoreSt) : Dev :=
  match c with
  | .a => d.modCpu fun u => { u with a := x }
  | .b => d.modCpu fun u => { u with b := x }

def Dev.modCore (d : Dev) (c : CoreId) (f : CoreSt → CoreSt) : Dev := d.setCore c (f (d.core c))

/-- The cores run in lockstep (R416, R430). -/
def Dev.lockstep (d : Dev) : Bool := d.b CORE_STAT_LOCK

/-- The cores run apart (R423, R430). -/
def Dev.split (d : Dev) : Bool := d.b CORE_STAT_SPLIT

/-- The core whose registers stand for an access: A in lockstep, the named core while they run apart, the survivor of a
fence. -/
def Dev.lead (d : Dev) (c : CoreId) : CoreId :=
  if d.split then c else if d.b CORE_STAT_FENCED_A then .b else .a

/-- The cores that execute what is given for core `c`: both in lockstep, else one. -/
def Dev.pair (d : Dev) (c : CoreId) : List CoreId := if d.lockstep then [.a, .b] else [d.lead c]

/-- Core `c` executes now: in service, not halted, the device neither asleep nor in DORMANT (R43, R309, R410, R420). -/
def Dev.executes (d : Dev) (c : CoreId) : Bool :=
  let x := d.core (d.lead c)
  x.run && !x.halted && !x.debug && !d.cpu.selfTest && !d.cpu.joining && !d.mode.dormant && d.modeNow != modeStandby

/-- The key of core-private bus address `a` for core `c` (R423, R431): core B has its own space while the cores run
apart. -/
def Dev.privKey (d : Dev) (c : CoreId) (a : Nat) : Nat := if d.split && c == .b then a + 2 ^ 32 else a

/-- A CORE register as core `c` sees it. -/
def Dev.cr (d : Dev) (c : CoreId) (g : Reg) (n : Nat := 0) : Nat := d.rd (d.privKey c (g.addr n))

/-- A field of a CORE register as core `c` sees it. -/
def Dev.cf (d : Dev) (c : CoreId) (x : Fld) : Nat := bits (d.cr c x.reg) x.lo x.width

/-- Set a field of a CORE register of core `c`. -/
def Dev.setCf (d : Dev) (c : CoreId) (x : Fld) (v : Nat) : Dev :=
  let k := d.privKey c (x.reg.addr 0)
  d.wr k (putBits (d.rd k) x.lo x.width v)

/-- General register `i`. -/
def CoreSt.gr (x : CoreSt) (i : Nat) : Word := x.g.getD i 0

/-- Set general register `i`. -/
def CoreSt.setGr (x : CoreSt) (i : Nat) (v : Word) : CoreSt := { x with g := x.g.setIfInBounds i v }

/-! ### PSR (R365) -/

def CoreSt.sup (x : CoreSt) : Bool := bit x.psr.toNat 0
def CoreSt.ie (x : CoreSt) : Bool := bit x.psr.toNat 1
def CoreSt.ipl (x : CoreSt) : Nat := bits x.psr.toNat 2 3
def CoreSt.aw (x : CoreSt) : Bool := bit x.psr.toNat 5
def CoreSt.awcnt (x : CoreSt) : Nat := bits x.psr.toNat 6 6

/-- PSR with bits `lo + w - 1` down to `lo` replaced. -/
def psrPut (p : Word) (lo w v : Nat) : Word := BitVec.ofNat 32 (putBits p.toNat lo w v)

/-! ### Checkpoints (R417) -/

/-- A checkpoint: both stores, both logs empty; CORE_CKPT counts it (R417). Cores that run apart take none (R423). -/
def Dev.checkpoint (d : Dev) : Dev :=
  if d.split then d else
  let d := d.modCpu fun u =>
    { u with ckA := u.a, ckB := u.b, undo := [], replayLog := [], replay := none, ckDue := false, since := 0, misses := 0
             bistPassed := false }
  d.setR CORE_CKPT 0 (d.r CORE_CKPT + 1)

/-- A log is full (R417, R418): what is left of its 1,024 or 256 entries would not hold the accesses of one more step of a
block instruction, or of a window, inside which no checkpoint is taken (DESIGN CHOICE, log 19). -/
def Dev.logFull (d : Dev) : Bool := decide (992 < d.cpu.undo.length) || decide (192 < d.cpu.replayLog.length)

/-- A checkpoint is due (R417): 4,096 instructions have retired, a log is full, or one waits from a join; never inside a
window, and not while accesses are still to be replayed (R419). -/
def Dev.checkpointDue (d : Dev) : Bool :=
  !d.split && !(d.core (d.lead .a)).aw && d.cpu.replay.isNone && (decide (4096 ≤ d.cpu.since) || d.logFull || d.cpu.ckDue)

/-- A checkpoint that is due is taken: by the row CHECKPOINT, or before the next instruction (log 19). -/
def Dev.checkpointNow (d : Dev) : Dev := if d.checkpointDue then d.checkpoint else d

/-- CHECKPOINT (R417). -/
def execCheckpoint (s : State) : Outcome := s.onDev Dev.checkpointNow

/-! ### Rollback and self-test (R419, R420) -/

/-- The undo log applied in reverse order, and the registers of the checkpoint (R419). DET is what the mode and DET_FORCE
make it now, whatever the checkpoint holds (R45, R402). -/
def State.restore (s : State) : State :=
  let d := s.dev.modCpu fun u => { u with a := u.ckA, b := u.ckB, undo := [], since := 0, replay := none }
  { s with
    mem := s.dev.cpu.undo.foldl (fun m u => m.writeN 4 u.1 u.2) s.mem
    dev := d.setDet (d.modeNow = modeBoot || d.modeNow = modeSafe || d.b CORE_CTRL_DET_FORCE) }

/-- A rollback (R419): the restore, then replay of the accesses logged since the checkpoint. -/
def State.rollback (s : State) (pc : Nat) : State :=
  let nu := s.dev.cpu.undo.length
  let nr := s.dev.cpu.replayLog.length
  let s := s.restore
  let d := s.dev.modCpu fun u => { u with replay := if u.replayLog.isEmpty then none else some u.replayLog }
  let d := (d.raise CORE_FLAGS_ROLLBACK).incSat CORE_ROLLCNT_ROLLS
  { s with dev := d.post 3 0x110 0xFF [pc, d.r CORE_CKPT, nu + nr * 2 ^ 16] }

/-- A lockstep failure (R301, R420): SAFE with cause LOCKSTEP, and both cores halt, also where the device is in SAFE
already. -/
def Dev.lockstepFail (d : Dev) : Dev :=
  (d.enterSafe ccLockstep 0).modCpu fun u =>
    { u with a := u.a.stopped, b := u.b.stopped, selfTest := false }

/-- A mismatch at WB at address `pc` (R416, R419, R420): the first since the checkpoint starts a rollback, the second a
self-test, one after a passed self-test is a lockstep failure. -/
def State.mismatch (s : State) (pc : Nat) : State :=
  let k := s.dev.cpu.misses
  let d := (s.dev.setR CORE_LASTMIS 0 pc).modCpu fun u => { u with misses := k + 1 }
  if d.cpu.bistPassed then { s with dev := d.lockstepFail }
  else if k = 0 then State.rollback { s with dev := d } pc
  else { s with dev := d.modCpu fun u => { u with selfTest := true } }

/-! ### Entry (R404-R410) -/

/-- What an entry saves beside the registers: its vector slot, the saved PC, the upper bits of SYND, FADDR, and the
priority of an event. -/
structure Entry where
  slot : Nat
  pc : Word
  synd : Nat := 0
  faddr : Nat := 0
  prio : Option Nat := none
  deriving DecidableEq, Repr

/-- SYND of an entry (R407). -/
def Entry.word (e : Entry) : Nat := e.slot % 256 + e.synd / 256 * 256

/-- The 24 words of a TSB (R407). -/
def tsbWords (x : CoreSt) (e : Entry) (cycle ckpt : Nat) : List Nat :=
  [e.pc.toNat, x.psr.toNat, e.word, e.faddr] ++ (List.range 16).map (fun i => (x.gr i).toNat) ++ [cycle % 2 ^ 32, ckpt, 0, 0]

/-- CYCLE (R366): CCLK cycles since SYS reset. -/
def Dev.cycle (d : Dev) : Nat := d.cpu.cyc % 2 ^ 64

/-- A TSB at `a` lies in SRAM (R410). -/
def tsbInSram (a : Nat) : Bool := decide (0x20000000 ≤ a) && decide (a + 0x60 ≤ 0x20080000)

/-- Write the words of a TSB from RAM key `k`. -/
def State.tsbStore (s : State) : Nat → List Nat → State
  | _, [] => s
  | k, w :: t => State.tsbStore (s.ramStore k 4 w) (k + 4) t

/-- The bank of the word at SRAM key `a` is held by the window of the other core, as core `c` sees it (R391). -/
def Dev.otherHolds (d : Dev) (c : CoreId) (a : Nat) : Bool :=
  let o : CoreId := if d.lead c == .a then .b else .a
  d.split && (d.core o).aw && bit (d.core o).banks (sramBank a)

/-- The TSB at SRAM key `a` must wait for the window of the other core (R391). -/
def Dev.tsbHeld (d : Dev) (c : CoreId) (a : Nat) : Bool := d.otherHolds c a || d.otherHolds c (a + 0x5C)

/-- The entry of core `c` must wait for its TSB (R391, R406). -/
def Dev.entryHeld (d : Dev) (c : CoreId) : Bool := d.tsbHeld c ((d.core (d.lead c)).tsbp - 0x60).toNat

/-- The registers of a core after the entry (R406): AW, AWCNT and BK clear, S set; an event sets IPL, an exception clears
IE; PC at the vector. -/
def CoreSt.entered (x : CoreSt) (e : Entry) (vbase : Nat) (tsbp : Word) : CoreSt :=
  let p := psrPut (psrPut (psrPut x.psr 5 8 0) 0 1 1) 12 1 0
  let p := match e.prio with
    | some k => psrPut p 2 3 k
    | none => psrPut p 1 1 0
  { x with psr := p, tsbp := tsbp, pc := BitVec.ofNat 32 (vbase + 0x100 + 16 * e.slot), wfe := false, banks := 0
           fresh := e.prio.isSome }

/-- Core `c`, or the pair, halts (R410), with no window open any more: HALTED and a DOUBLE_HALT entry. -/
def Dev.coreHalt (d : Dev) (c : CoreId) (e : Entry) : Dev :=
  let src := if d.lockstep then 0x10 else if d.lead c == .a then 0 else 1
  let d := d.each (d.pair c) fun k d => d.modCore k fun x => { x.closed with halted := true }
  let other : CoreId := if d.split && c == .a then .b else .a
  let d := d.setCf other CORE_STAT_HALTED 1
  d.post 1 0x117 src [e.word, e.faddr]

/-- Exceptions that are faults: a further one while DBL is 1 halts the core (R410). -/
def slotFault (n : Nat) : Bool := decide (2 ≤ n) && decide (n ≤ 9)

/-- DOUBLE (R410): the TSB goes to the emergency block and TSBP stays; with DBL at 1 the core halts instead. -/
def State.double (s : State) (c : CoreId) (e : Entry) : State :=
  let d := s.dev
  let k := d.lead c
  let e := { e with slot := 2, prio := none }
  if d.cf k CORE_STAT_DBL = 1 then { s with dev := d.coreHalt c e } else
  let d := (d.setCf k CORE_STAT_DBL 1).setCf k CORE_FLAGS_DOUBLE 1
  let ckpt := if d.split then d.cr k CORE_CKPT else d.r CORE_CKPT + 1
  let s := State.tsbStore { s with dev := d } (d.privKey k 0xE000FFA0) (tsbWords (d.core k) e d.cycle ckpt)
  let vb := s.dev.cr k CORE_VBASE
  let d := s.dev.each (s.dev.pair c) fun i d => d.modCore i fun x => x.entered e vb x.tsbp
  { s with dev := d.checkpoint }

/-- TAKING AN EXCEPTION OR AN EVENT, on the cores that run for `c` (R404-R410): TSBP falls by 0x60, the TSB takes PC,
PSR, SYND, FADDR, g0 to g15, CYCLE and CORE_CKPT; PSR, PC and a checkpoint follow. A TSB outside SRAM is DOUBLE; a
fault while DBL is 1 halts the core; while the other core's window holds the TSB's bank the entry waits. -/
def State.enter (s : State) (c : CoreId) (e : Entry) : State :=
  let d := s.dev
  let k := d.lead c
  if slotFault e.slot && d.cf k CORE_STAT_DBL = 1 then { s with dev := d.coreHalt c e } else
  let x := d.core k
  let tsbp := x.tsbp - 0x60
  if !tsbInSram tsbp.toNat then s.double c { e with synd := synUnmapped * 256 + 2 ^ 24, faddr := tsbp.toNat } else
  if d.entryHeld c then s else
  let ckpt := if d.split then d.cr k CORE_CKPT else d.r CORE_CKPT + 1
  let s := s.tsbStore tsbp.toNat (tsbWords x e d.cycle ckpt)
  let vb := d.cr k CORE_VBASE
  let d := s.dev.each (s.dev.pair c) fun i d => d.modCore i fun x => x.entered e vb tsbp
  { s with dev := d.checkpoint }

/-- The SAFE exception, when it is due and a core can take it (R302, R404). In a split the core that owns SYSCTL takes
it (R425). It waits for the end of a debug halt, a self-test or a state copy, at which an instruction boundary is reached, and
for the end of a replay, which an entry would cut short (R419). -/
def State.takeSafe (s : State) : State :=
  if !s.dev.cpu.safeDue then s else
  let c : CoreId := if s.dev.split && bit (s.dev.r SYSCTL_OWNER) 0 then .b else .a
  let x := s.dev.core (s.dev.lead c)
  if x.run && !x.halted && (x.debug || s.dev.cpu.selfTest || s.dev.cpu.joining || s.dev.cpu.replay.isSome || s.dev.entryHeld c) then s else
  let s := { s with dev := s.dev.modCpu fun u => { u with safeDue := false } }
  if x.run && !x.halted then s.enter c { slot := 0, pc := x.pc } else s

/-! ### The logs of R418, and the return of R409 -/

/-- Address `a` lies in an enabled shared window (R418). -/
def Dev.sharedWindow (d : Dev) (a : Nat) : Bool :=
  (List.range 4).any fun n =>
    bit (d.r CORE_SHBASEn n) 0 && decide (d.r CORE_SHBASEn n / 256 ≤ a / 256) && decide (a / 256 ≤ d.r CORE_SHLIMn n / 256)

/-- The undo log covers address `a`: SRAM or scratch RAM outside every shared window (R418, R431). -/
def Dev.undone (d : Dev) (a : Nat) : Bool :=
  (decide (0x20000000 ≤ a && a < 0x20080000) || decide (0xE0001000 ≤ a && a < 0xE000FFA0)) && !d.sharedWindow a

/-- An access enters the replay log (R418); in replay it is there already. -/
def Dev.logAcc (d : Dev) (e : LogAcc) : Dev :=
  if !d.lockstep || d.cpu.replay.isSome then d else d.modCpu fun u => { u with replayLog := u.replayLog ++ [e] }

/-- The registers a TSB restores (R409): g0 to g15, PC and PSR; DET and LOCK keep their present values, AW and AWCNT
become 0. The ERET has retired. -/
def CoreSt.restored (x : CoreSt) (ws : List Nat) (tsbp : Word) : CoreSt :=
  let keep := x.psr.toNat &&& 0x6000
  let p := ws.getD 1 0 &&& 0xF000101F ||| keep
  { x with g := .ofFn fun i => BitVec.ofNat 32 (ws.getD (4 + i.val) 0)
           pc := BitVec.ofNat 32 (ws.getD 0 0 / 2 * 2), psr := BitVec.ofNat 32 p, tsbp := tsbp, instret := x.instret + 1
           banks := 0, fresh := false }

/-! ### Events and windows -/

/-- The core that takes events while the cores run apart: the owner of EVENT (R423). -/
def Dev.eventCore (d : Dev) : CoreId := if d.split && bit (d.r SYSCTL_OWNER) 12 then .b else .a

/-- The event that would be taken now (R412, R413): none in a rollback, whose replay is its last part (R419), and none before
the first handler instruction of the event before it has retired. -/
def Dev.takeable (d : Dev) : Option Nat :=
  let x := d.core (d.lead d.eventCore)
  if d.executes d.eventCore && x.ie && !x.aw && !x.fresh && d.cpu.replay.isNone then d.topEvent x.ipl else none

/-- WINMAX in force for core `c` (R430): values below 32 act as 32. -/
def Dev.winMax (d : Dev) (c : CoreId) : Nat := max 32 (bits (d.cr c CORE_XWIN) 0 10)

/-! ### The end of a self-test (R420) -/

/-- Core `c` is fenced (R420): the other restores the checkpoint, runs alone and takes FENCE. -/
def State.fence (s : State) (c : CoreId) : State :=
  let s := s.restore
  let alone : CoreId := if c == .a then .b else .a
  let d := if c == .a then s.dev.setB CORE_STAT_FENCED_A 0 true else s.dev.setB CORE_STAT_FENCED_B 0 true
  let d := (d.setB CORE_STAT_LOCK 0 false).raise CORE_FLAGS_FENCE
  let d := (d.modCore c CoreSt.stopped).modCore alone fun x => { x with psr := psrPut x.psr 14 1 0 }
  let pc := (d.core alone).pc
  let d := d.post 0 0x112 (if c == .a then 0 else 1) [pc.toNat]
  let d := d.modCpu fun u => { u with replayLog := [], misses := 0 }
  State.enter { s with dev := d } alone { slot := 1, pc := pc }

/-- CORE_CACHE.INV_I and INV_BTB (R396): the caches hold copies only, and no result depends on them; the write ends
well. -/
def execCacheInvI (s : State) : Outcome := s.onDev fun d => d.busOk
def execCacheInvBtb (s : State) : Outcome := s.onDev fun d => d.busOk

end Sys2Proof.Machine
end

