-- ==== Sys2Proof/Machine/Handover.lean ====
section
/-! DEFINITION. Live firmware handover (R422-R425). A command row is the write of CORE_HOCMD or CORE_HOXFER by core
`c`, which acts at retire. -/
namespace Sys2Proof.Machine

/-- A refused handover command (R424). -/
def Dev.hoReject (d : Dev) (code : Nat) : Dev := (d.hoSet CORE_FLAGS_HO_REJ 1).hoSet CORE_STAT_HOREJ code

/-- Copy the CORE registers of one core to the other: `up` from A to B. -/
def Dev.copyRegs (d : Dev) (up : Bool) : Dev :=
  d.each coreRegs fun g d => d.each (List.range g.count) fun n d =>
    if up then d.wr (g.addr n + 2 ^ 32) (d.rd (g.addr n)) else d.wr (g.addr n) (d.rd (g.addr n + 2 ^ 32))

/-- The bytes of the private RAM of core A, or of core B. -/
def Mem.scratch (m : Mem) (b : Bool) : Mem :=
  let lo := 0xE0001000 + (if b then 2 ^ 32 else 0)
  m.filter fun c => decide (lo ≤ c.1) && decide (c.1 < lo + 0xF000)

/-- Copy the private RAM of one core to the other: `up` from A to B. -/
def Mem.copyScratch (m : Mem) (up : Bool) : Mem :=
  let from_ := m.scratch (!up)
  let lo := 0xE0001000 + (if up then 2 ^ 32 else 0)
  let clear := m.drop fun k => decide (lo ≤ k) && decide (k < lo + 0xF000)
  from_.foldl (fun m c => m.write (if up then c.1 + 2 ^ 32 else c.1 - 2 ^ 32) c.2.toNat) clear

/-- The base of the bank T. -/
def bankBase (t : Nat) : Nat := if t = 0 then 0x08000000 else 0x08200000

/-- The handover block lies inside a shared window (R418, R422). -/
def Dev.hoAddrOk (d : Dev) : Bool :=
  let a := d.r CORE_HOADDR / 256
  (List.range 4).any fun n =>
    bit (d.r CORE_SHBASEn n) 0 && decide (d.r CORE_SHBASEn n / 256 ≤ a) && decide (a ≤ d.r CORE_SHLIMn n / 256)

/-- The preconditions of SPLIT (R422). -/
def Dev.splitOk (d : Dev) (t : Nat) : Bool :=
  d.lockstep && !d.split && !d.b CORE_STAT_FENCED_A && !d.b CORE_STAT_FENCED_B &&
    (d.modeNow == modeConfigure || d.modeNow == modeRegulate) && d.r CORE_VBASE != bankBase t &&
    (if t = 0 then d.b SECURE_STAT_VERIFIED_A else d.b SECURE_STAT_VERIFIED_B) && d.hoAddrOk

/-- Core B at a handover split (R411); DET is 1 while DET_FORCE, which its CORE registers take from A's, is 1 (R45, R402). -/
def coreAtSplit (base entry hoaddr : Nat) (det : Bool) : CoreSt :=
  { g := #v[BitVec.ofNat 32 base, 1, BitVec.ofNat 32 hoaddr, 0, 0, 0, 0, 0, 0, 0, 0, 0, 0, 0, 0, 0]
    pc := BitVec.ofNat 32 (base + entry), psr := if det then 0x2001 else 1, tsbp := 0 }

/-- SPLIT (R422): a checkpoint, then the cores run apart. Inside an open window there is none: it would wait for the window's
close (R417), and cores apart take none (R423). -/
def State.hoSplit (s : State) (t : Nat) : State :=
  if !s.dev.splitOk t then { s with dev := s.dev.hoReject 1 } else
  let d := if s.dev.cpu.a.aw then s.dev else s.dev.checkpoint
  let base := bankBase t
  let d := (d.setOwner 0).setR CORE_HOSTAT 0 (opWord opRunning 0 0 0 false)
  let d := d.setB CORE_STAT_LOCK 0 false |>.setB CORE_STAT_SPLIT 0 true
  let d := (d.copyRegs true).wr (CORE_VBASE.addr 0 + 2 ^ 32) base
  let d := d.modCpu fun u =>
    { u with a := { u.a with psr := psrPut u.a.psr 14 1 0 }
             b := coreAtSplit base (s.mem.readN 4 (base + 0x18)) (d.r CORE_HOADDR / 256 * 256) (d.b CORE_CTRL_DET_FORCE)
             parked := false, joining := false, splitAt := d.now, bank := t }
  { s with mem := s.mem.copyScratch true, dev := d.post 3 0x113 t [d.r CORE_HOADDR / 256 * 256] }

/-- CORE_HOXFER (R422, R423): every masked block passes to B; a write by B has no effect. -/
def Dev.hoXfer (d : Dev) (c : CoreId) (mask : Nat) : Dev :=
  if c == .b || !d.split || d.cpu.parked || d.f CORE_HOSTAT_STATE != opRunning then d else
  let mask := mask % 2 ^ 19
  let old := d.r SYSCTL_OWNER
  let n := ((List.range 19).filter fun b => bit mask b && !bit old b).length
  let d := (d.setOwner (old ||| mask)).hoSet CORE_HOSTAT_PROGRESS (d.f CORE_HOSTAT_PROGRESS + n)
  d.post 3 0x114 0xFF [mask]

/-- PARK (R422, R424): core A stops once it owns no block. -/
def Dev.hoPark (d : Dev) : Dev :=
  if !d.split || d.r SYSCTL_OWNER != 0x7FFFF then d.hoReject 2
  else d.modCpu fun u => { u with parked := true, a := u.a.stopped }

/-- JOIN (R422, R424): the state copy begins once A has parked. -/
def Dev.hoJoin (d : Dev) : Dev :=
  if !d.split || !d.cpu.parked then d.hoReject 3 else d.modCpu fun u => { u with joining := true, joinAt := d.cycle }

/-- Lockstep resumes on the stream of core B (`fromB`) or of core A, from a checkpoint, which waits for the close of a window
that is open in that stream (R417, R422, R425). -/
def State.rejoin (s : State) (fromB : Bool) : State :=
  let d := if fromB then s.dev.copyRegs false else s.dev.copyRegs true
  let d := d.setB CORE_STAT_LOCK 0 true |>.setB CORE_STAT_SPLIT 0 false |>.setB CORE_STAT_HALTED 0 false
  let d := d.modCpu fun u =>
    let x := if fromB then u.b else u.a
    let x := { x with psr := psrPut x.psr 14 1 1, run := true }
    { u with a := x, b := x, parked := false, joining := false, ckDue := x.aw }
  { s with mem := s.mem.copyScratch (!fromB), dev := if d.cpu.ckDue then d else d.checkpoint }

/-- JOIN_COMPLETE (R422): 160 cycles after JOIN both cores run B's stream in lockstep; before that nothing happens. -/
def execJoinComplete (s : State) : Outcome := s.live fun s =>
  if !s.dev.cpu.joining || s.dev.cycle < s.dev.cpu.joinAt + 160 then s else
  let d := s.dev.hoSet CORE_HOSTAT_STATE opDone |>.hoSet CORE_FLAGS_HO_DONE 1
  let s := State.rejoin { s with dev := d } true
  { s with dev := s.dev.post 3 0x115 s.dev.cpu.bank [(s.dev.now - s.dev.cpu.splitAt) / 400] }

/-- ABORT (R424, R425, R21). -/
def State.hoAbort (s : State) : State :=
  let d := s.dev
  if !d.split then
    if d.f CORE_HOSTAT_STATE = opDone then { s with dev := d.setB CORE_HOSTAT_ABORT_LATE 0 true } else s
  else if d.f CORE_HOSTAT_STATE != opRunning then s
  else if d.r SYSCTL_OWNER != 0 then { s with dev := d.hoReject 4 }
  else
    let d := d.hoSet CORE_HOSTAT_STATE opAborted |>.hoSet CORE_HOSTAT_REASON 1
    let s := State.rejoin { s with dev := d } false
    { s with dev := s.dev.post 1 0x116 0xFF [s.dev.r CORE_HOSTAT] }

/-- A write of CORE_HOCMD by core `c` (R422, R424). -/
def State.hoCmd (s : State) (c : CoreId) (op bank key : Nat) : State :=
  if op = 0 || op > 4 then s
  else if key != 0x4B0D then { s with dev := s.dev.hoReject 5 }
  else if op = 1 then s.hoSplit bank
  else if op = 2 then (if c == .a then { s with dev := s.dev.hoPark } else s)
  else if op = 3 then { s with dev := s.dev.hoJoin }
  else s.hoAbort

/-- The command of a core that executes. -/
def State.byCore (s : State) (c : CoreId) (f : State → State) : Outcome := .next (if s.dev.executes c then f s else s)

def execHoSplit (c : CoreId) (bank : Fin 2) (key : Half) (s : State) : Outcome :=
  s.byCore c fun s => s.hoCmd c 1 bank key.toNat
def execHoXfer (c : CoreId) (mask : Word) (s : State) : Outcome :=
  s.byCore c fun s => { s with dev := s.dev.hoXfer c mask.toNat }
def execHoPark (c : CoreId) (key : Half) (s : State) : Outcome := s.byCore c fun s => s.hoCmd c 2 0 key.toNat
def execHoJoin (c : CoreId) (key : Half) (s : State) : Outcome := s.byCore c fun s => s.hoCmd c 3 0 key.toNat
def execHoAbort (c : CoreId) (key : Half) (s : State) : Outcome := s.byCore c fun s => s.hoCmd c 4 0 key.toNat

/-- Core B has halted while the cores run apart (R425): with A in service its blocks pass back and A takes HO_FAIL;
after A has parked no core is in service. -/
def State.hoFail (s : State) : State :=
  let d := s.dev
  if !d.split || !d.cpu.b.halted || d.f CORE_HOSTAT_STATE != opRunning then s
  else if d.cpu.parked then
    let d := (d.hoSet CORE_HOSTAT_STATE opFailed).hoSet CORE_HOSTAT_REASON 2
    { s with dev := d.lockstepFail }
  else if d.entryHeld .a then s
  else
    let d := (d.hoSet CORE_HOSTAT_STATE opFailed).hoSet CORE_HOSTAT_REASON 2
    let d := (d.setOwner 0).modCpu fun u => { u with b := u.b.stopped }
    State.enter { s with dev := d } .a { slot := 12, pc := d.cpu.a.pc }

/-- What follows a command at the next instruction boundary: HO_FAIL, then the SAFE exception (R404, R405, R425). -/
def State.boundary (s : State) : State := s.hoFail.takeSafe

/-! ### The end of a self-test (R420) -/

/-- The self-test ends (R420): `passA` and `passB` are the results, `us` the duration. -/
def State.selfTestEnd (s : State) (passA passB : Bool) (us : Nat) : State :=
  if !s.dev.cpu.selfTest then s else
  let d := (s.dev.raise CORE_FLAGS_BIST).incSat CORE_ROLLCNT_BISTS
  let d := d.post 1 0x111 0xFF [b2n passA + 2 * b2n passB, us]
  let d := d.modCpu fun u => { u with selfTest := false }
  let s := { s with dev := d }
  match passA, passB with
  | true, true =>
    let s := s.rollback (d.r CORE_LASTMIS)
    { s with dev := s.dev.modCpu fun u => { u with bistPassed := true } }
  | true, false => s.fence .b
  | false, true => s.fence .a
  | false, false => { s with dev := s.dev.lockstepFail }

/-- SELF_TEST_END (R420). -/
def execSelfTestEnd (passA passB : Bool) (us : Half) (s : State) : Outcome :=
  s.live fun s => (s.selfTestEnd passA passB us.toNat).boundary

end Sys2Proof.Machine
end

