-- ==== Sys2Proof/Machine/Secure.lean ====
section
/-! DEFINITION. Keaquavik security: fuses and OTP (R342, R343, R452-R454), keys (R339), slot checks (R326-R331), seals
(R335), the SECURE operations (R361, R362), debug (R346, R347) and tamper (R348, R349). A row KMAC to OWNER_KEY is the
write of SECURE_OPCMD with GO and that operation; SECURE_OP_END is its end. -/
namespace Sys2Proof.Machine

/-! ### Fuses and OTP -/

/-- Life-cycle state codes of SECURE_STAT.LC. -/
abbrev lcBlank : Nat := 0
abbrev lcProvisioned : Nat := 1
abbrev lcSecured : Nat := 2
abbrev lcReturned : Nat := 3
abbrev lcScrapped : Nat := 4

/-- How many of the low `w` bits of `v` are 1. -/
def ones (v w : Nat) : Nat := ((List.range w).filter (bit v)).length

/-- Life-cycle fuse group G(k+1) counts as programmed (R342). -/
def Mem.groupOn (m : Mem) (k : Nat) : Bool := ones (m.read (0x08801000 + k)) 8 ≥ 5

/-- The life-cycle state (R342). -/
def Mem.lifecycle (m : Mem) : Nat :=
  if m.groupOn 3 then lcScrapped else if m.groupOn 2 then lcReturned else if m.groupOn 1 then lcSecured
  else if m.groupOn 0 then lcProvisioned else lcBlank

/-- A group is programmed without all the groups below it (R342). -/
def Mem.fuseWrong (m : Mem) : Bool :=
  (m.groupOn 1 && !m.groupOn 0) || (m.groupOn 2 && !(m.groupOn 0 && m.groupOn 1))

/-- The fuses of minimum-version step `s`, two bits (R340, R452). -/
def Mem.step (m : Mem) (s : Nat) : Nat := bits (m.read (0x08801004 + s / 4)) (2 * (s % 4)) 2

/-- The OTP minimum version (R340). -/
def Mem.minver (m : Mem) : Nat := ((List.range 511).filter fun s => m.step s = 3).length

/-- Program bits of an OTP or fuse byte: a programmed bit reads 1 and is never erased (R453). -/
def Mem.burn (m : Mem) (x : Nat × Nat) : Mem := m.write x.1 (m.read x.1 ||| x.2)

/-- The ROM completes every group with 1 to 7 fuses and every half-programmed step (R343). -/
def Mem.completeFuses (m : Mem) : Mem :=
  let m := (List.range 4).foldl (fun m k => if m.read (0x08801000 + k) = 0 then m else m.burn (0x08801000 + k, 0xFF)) m
  (List.range 511).foldl (fun m s =>
    if m.step s = 1 || m.step s = 2 then m.burn (0x08801004 + s / 4, 3 * 2 ^ (2 * (s % 4))) else m) m

/-- The address of owner key entry `i` (R454). -/
def ownerAddr (i : Nat) : Nat := 0x08801100 + 64 * i
def Mem.pkd (m : Mem) (i : Nat) : List Nat := m.bytes 32 (ownerAddr i)
def Mem.ownerFlags (m : Mem) (i : Nat) : Nat := m.readN 4 (ownerAddr i + 32)
def Mem.written (m : Mem) (i : Nat) : Bool := ones (m.ownerFlags i) 4 ≥ 3
def Mem.revoked (m : Mem) (i : Nat) : Bool := ones (m.ownerFlags i / 16) 4 ≥ 1
def Mem.debugKey (m : Mem) (i : Nat) : Bool := ones (m.ownerFlags i / 256) 4 ≥ 3

/-- KEYIDX is permitted in life-cycle state `lc` (R345, code 0x07 of R331). -/
def Mem.keyAllowed (m : Mem) (lc k : Nat) : Bool :=
  let owner := decide (k < 4) && m.written k && !m.revoked k
  (k == 0x80 && (lc = lcBlank || lc = lcProvisioned || lc = lcReturned)) ||
    ((lc = lcProvisioned || lc = lcSecured) && owner)

/-- The digest that a public key must have for KEYIDX `k` (R330). -/
def Mem.digestOf (m : Mem) (k : Nat) : List Nat :=
  if k = 0x80 then (Config.romKeyDigest.map BitVec.toNat) else m.pkd k
def pubDigest (p : List Nat) : List Nat := kmac256 [] p 32 (ascii "SK7216 PUBKEY")

/-- CERT_DIGEST (R355). -/
def Mem.certDigest (m : Mem) : List Nat := kmac256 [] (m.bytes 3093 0x08802000) 32 (ascii "SK7216 CERT")

/-! ### Keys (R339) -/

/-- KDF(K, label, ctx). -/
def kdf (k lab ctx : List Nat) : List Nat := kmac256 k (lab ++ ctx) 32 (ascii "SK7216 KDF")
def Dev.key (d : Dev) (k : Nat) : List Nat := d.sec.keys.getD k []

/-- The lock and use bits of slot `k` after the boot (R339, R341). -/
def slotLocks (k : Nat) : Nat := if k = 0 || k = 1 || k = 6 then 8 else if k = 4 then 4 else 2

/-- SECURE_SLOTS: VALID of every slot, and its use (R360). Slots without a key have no USABLE. -/
def Dev.showSlots (d : Dev) : Dev :=
  d.setR SECURE_SLOTS 0 ((List.range 8).foldl (fun v k =>
    let full := !(d.key k).isEmpty
    v + (if full then 1 + slotLocks k else slotLocks k - (slotLocks k &&& 2)) * 2 ^ (4 * k)) 0)
def Dev.setKey (d : Dev) (k : Nat) (v : List Nat) : Dev :=
  (d.modSec fun s => { s with keys := s.keys.setIfInBounds k v }).showSlots

/-! ### Slot checks (R326-R331) -/

/-- The bank base. -/
def bankAt (b : Nat) : Nat := 0x08000000 + 0x200000 * b

/-- A field of `n` bytes of a header. -/
def hdrF (h : List Nat) (a n : Nat) : Nat := leVal ((h.drop a).take n)
def hdrLen (h : List Nat) : Nat := hdrF h 0x14 4
def hdrSeq (h : List Nat) : Nat := hdrF h 0x08 4
def hdrNblk (h : List Nat) : Nat := ceilDiv (256 + hdrLen h) 8192
def hdrKeyIdx (h : List Nat) : Nat := hdrF h 0x1C 1

/-- The install journal holds (R320): JCRC matches. -/
def Dev.journalOk (d : Dev) : Bool :=
  d.r BD_REG 15 == crc32c ((List.range 5).flatMap fun j => leBytes 4 (d.r BD_REG (10 + j)))
def Dev.journalState (d : Dev) : Nat := if d.journalOk then bits (d.r BD_REG 10) 0 4 else 0
def Dev.journalFor (d : Dev) (bank seq : Nat) : Bool :=
  bits (d.r BD_REG 10) 4 1 == bank && d.r BD_REG 11 == seq

/-- The lowest failing header check, 0 when all pass (R331, codes 0x01 and 0x03 to 0x06); `bank` is none for an SRAM
copy. -/
def Dev.headerWhy (d : Dev) (m : Mem) (h : List Nat) (margin : Bool) (bank : Option Nat) : Nat :=
  let seq := hdrSeq h
  let len := hdrLen h
  let entry := hdrF h 0x18 4
  if hdrF h 0 4 != 0x494B564B || hdrF h 4 2 != 1 || hdrF h 6 2 != 0x7216 then 0x01
  else if margin then 0x02
  else if seq = 0 || seq = 0xFFFFFFFF || len % 256 != 0 || len < 0x900 || len > 0x1F7F00 || entry % 2 != 0 ||
      entry < 0x100 || entry ≥ 0x100 + len || bits (hdrF h 0x1D 1) 1 7 != 0 || hdrF h 0x1E 2 != 0 ||
      hdrF h 0x80 128 != 0 then 0x03
  else if hdrF h 0x12 2 != 0xFFFF && decide (hdrF h 0x12 2 > hdrF h 0x10 2) then 0x04
  else if hdrF h 0x10 2 < m.minver then 0x05
  else match bank with
    | some b => if d.journalState = 7 && d.journalFor b seq then 0x06 else 0
    | none => 0

/-- The checks of the key and the signature, each none where its read fails: the lowest failing code of 0x07 to 0x0B and
0x0E, 0 when all pass (R331). -/
def Mem.keyWhy (m : Mem) (lc : Nat) (h : List Nat) (pk sig : Option (List Nat)) : Nat :=
  if !m.keyAllowed lc (hdrKeyIdx h) then 0x07 else
  match pk, sig with
  | some p, some s => if pubDigest p != m.digestOf (hdrKeyIdx h) then 0x08 else falconVerify p s h
  | some p, none =>
    if pubDigest p != m.digestOf (hdrKeyIdx h) then 0x08 else if (falconKey p).isNone then 0x09 else 0x0E
  | none, some s => if (falconSig s).isNone then 0x0A else 0x0E
  | none, none => 0x0E

/-- The check of the table digest: 0x0C, or 0 when it passes (R328, R331). -/
def tableWhy (h table : List Nat) : Nat :=
  if kmac256 (h.take 32) table 32 (ascii "SK7216 TABLE") != (h.drop 0x20).take 32 then 0x0C else 0

/-- The lower of two failing codes, 0 standing for none. -/
def lowerCode (a b : Nat) : Nat := if a = 0 then b else if b = 0 then a else min a b

/-- A read of `n` flash bytes from `a` by the ROM or SECURE: corrected errors are counted; an uncorrectable error or the
block of a suspended erase ends it in a bus error (R435, R446). -/
def Dev.flashSpan (d : Dev) (a n : Nat) : Dev × Bool :=
  let hit := fun k : Nat => decide (k + 8 > a) && decide (k < a + n)
  match d.flash.fue.find? hit with
  | some k => ((d.flashCheck k).1, true)
  | none =>
    let d := d.each (d.flash.fce.filter hit) fun k d => (d.flashCheck k).1
    match d.suspBlock with
    | some b => (d, decide (blockAddr (b + 1) > a) && decide (blockAddr b < a + n))
    | none => (d, false)

/-- The tag of block `j` (R328). -/
def blockTag (h : List Nat) (j : Nat) (body : List Nat) : List Nat :=
  kmac256 (h.take 32) (leBytes 4 j ++ body) 32 (ascii "SK7216 BLOCK")

/-- The blocks `js` of a bank against the table: how many were confirmed, and the first that failed with its code. -/
def Dev.checkBlocks (d : Dev) (m : Mem) (base : Nat) (h table : List Nat) : List Nat → Nat → Dev × Nat × Option (Nat × Nat)
  | [], k => (d, k, none)
  | j :: t, k =>
    let lo := max (8192 * j) 0x100
    let hi := min (8192 * (j + 1)) (0x100 + hdrLen h)
    let (d, bad) := d.flashSpan (base + lo) (hi - lo)
    if bad then (d, k, some (j, 0x0E))
    else if blockTag h j (m.bytes (hi - lo) (base + lo)) != (table.drop (32 * j)).take 32 then (d, k, some (j, 0x0D))
    else Dev.checkBlocks d m base h table t (k + 1)

/-- What a verification found: the reason of R331, 0 for PASS, the failing block and the blocks confirmed. -/
structure Verdict where
  why : Nat
  block : Nat := 0
  done : Nat := 0
  deriving DecidableEq, Repr

/-- The header checks of a bank (R331). A header page that is weak without an ECC error reads otherwise at the program-margin
level (R439). -/
def Dev.checkHeader (d : Dev) (m : Mem) (bank : Nat) : Dev × Nat :=
  let a := bankAt bank
  let (d, bad) := d.flashSpan a 256
  if bad then (d, 0x0E) else (d, d.headerWhy m (m.bytes 256 a) (d.flash.weak.contains (flashPage a)) (some bank))

/-- The full verification of a bank (R331, R333), after its header checks: the lowest code among the failures that the
reads which succeed show; 0x0E for a read that does not. -/
def Dev.verifyBank (d : Dev) (m : Mem) (bank : Nat) : Dev × Verdict :=
  let a := bankAt bank
  let h := m.bytes 256 a
  let n := hdrNblk h
  let table := m.bytes (32 * n) (a + 0x1F8000)
  let (d, bad1) := d.flashSpan (a + 0x1F8000) (32 * n)
  let (d, bad2) := d.flashSpan (a + 0x1FA000) 1793
  let (d, bad3) := d.flashSpan (a + 0x1FA800) 1280
  let key := m.keyWhy (d.f SECURE_STAT_LC) h (if bad2 then none else some (m.bytes 1793 (a + 0x1FA000)))
    (if bad3 then none else some (m.bytes 1280 (a + 0x1FA800)))
  let trust := lowerCode key (if bad1 then 0x0E else tableWhy h table)
  if bad1 then (d, ⟨trust, 0, 0⟩) else
  let (d, k, bad) := d.checkBlocks m a h table (List.range n) 0
  match bad with
  | none => (d, ⟨trust, 0, k⟩)
  | some (j, code) =>
    let why := lowerCode trust code
    (d, ⟨why, if why = 0x0D then j else 0, k⟩)

/-- The seal tag of a header (R335). -/
def Dev.sealOf (d : Dev) (h : List Nat) : List Nat := kmac256 (d.key 6) h 32 (ascii "SK7216 SEAL")

/-- A full verification of `bank` has passed: its seal and VERIFIED are set (R335). -/
def Dev.sealSet (d : Dev) (m : Mem) (bank : Nat) : Dev :=
  let d := d.modSec fun s => { s with sealTag := s.sealTag.setIfInBounds bank (d.sealOf (m.bytes 256 (bankAt bank))) }
  if bank = 0 then (d.setB SECURE_STAT_SEAL_A 0 true).setB SECURE_STAT_VERIFIED_A 0 true
  else (d.setB SECURE_STAT_SEAL_B 0 true).setB SECURE_STAT_VERIFIED_B 0 true

/-! ### Operations (R361, R362) -/

/-- A range of SRAM. -/
def inSram (a n : Nat) : Bool := decide (0x20000000 ≤ a) && decide (a + n ≤ 0x20080000)

/-- SECURE reads `n` bytes of SRAM: true when it meets an uncorrectable error (R435). -/
def Dev.sramSpan (d : Dev) (a n : Nat) : Dev × Bool :=
  let hit := fun k : Nat => n != 0 && decide (k + 4 > a) && decide (k < a + n)
  match d.flash.ue.find? hit with
  | some k => ((d.ramCheck k).1, true)
  | none => (d.each (d.flash.ce.filter hit) fun k d => (d.ramCheck k).1, false)

/-- SECURE writes whole words to SRAM. -/
def State.sramPut (s : State) : Nat → List Nat → State
  | _, [] => s
  | a, b :: t =>
    let s1 := { s with mem := s.mem.write a b, dev := if a % 4 = 0 then s.dev.ramStored a 4 else s.dev }
    State.sramPut s1 (a + 1) t

/-- The running operation ends (R362). -/
def Dev.secEnd (d : Dev) (state why : Nat) : Dev :=
  let d := d.setF SECURE_OPSTAT_STATE 0 state |>.setF SECURE_OPSTAT_REASON 0 why
  let d := if state = opDone then d.raise SECURE_FLAGS_OP_DONE else d.raise SECURE_FLAGS_OP_BAD
  (d.setB SECURE_STAT_BUSY 0 false).modSec fun s => { s with op := 0 }

/-- The bank of the running image: a live handover moves it (R356, R422). -/
def Dev.runBank (d : Dev) : Nat := if d.r CORE_VBASE = 0x08200000 then 1 else 0

/-- The header of the running image (R340, R356, R361). -/
def State.runHdr (s : State) : List Nat := s.mem.bytes 256 (bankAt s.dev.runBank)

/-- The state of the device allows operation `op` (R345, R361). -/
def State.opAllowed (s : State) (op arg : Nat) : Bool :=
  let lc := s.dev.f SECURE_STAT_LC
  let act := bits arg 28 3
  let ps := lc = lcProvisioned || lc = lcSecured
  if op = 1 || op = 3 || op = 4 then lc != lcScrapped
  else if op = 2 || op = 5 then ps
  else if !s.dev.sec.armed then false
  else if op = 6 then ps
  else if op = 7 then
    (act = 2 && lc = lcProvisioned && (List.range 4).any s.mem.written) || (act = 3 && ps) || act = 4
  else if op = 8 then lc = lcBlank && hdrKeyIdx s.runHdr = 0x80
  else if op = 9 then (if act = 1 then lc = lcProvisioned else ps)
  else false

/-- The key that SLOT of `arg` names may be used by KMAC or KDF (R339). -/
def usableSlot (k : Nat) : Bool := k == 2 || k == 3 || k == 5 || k == 7

/-- How many bytes operation `op` reads at OPSRC. -/
def opReads (op len arg : Nat) : Nat :=
  if op = 1 then bits arg 8 8 + (if bits arg 0 4 = 15 then 32 else 0) + len
  else if op = 2 || op = 3 then len
  else if op = 4 then (if bit arg 5 then 256 else 0)
  else if op = 5 then 96
  else if op = 7 then (if bits arg 28 3 = 3 then 3073 else 0)
  else if op = 9 then (if bits arg 28 3 = 1 then 32 else 0)
  else 0

/-- How many bytes operation `op` writes at OPDST. -/
def opWrites (op : Nat) : Nat := if op = 5 then 1536 else if op = 8 then 1793 else 0

/-- A parameter is out of range (R362, 0x11); SVN_NEXT and KEYIDX are the running image's (R340, R361). -/
def State.opBadArg (s : State) (op src len dst arg : Nat) : Bool :=
  let slot := bits arg 0 4
  let act := bits arg 28 3
  (opReads op len arg != 0 && !inSram src (opReads op len arg)) || (opWrites op != 0 && !inSram dst (opWrites op)) ||
    (op = 1 && (decide (bits arg 8 8 > 64) || !(usableSlot slot || slot = 15))) ||
    (op = 2 && (decide (len > 128) || !usableSlot slot)) || (op = 3 && decide (len < 3073)) ||
    (op = 6 && (bits arg 16 9 != hdrF s.runHdr 0x12 2 || decide (bits arg 16 9 ≤ s.mem.minver))) ||
    (op = 9 && (decide (slot > 3) || act = 0 || decide (act > 3) || (act = 2 && slot = hdrKeyIdx s.runHdr)))

/-- The bytes of SECURE's input. -/
def State.opInput (s : State) (n : Nat) : List Nat := s.mem.bytes n s.dev.sec.src

/-- The body of an attestation report (R356). -/
def State.attestBody (s : State) : List Nat :=
  let d := s.dev
  let hdr := s.runHdr
  leBytes 4 0x414B564B ++ leBytes 2 1 ++ leBytes 2 0x7216 ++
    [d.f SECURE_STAT_LC, d.f SECURE_STAT_DBG + 4 * d.f SECURE_STAT_DEBUGGED + 8 * b2n (d.sec.tampers > 0),
     d.f CHAIN_STAT_POS, d.f CHAIN_STAT_RING] ++ leBytes 2 s.mem.minver ++ [0, 0] ++ leBytes 4 (d.r SECURE_BOOTREC) ++
    leBytes 4 (hdrSeq hdr) ++ leBytes 4 (d.r SECURE_BOOTSVN) ++ leBytes 4 d.sec.boots ++
    kmac256 [] hdr 32 (ascii "SK7216 HEADER") ++ s.mem.certDigest ++ leBytes 4 (d.r CFG_VER_A) ++
    leBytes 4 (d.r CFG_VER_B) ++ leBytes 4 (d.r CFG_STAT) ++ leBytes 4 (d.r CHAIN_RTIME) ++ leBytes 4 (d.r LOG_SEQ) ++
    List.replicate 12 0 ++ s.opInput 96 ++ List.replicate 32 0

/-- SRAM bytes `a` to `a + n - 1` lie in a bank that an open atomic window holds (R391). -/
def Dev.sramHeld (d : Dev) (a n : Nat) : Bool :=
  n != 0 && [CoreId.a, CoreId.b].any fun k =>
    (d.core k).aw && [a, a + n - 1].any fun x => bit (d.core k).banks (sramBank x)

/-- How many bytes the SRAM copy of VERIFY_SLOT has: only its header, where the header checks fail (R331, R351). -/
def State.copySize (s : State) : Nat :=
  let h := s.mem.bytes 256 s.dev.sec.src
  if s.dev.headerWhy s.mem h false none != 0 then 256 else 256 + 32 * hdrNblk h + 3073

/-- The running operation waits for memory: for a held SRAM bank (R391), or for a flash bank that it reads while a flash
command keeps it busy (R442). -/
def State.secWaits (s : State) : Bool :=
  let d := s.dev
  let x := d.sec
  let copy := x.op == 4 && bit x.arg 5
  d.sramHeld x.src (if copy then s.copySize else if x.fed && decide (6 ≤ x.op) then 0 else opReads x.op x.len x.arg) || d.sramHeld x.dst (opWrites x.op) ||
    (x.op == 4 && !copy && d.busyBank == some (bits x.arg 4 1)) || (x.op == 5 && !x.fed && d.busyBank == some d.runBank)

/-- The running operation reads its input (R361): an uncorrectable error ends it. ATTEST writes its body then (R357), unless
the running header lies in the block of a suspended erase or has such an error (R331, R446). -/
def State.secFeed (s : State) : State :=
  let d := s.dev
  let x := d.sec
  let (d, bad) := d.sramSpan x.src (opReads x.op x.len x.arg)
  let input := if 6 ≤ x.op then s.opInput (opReads x.op x.len x.arg) else []
  let d := d.modSec fun y => { y with fed := true, input := input }
  if bad then { s with dev := d.secEnd opFailed 0x11 }
  else if x.op = 5 then
    let (d, bad) := d.flashSpan (bankAt d.runBank) 256
    if bad then { s with dev := d.secEnd opFailed 0x0E } else
    let s1 := { s with dev := d.setF SECURE_OPSTAT_PARTIALS 0 1 }
    s1.sramPut x.dst s1.attestBody
  else { s with dev := d }

/-- A write of SECURE_OPCMD with GO (R361, R362): refused while one runs; it ends FAILED at once where it is not allowed,
where a parameter is out of range, or where its key slot is empty. -/
def State.secStart (s : State) (op : Nat) : State :=
  let d := s.dev
  if d.sec.op != 0 then { s with dev := d.raise SECURE_FLAGS_OP_REJ } else
  let src := d.r SECURE_OPSRC
  let len := d.f SECURE_OPLEN_LEN
  let dst := d.r SECURE_OPDST
  let arg := d.r SECURE_OPARG
  let slot := bits arg 0 4
  let d := d.setR SECURE_OPSTAT 0 (opWord opRunning 0 0 0 false) |>.setB SECURE_STAT_BUSY 0 true
  let d := d.modSec fun x => { x with op := op, src := src, len := len, dst := dst, arg := arg, at_ := d.now, fed := false, input := [] }
  if !s.opAllowed op arg then { s with dev := d.secEnd opFailed 0x10 }
  else if s.opBadArg op src len dst arg then { s with dev := d.secEnd opFailed 0x11 }
  else if ((op = 1 && slot != 15) || op = 2) && (d.key slot).isEmpty then { s with dev := d.secEnd opFailed 0x12 }
  else if op = 5 && (d.key 4).isEmpty then { s with dev := d.secEnd opFailed 0x12 }
  else
    let s := { s with dev := d }
    if s.secWaits then s else s.secFeed

/-- The result window takes `l`, byte 4j in bits [7:0] of word j. -/
def Dev.setRes (d : Dev) (l : List Nat) : Dev :=
  d.each (List.range (l.length / 4)) fun j d => d.setR SECURE_RES j (leVal ((l.drop (4 * j)).take 4))

/-- KMAC ends. -/
def State.kmacEnd (s : State) : State :=
  let x := s.dev.sec
  let n := bits x.arg 8 8
  let all := s.opInput (opReads 1 x.len x.arg)
  let k := if bits x.arg 0 4 = 15 then (all.drop n).take 32 else s.dev.key (bits x.arg 0 4)
  let msg := all.drop (n + if bits x.arg 0 4 = 15 then 32 else 0)
  { s with dev := (s.dev.setRes (kmac256 k msg (if bit x.arg 6 then 64 else 32) (all.take n))).secEnd opDone 0 }

/-- KDF ends: slot 7 takes the key (R339). -/
def State.kdfEnd (s : State) : State :=
  let x := s.dev.sec
  { s with dev := (s.dev.setKey 7 (kdf (s.dev.key (bits x.arg 0 4)) (s.opInput x.len) [])).secEnd opDone 0 }

/-- VERIFY ends (R329). -/
def State.verifyEnd (s : State) : State :=
  let l := s.opInput s.dev.sec.len
  let why := falconVerify (l.take 1793) ((l.drop 1793).take 1280) (l.drop 3073)
  { s with dev := if why = 0 then s.dev.secEnd opDone 0 else s.dev.secEnd opFailed why }

/-- VERIFY_SLOT of the SRAM copy: header, tag table, public key and signature one after another (R351). -/
def State.verifyCopy (s : State) : State :=
  let a := s.dev.sec.src
  let h := s.mem.bytes 256 a
  let n := 32 * hdrNblk h
  let why := s.dev.headerWhy s.mem h false none
  if why != 0 then { s with dev := s.dev.secEnd opFailed why }
  else if !inSram a (256 + n + 3073) then { s with dev := s.dev.secEnd opFailed 0x11 }
  else
    let (d, bad) := s.dev.sramSpan a (256 + n + 3073)
    if bad then { s with dev := d.secEnd opFailed 0x11 } else
    let d := d.setRes ((h.drop 0x20).take 32)
    let key := s.mem.keyWhy (d.f SECURE_STAT_LC) h (some (s.mem.bytes 1793 (a + 256 + n)))
      (some (s.mem.bytes 1280 (a + 256 + n + 1793)))
    let why := lowerCode key (tableWhy h (s.mem.bytes n (a + 256)))
    { s with dev := if why = 0 then d.secEnd opDone 0 else d.secEnd opFailed why }

/-- VERIFY_SLOT of `bank` puts TABLE_DIGEST into its result window, once: when its first block is confirmed, or at its end
(R361); what PARTIALS counts does not change afterwards (R19). -/
def Dev.showDigest (d : Dev) (m : Mem) (bank : Nat) : Dev :=
  if d.f SECURE_OPSTAT_PARTIALS = 0 then d.setRes (m.bytes 32 (bankAt bank + 0x20)) else d

/-- VERIFY_SLOT ends (R331, R335, R361). -/
def State.verifySlotEnd (s : State) : State :=
  if bit s.dev.sec.arg 5 then s.verifyCopy else
  let bank := bits s.dev.sec.arg 4 1
  let (d, why) := s.dev.checkHeader s.mem bank
  if why != 0 then { s with dev := d.secEnd opFailed why } else
  let k := d.f SECURE_OPSTAT_PARTIALS
  let d := d.showDigest s.mem bank
  let (d, v) := d.verifyBank s.mem bank
  let d := d.setF SECURE_OPSTAT_PROGRESS 0 (max k v.done) |>.setF SECURE_OPSTAT_PARTIALS 0 (max k v.done)
  { s with dev := if v.why = 0 then (d.sealSet s.mem bank).secEnd opDone 0 else d.secEnd opFailed v.why }

/-- The identity private key as its information row holds it, wrapped (R344). -/
def Mem.wrapped (m : Mem) : List Nat := m.bytes 2337 0x08801400

/-- ATTEST ends: the signature of the identity key over the body (R356) in the padded format (R329). The spec does not
determine its nonce and coefficients: they are free, and that they verify is a fact about the key which the model does not
impose on them (UNVERIFIED, log 1). -/
def State.attestEnd (s : State) : State :=
  let d := s.dev
  let bytes := falconBytes (Config.identitySign s.mem.wrapped (ascii "SK7216 ATTEST" ++ s.mem.bytes 256 d.sec.dst) d.free)
  let s := State.sramPut { s with dev := { d with free := d.free + 1 } } (d.sec.dst + 256) bytes
  { s with dev := (s.dev.setF SECURE_OPSTAT_PARTIALS 0 2).secEnd opDone 0 }

/-- The return token at OPSRC, a public key and a signature by the manufacturing key (R345): the code of R331 by which it
fails, 0 when it is good. -/
def State.tokenWhy (s : State) : Nat :=
  let tok := s.dev.sec.input
  let chal := (List.range 8).flatMap fun j => leBytes 4 (s.dev.r SECURE_DBGCHAL j)
  if pubDigest (tok.take 1793) != s.mem.digestOf 0x80 then 0x08
  else falconVerify (tok.take 1793) ((tok.drop 1793).take 1280) (ascii "SK7216 RETURN" ++ s.mem.certDigest ++ chal)

/-- The verify of the digest that OWNER_KEY programs fails: its entry has a bit set that the digest has not (R453, R454). -/
def State.pkdClash (s : State) : Bool :=
  let i := bits s.dev.sec.arg 0 4
  (List.range 32).any fun k =>
    let v := s.dev.sec.input.getD k 0
    (s.mem.read (ownerAddr i + k) ||| v) != v

/-- The fuse and OTP bits that operation `op` programs, in order (R340, R345, R453, R454): none without a good return token
where one is needed; the WRITTEN bits of an owner entry only after its digest has been verified. An advance to RETURNED takes
the fuses of G2 and G3 by turns (DEDUCED from R343, log 80). -/
def State.fuseSteps (s : State) (op : Nat) : List (Nat × Nat) :=
  let arg := s.dev.sec.arg
  let act := bits arg 28 3
  if op = 6 then
    ((List.range 511).filter fun k => s.mem.step k != 3).take (bits arg 16 9 - s.mem.minver) |>.map fun k =>
      (0x08801004 + k / 4, 3 * 2 ^ (2 * (k % 4)))
  else if op = 7 && act = 3 && s.tokenWhy != 0 then []
  else if op = 7 then
    let groups := if act = 3 then (List.range 8).flatMap fun b => [(0x08801001, 2 ^ b), (0x08801002, 2 ^ b)]
      else (List.range 8).map fun b => (0x08801000 + (act - 1), 2 ^ b)
    let rows := if act = 2 then [] else
      (List.range 32).map (0x08801200 + ·) ++ (List.range 32).map (0x08801240 + ·) ++ (List.range 2560).map (0x08801400 + ·)
    groups ++ rows.map fun a => (a, 0xFF)
  else if op = 9 then
    let a := ownerAddr (bits arg 0 4)
    if act = 1 then
      let pkd := (List.range 32).map fun k => (a + k, s.dev.sec.input.getD k 0)
      if s.pkdClash then pkd else pkd ++ [(a + 32, 0x0F)]
    else if act = 2 then (List.range 4).map fun b => (a + 32, 2 ^ (4 + b))
    else (List.range 4).map fun b => (a + 33, 2 ^ b)
  else []

/-- The steps of PROVISION in order (R344, R345, R453): DR, VR and the wrapped identity key, whose values the entropy source
gives, then the fuses of G1. -/
def Dev.provisionSteps (d : Dev) : List (Nat × Nat) × Dev :=
  let (dr, d) := d.freshBytes 32
  let (vr, d) := d.freshBytes 32
  let (id_, d) := d.freshBytes 2337
  let at_ := fun (a : Nat) (l : List Nat) => l.zipIdx.map fun x => (a + x.2, x.1)
  (at_ 0x08801200 dr ++ at_ 0x08801240 vr ++ at_ 0x08801400 id_ ++ (List.range 8).map fun b => (0x08801000, 2 ^ b), d)

/-- What a fuse operation that is cut short has programmed, by an abort, a tamper or a reset: it stops between steps, and how
many it has made is free (R362); none where it still waits for its input (R391). -/
def State.secCut (s : State) : State :=
  let op := s.dev.sec.op
  if op < 6 || !s.dev.sec.fed then s else
  let (st, d) := if op = 8 then s.dev.provisionSteps else (s.fuseSteps op, s.dev)
  let (k, d) := d.fresh 12
  let k := k % (st.length + 1)
  let k := if op = 7 && bits d.sec.arg 28 3 = 3 then k + k % 2 else k
  { s with dev := d, mem := (st.take k).foldl Mem.burn s.mem }

/-- The public key of the identity key that `row` holds wrapped, encoded by R329; its coefficients are free (assumption 1). -/
def publicKey (row : List Nat) : List Nat :=
  let l := (List.range 1024).flatMap fun i => msbBits 14 (Config.identityPublic row i % falconQ)
  0x0A :: (List.range 1792).map fun i => bitsVal ((l.drop (8 * i)).take 8)

/-- PROVISION ends: the rows, G1, the public key at OPDST and an LC_CHANGE entry (R344, R345). -/
def State.provisionEnd (s : State) : State :=
  let (st, d) := s.dev.provisionSteps
  let m := st.foldl Mem.burn s.mem
  let s := State.sramPut { s with dev := d, mem := m } d.sec.dst (publicKey m.wrapped)
  { s with dev := (s.dev.post 0 0x208 0xFF [lcBlank, lcProvisioned]).secEnd opDone 0 }

/-- MINVER_RAISE, LC_ADVANCE or OWNER_KEY ends with every fuse programmed. -/
def State.fusesEnd (s : State) : State :=
  let d := s.dev
  let op := d.sec.op
  let act := bits d.sec.arg 28 3
  if op = 7 && act = 3 && s.tokenWhy != 0 then { s with dev := d.secEnd opFailed s.tokenWhy }
  else if op = 9 && act = 1 && s.pkdClash then
    { s with dev := d.secEnd opFailed 0x15, mem := (s.fuseSteps op).foldl Mem.burn s.mem }
  else
    let old := s.mem.minver
    let m := (s.fuseSteps op).foldl Mem.burn s.mem
    let d := if op = 6 then (d.setR SECURE_MINVER 0 m.minver).post 1 0x207 0xFF [old, m.minver]
      else if op = 7 then d.post 0 0x208 0xFF [d.f SECURE_STAT_LC, act] else d
    { s with dev := d.secEnd opDone 0, mem := m }

/-- SECURE_OP_END: the running operation completes; not while it waits for memory. `why` 1 is a fuse or OTP program that
fails, 2 an entropy source that fails, 0 neither (R362). -/
def State.secOpEnd (s : State) (why : Nat) : State :=
  let op := s.dev.sec.op
  if op = 0 || s.secWaits then s else
  let s := if s.dev.sec.fed then s else s.secFeed
  if s.dev.sec.op = 0 then s
  else if why = 1 && decide (6 ≤ op) && (op = 8 || !(s.fuseSteps op).isEmpty) then
    let s := s.secCut
    { s with dev := s.dev.secEnd opFailed 0x15 }
  else if why = 2 && (op = 5 || op = 8) then
    { s with dev := (s.dev.setB SECURE_STAT_ENTROPY_OK 0 false).secEnd opFailed 0x16 }
  else if op = 1 then s.kmacEnd
  else if op = 2 then s.kdfEnd
  else if op = 3 then s.verifyEnd
  else if op = 4 then s.verifySlotEnd
  else if op = 5 then s.attestEnd
  else if op = 8 then s.provisionEnd
  else s.fusesEnd

/-- SECURE_OPCMD.ABORT (R20, R21, R362). -/
def State.secAbort (s : State) : State :=
  let op := s.dev.sec.op
  if op = 0 then
    if s.dev.f SECURE_OPSTAT_STATE = opDone then { s with dev := s.dev.setB SECURE_OPSTAT_ABORT_LATE 0 true } else s
  else
    let s := s.secCut
    { s with dev := s.dev.secEnd opAborted 0x13 }

/-- A write of SECURE_OPCMD (R360). -/
def State.secOpcmd (s : State) (v : Nat) : State :=
  if bit v 8 then s.secStart (bits v 0 4) else if bit v 9 then s.secAbort else s

/-- The bus write that starts an operation. -/
def State.secWrite (s : State) (v : Nat) : Outcome := s.live fun s => State.secOpcmd { s with dev := s.dev.busOk } v

def execKmac (s : State) : Outcome := s.secWrite 0x101
def execKdf (s : State) : Outcome := s.secWrite 0x102
def execVerify (s : State) : Outcome := s.secWrite 0x103
def execVerifySlot (s : State) : Outcome := s.secWrite 0x104
def execAttest (s : State) : Outcome := s.secWrite 0x105
def execMinverRaise (s : State) : Outcome := s.secWrite 0x106
def execLcAdvance (s : State) : Outcome := s.secWrite 0x107
def execProvision (s : State) : Outcome := s.secWrite 0x108
def execOwnerKey (s : State) : Outcome := s.secWrite 0x109
def execSecureOpEnd (why : Fin 3) (s : State) : Outcome := s.live fun s => s.secOpEnd why
def execSecureOpAbort (s : State) : Outcome := s.secWrite 0x200

/-! ### Debug (R346, R347) -/

/-- A new challenge is drawn from the entropy source. -/
def Dev.drawChallenge (d : Dev) : Dev :=
  let (l, d) := d.freshBytes 32
  d.each (List.range 8) fun j d => d.setR SECURE_DBGCHAL j (leVal ((l.drop (4 * j)).take 4))

/-- The response of an authenticated unlock is good (R347): an owner key with DEBUG set signed the challenge. -/
def State.unlockOk (s : State) (k : Nat) (pk sig : List Nat) : Bool :=
  let chal := (List.range 8).flatMap fun j => leBytes 4 (s.dev.r SECURE_DBGCHAL j)
  decide (k < 4) && s.mem.written k && !s.mem.revoked k && s.mem.debugKey k && pubDigest pk == s.mem.pkd k &&
    falconVerify pk sig (ascii "SK7216 DEBUG" ++ chal ++ s.mem.certDigest) == 0

/-- DEBUG_UNLOCK (R347): outside its precondition the mailbox does nothing. -/
def execDebugUnlock (keyidx : Byte) (pk sig : List Byte) (s : State) : Outcome := s.live fun s =>
  let d := s.dev
  if d.f SECURE_STAT_LC != lcSecured || d.f SECURE_STAT_DBG != 0 || d.sec.tries ≥ 3 then s
  else if s.unlockOk keyidx.toNat (pk.map BitVec.toNat) (sig.map BitVec.toNat) then
    let d := (d.setF SECURE_STAT_DBG 0 2).modSec fun x => { x with openAuth := true }
    let d := ((d.sealClear 0).sealClear 1).raise SECURE_FLAGS_DEBUG_OPEN
    { s with dev := d.post 1 0x205 0xFF [keyidx.toNat] }
  else
    let d := (d.modSec fun x => { x with tries := x.tries + 1 }).setF SECURE_STAT_DBG_TRIES 0 (d.sec.tries + 1)
    let d := d.drawChallenge.raise SECURE_FLAGS_DEBUG_DENIED
    { s with dev := d.post 1 0x206 0xFF [d.sec.tries] }

/-- PROGRESS and PARTIALS of a VERIFY_SLOT that runs count the blocks confirmed so far, one every 1,604 cycles of CCLK after
the header, the key and the table (R333, R361). DESIGN CHOICE (log 80): these longest times of R333. -/
def State.verifyTick (s : State) : State :=
  let d := s.dev
  let x := d.sec
  if d.mode.dormant || x.op != 4 || bit x.arg 5 then s else
  let j := d.f SECURE_OPSTAT_PROGRESS
  let a := bankAt (bits x.arg 4 1)
  if d.now < x.at_ + (2020 + 1604 * (j + 1)) * d.cclk || s.secWaits then s else
  let h := s.mem.bytes 256 a
  let table := 32 * hdrNblk h
  if (d.checkHeader s.mem (bits x.arg 4 1)).2 != 0 || j ≥ hdrNblk h || (d.flashSpan (a + 0x1F8000) table).2 then s else
  match (d.checkBlocks s.mem a h (s.mem.bytes table (a + 0x1F8000)) [j] j).2.2 with
  | none => { s with dev := ((d.showDigest s.mem (bits x.arg 4 1)).setF SECURE_OPSTAT_PROGRESS 0 (j + 1)).setF SECURE_OPSTAT_PARTIALS 0 (j + 1) }
  | some _ => s

/-- JTAG_PIN_DRIVE (R346): `levels` holds the cells of the boundary-scan register, one for each of its 112 balls (R556);
while any rail is ENABLED the instruction acts as BYPASS. -/
def execJtagPinDrive (levels : BitVec 112) (s : State) : Outcome := s.onDev fun d =>
  d.modSec fun x => { x with jtagDrive := if d.anyEnabled then none else some levels.toNat }

/-- Core debug is allowed (R346). -/
def Dev.debugOpen (d : Dev) : Bool := d.f SECURE_STAT_DBG = 1 || d.f SECURE_STAT_DBG = 2

/-! ### Tamper (R348, R349) -/

/-- A tamper detection by source bit `k` (R349). -/
def Dev.tamper (d : Dev) (k : Nat) : Dev :=
  let d := (d.modSec fun x => { x with keys := .ofFn fun i => if i < 2 then x.keys.getD i [] else []
                                       tampers := x.tampers + 1, romDone := true }).showSlots
  let d := d.each (List.range 16) fun j d => d.setR SECURE_RES j 0
  let d := if d.sec.op != 0 then d.secEnd opFailed 0x14 else d
  let d := (d.sealClear 0).sealClear 1
  let d := d.setF SECURE_TAMPER_SOURCE 0 (d.f SECURE_TAMPER_SOURCE ||| 2 ^ k) |>.setF SECURE_TAMPER_COUNT 0 (min 255 d.sec.tampers)
  let d := (d.raise SECURE_FLAGS_TAMPER).post 0 0x204 0xFF [d.r SECURE_TAMPER]
  d.enterSafe ccTamper 0

/-- A tamper detection takes effect; a fuse operation that runs is cut short. -/
def State.tamperNow (s : State) (k : Nat) : State :=
  let s := s.secCut
  State.boundary { s with dev := s.dev.tamper k }

/-- TAMPER (R348, R349): watched from the end of step 1 of the ROM, FUSE during it too; CGLITCH only while the system domain
runs from the PLL. -/
def execTamper (source : Fin 4) (s : State) : Outcome := s.live fun s =>
  if (source = 1 && s.dev.fabricStopped) || (source != 2 && s.dev.sec.boots = 0) then s else s.tamperNow source

end Sys2Proof.Machine
end

