-- ==== Sys2Proof/Machine/Boot.lean ====
section
/-! DEFINITION. The Keaquavik ROM (R326-R341, R353): step 1 at the release of a reset, steps 3 to 8 once the PLL is
locked. The ROM's instructions are no commands: its effects come about whole, in the command that starts them. -/
namespace Sys2Proof.Machine

/-- The latest reset was a power-on reset: its cause is POR_FALL or a brown-out code (R305). -/
def Dev.coldBoot (d : Dev) : Bool := d.f SYSCTL_RESETCAUSE_CAUSE ≤ ccPorFall

/-- The state of the debug port that the ROM sets (R346). -/
def Dev.setDebug (d : Dev) : Dev :=
  let lc := d.f SECURE_STAT_LC
  d.setF SECURE_STAT_DBG 0 (if lc = lcSecured then (if d.sec.openAuth then 2 else 0) else if lc = lcScrapped then 3 else 1)

/-- The boot ends in SAFE with cause BOOT_FAIL (R334, R338). -/
def Dev.bootFail (d : Dev) : Dev :=
  let d := (d.setDebug.modSec fun x => { x with romDone := true })
  (d.post 0 0x203 0xFF [d.r SECURE_BOOTBAD]).enterSafe ccBootFail 0

/-- A slot has failed with `why`: SECURE_BOOTBAD and a SLOT_INVALID entry (R358, R360). -/
def Dev.slotBad (d : Dev) (bank why block : Nat) : Dev :=
  let d := d.setR SECURE_BOOTBAD 0 (why + block % 256 * 2 ^ 8 + bank * 2 ^ 16 + 2 ^ 17)
  d.post 1 0x202 bank [why, block]

/-! ### Step 1 (R333, R343, R456) -/

/-- SRAM is to be initialised at this boot, the header's SRAM_CLEAR apart (R336); `tamper` says that the reset left a SAFE
entered by a tamper. -/
def Dev.sramLost (d : Dev) (tamper : Bool) : Bool :=
  d.coldBoot || tamper || d.mode.lastSafe == ccLockstep || d.f SECURE_STAT_LC == lcReturned ||
    (d.f SYSCTL_RESETCAUSE_CAUSE == ccDebugReset && d.f SECURE_STAT_LC == lcSecured)

/-- Step 1: the fuses are completed and decoded, a FUSE mismatch is a tamper; a wrong factory calibration or SCRAPPED ends
the boot. BOOTREC.SRAM_KEPT already holds what R336 decides without a header. -/
def State.romStep1 (s : State) (tamper : Bool) : State :=
  let m := s.mem.completeFuses
  let d := if s.dev.coldBoot then s.dev.flashScan m else s.dev
  let d := (d.setF SECURE_STAT_BOOTSTEP 0 1).drawChallenge
  let d := d.modSec fun x => { x with boots := x.boots + 1, romDone := false, romAt := d.now }
  let d := (d.setF SECURE_STAT_LC 0 m.lifecycle).setR SECURE_MINVER 0 m.minver
  let d := d.setR SECURE_BOOTREC 0 0 |>.setB SECURE_BOOTREC_SRAM_KEPT 0 (!d.sramLost tamper)
  let s := { s with mem := m }
  if m.fuseWrong then { s with dev := d.tamper 2 }
  else if !d.b FLASHC_STAT_FCAL_OK || m.lifecycle = lcScrapped then { s with dev := d.bootFail }
  else { s with dev := d.setF SECURE_STAT_BOOTSTEP 0 2 }

/-! ### Steps 3 to 5 -/

/-- SRAM from `a` to `b` reads 0, with its error correction valid (R336). -/
def State.clearSram (s : State) (a b : Nat) : State :=
  let hit := fun k : Nat => decide (a ≤ k) && decide (k < b)
  { s with mem := s.mem.drop hit
           dev := s.dev.modFlash fun f => { f with ce := f.ce.filter (!hit ·), ue := f.ue.filter (!hit ·) } }

/-- Step 4: slots 0, 1, 4 and 6; in BLANK and RETURNED they stay empty (R339). -/
def State.romKeys (s : State) : State :=
  let lc := s.dev.f SECURE_STAT_LC
  if lc = lcBlank || lc = lcReturned then
    { s with dev := (s.dev.modSec fun x => { x with keys := .replicate 8 [] }).showSlots }
  else
    let dr := s.mem.bytes 32 0x08801200
    let vr := s.mem.bytes 32 0x08801240
    let d := s.dev.modSec fun x =>
      { x with keys := #v[dr, vr, [], [], kdf dr (ascii "IDWRAP") [], [], kdf dr (ascii "SEAL") [], []] }
    { s with dev := d.showSlots }

/-- Step 5: the banks whose headers pass, in the order of R332; each that fails is recorded. -/
def Dev.candidates (d : Dev) (m : Mem) : Dev × List Nat :=
  let (d, a) := d.checkHeader m 0
  let d := if a = 0 then d else d.slotBad 0 a 0
  let (d, b) := d.checkHeader m 1
  let d := if b = 0 then d else d.slotBad 1 b 0
  let sa := hdrSeq (m.bytes 256 (bankAt 0))
  let sb := hdrSeq (m.bytes 256 (bankAt 1))
  (d, if a = 0 && b = 0 then (if sb > sa then [1, 0] else [0, 1]) else if a = 0 then [0] else if b = 0 then [1] else [])

/-! ### Step 6 (R333, R335) -/

/-- The seal of `bank` stands in place of the full verification (R335). -/
def Dev.sealHolds (d : Dev) (m : Mem) (bank : Nat) : Bool :=
  !d.coldBoot && d.b (if bank = 0 then SECURE_STAT_SEAL_A else SECURE_STAT_SEAL_B) &&
    d.sec.sealTag.getD bank [] == d.sealOf (m.bytes 256 (bankAt bank))

/-! ### Step 7 (R339, R341, R346, R353) -/

/-- BD_INSTJ0 becomes `w`, and JCRC follows (R350). -/
def Dev.journalPut (d : Dev) (w : Nat) : Dev :=
  let d := d.setR BD_REG 10 w
  d.setR BD_REG 15 (crc32c ((List.range 5).flatMap fun j => leBytes 4 (d.r BD_REG (10 + j))))

/-- The trial of a committing image (R353): whether the slot may boot. -/
def Dev.trial (d : Dev) (bank seq : Nat) : Dev × Bool :=
  let w := d.r BD_REG 10
  let n := bits w 8 8
  if d.journalState != 5 || !d.journalFor bank seq then (d, true)
  else if n < 3 then
    let d := (d.journalPut (putBits w 8 8 (n + 1))).setB SECURE_BOOTREC_TRIAL 0 true
    (d.post 3 0x209 bank [seq, n + 1], true)
  else
    let d := d.journalPut (putBits w 0 4 7)
    (d.post 1 0x20A bank [seq, 0xFFFFFFFF], false)

/-- Slots 2, 3 and 5 for the booted header (R339). -/
def Dev.romDerive (d : Dev) (m : Mem) (h : List Nat) : Dev :=
  if (d.key 1).isEmpty then d else
  let v := m.minver
  let nx := hdrF h 0x12 2
  let vb := fun k => kdf (d.key 1) (ascii "VBIND") (leBytes 2 k)
  let d := d.setKey 2 (vb v)
  let d := if v < nx && nx ≤ hdrF h 0x10 2 then d.setKey 3 (vb nx) else d
  d.setKey 5 (kdf (d.key 0) (ascii "OWNER") (m.digestOf (hdrKeyIdx h)))

/-- Core `pc` and `g0` at the firmware's start (R411). -/
def coreAtFirmware (lock : Bool) (base entry : Nat) : CoreSt :=
  { coreAtRom with g := #v[BitVec.ofNat 32 base, 0, 0, 0, 0, 0, 0, 0, 0, 0, 0, 0, 0, 0, 0, 0], pc := BitVec.ofNat 32 (base + entry)
                   psr := if lock then 0x4001 else 0x0001 }

/-- Steps 7 and 8 for the slot that boots: keys, locks, debug state, boot record, the BOOT_DONE entry, the ROM work area,
and the handover (R337). The time the ROM took is not determined: BOOTTIME is a free value. -/
def State.handover (s : State) (bank : Nat) (warm fallback : Bool) : State :=
  let h := s.mem.bytes 256 (bankAt bank)
  let clear := bit (hdrF h 0x1D 1) 0
  let s := if clear then s.clearSram 0x20000000 0x20080000 else s
  let d := s.dev
  let d := if clear then d.setB SECURE_BOOTREC_SRAM_KEPT 0 false else d
  let d := (d.romDerive s.mem h).showSlots
  let d := (if d.f SECURE_STAT_LC = lcSecured then d.setB SECURE_CTRL_LOCK 0 true else d).setDebug
  let d := d.setF SECURE_BOOTREC_BANK 0 bank |>.setB SECURE_BOOTREC_WARM 0 warm |>.setB SECURE_BOOTREC_FALLBACK 0 fallback
  let d := d.setF SECURE_BOOTREC_KEYIDX 0 (hdrKeyIdx h)
  let d := (d.setR SECURE_BOOTSEQ 0 (hdrSeq h)).setR SECURE_BOOTSVN 0 (hdrF h 0x10 4)
  let (t, d) := d.fresh 20
  let d := (d.setR SECURE_BOOTTIME 0 t).setF SECURE_STAT_BOOTSTEP 0 8
  let d := d.post 3 0x201 bank [hdrSeq h, d.r SECURE_BOOTREC, t]
  let s := State.clearSram { s with dev := d } 0x2007E000 0x20080000
  let d := (s.dev.setF SYSCTL_MODE_MODE 0 modeConfigure).setR CORE_VBASE 0 (bankAt bank)
  let d := d.modSec fun x => { x with romDone := true }
  let x := coreAtFirmware d.lockstep (bankAt bank) (hdrF h 0x18 4)
  let d := d.modCpu fun u =>
    { u with a := { x with run := !d.b CORE_STAT_FENCED_A }, b := { x with run := !d.b CORE_STAT_FENCED_B } }
  { s with dev := d.checkpoint.enumStart }

/-- Steps 6 to 8 over the candidates, the first of them first (R332, R338, R353). -/
def State.romTry (s : State) (first : Option Nat) : List Nat → State
  | [] => { s with dev := s.dev.bootFail }
  | bank :: t =>
    let warm := s.dev.sealHolds s.mem bank
    let x : Dev × Verdict := if warm then (s.dev, ⟨0, 0, 0⟩) else s.dev.verifyBank s.mem bank
    let d := x.1
    if x.2.why != 0 then State.romTry { s with dev := d.slotBad bank x.2.why x.2.block } first t
    else
      let d := if warm then d else d.sealSet s.mem bank
      let (d, ok) := d.trial bank (hdrSeq (s.mem.bytes 256 (bankAt bank)))
      if ok then State.handover { s with dev := d } bank warm (first != some bank)
      else State.romTry { s with dev := d.slotBad bank 0x06 0 } first t

/-- Steps 3 to 8 (R333), once the PLL is locked. -/
def State.rom (s : State) : State :=
  let s := if s.dev.b SECURE_BOOTREC_SRAM_KEPT then s else s.clearSram 0x20000000 0x20080000
  let s := s.romKeys
  let (d, l) := s.dev.candidates s.mem
  State.romTry { s with dev := d.setF SECURE_STAT_BOOTSTEP 0 6 } l.head? l

/-- The ROM from step 1 after a reset; it waits in step 2 while the PLL is not locked (R334). -/
def State.romStart (s : State) (tamper : Bool) : State :=
  let s := s.romStep1 tamper
  if s.dev.sec.romDone || !s.dev.b SYSCTL_CLK_PLL_LOCK then s else s.rom

/-- PLL_LOCK (R25, R334): the system domain moves to the PLL, and a boot in progress continues from step 3. -/
def execPllLock (s : State) : Outcome := s.live fun s =>
  let d := (s.dev.setB SYSCTL_CLK_PLL_LOCK 0 true).setB SYSCTL_CLK_SRC 0 true
  let d := d.modChain fun c => { c with pllOk := true, lockAt := if c.pllOk then c.lockAt else d.now }
  let s := { s with dev := d }
  if s.dev.modeNow != modeBoot || s.dev.sec.romDone then s
  else if s.dev.f SECURE_STAT_BOOTSTEP = 2 then s.rom
  else s.romStart false

/-- BOOT_PLL_TIMEOUT (R334): on the root only, 10 ms after the start of step 1; before that nothing happens. -/
def execBootPllTimeout (s : State) : Outcome := s.onDev fun d =>
  if d.b SYSCTL_CLK_ROOT && d.modeNow == modeBoot && !d.sec.romDone && !d.b SYSCTL_CLK_PLL_LOCK &&
      d.sec.romAt + 4000000 ≤ d.now then
    (d.setDebug.modSec fun x => { x with romDone := true }).enterSafe ccBootFail 0
  else d

end Sys2Proof.Machine
end

