-- ==== Sys2Proof/Machine/Girth.lean ====
section
/-! DEFINITION. The reason codes of the girth check in the order of R559: what each code judges (R230-R243, R249-R252,
R559). -/
namespace Sys2Proof.Machine

/-- A check in progress: its source, the plane and the rail it names, and the levels of the EN pins. -/
structure Chk where
  d : Dev
  m : Mem
  src : Nat
  plane : Nat
  rail : Nat
  en : Nat

/-- A failure: code, section, detail. -/
abbrev Fail := Nat × Nat × Nat

/-- No section is concerned (R256). -/
abbrev noSect : Nat := 0x40

/-! ### What the request concerns (R244) -/

/-- Fabric enable, device swap, device dry run: every section of the plane. -/
def Chk.whole (c : Chk) : Bool := c.src == srcFabric || c.src == srcDevSwap || c.src == srcDevDry

/-- The transition checks apply (R244). -/
def Chk.swap (c : Chk) : Bool := 2 ≤ c.src && c.src ≤ 5

/-- A rail enable. -/
def Chk.enable (c : Chk) : Bool := srcRail ≤ c.src && c.src < srcRail + 8

/-- A stitch start. -/
def Chk.stitch (c : Chk) : Bool := srcStitch ≤ c.src && c.src < srcStitch + 8

/-- The directory of the plane. -/
def Chk.all (c : Chk) : List Ent := dirList c.m c.plane

/-- The sections the request concerns, in directory order. -/
def Chk.secs (c : Chk) : List Ent :=
  c.all.filter fun e =>
    if c.whole then true
    else if c.stitch then (e.typ == 1 && e.index == 0) || (e.typ == 6 && e.index == c.src - srcStitch)
    else (e.typ == 2 || e.typ == 3 || e.typ == 4 || e.typ == 5 || e.typ == 8) && e.index == c.rail

/-- The concerned sections of a type. -/
def Chk.ofTyp (c : Chk) (t : Nat) : List Ent := c.secs.filter fun e => e.typ == t

/-- The concerned section of a type and index. -/
def Chk.sec (c : Chk) (t i : Nat) : Option Ent := findSec c.secs t i

/-- Its directory index, or none. -/
def Chk.slot (c : Chk) (t i : Nat) : Nat := ((c.sec t i).map (·.dir)).getD noSect

/-- The rails judged: those the plane holds, in the directory order of their TOPOLOGY, or the one named. -/
def Chk.rails (c : Chk) : List Nat :=
  if c.whole then (c.ofTyp 2).map (·.index) else if c.stitch then [] else [c.rail]

/-- A dry run while nothing is in force: the named plane's other sections stand in (R244). -/
def Chk.standIn (c : Chk) : Bool := c.src == srcRailDry && !c.d.b CFG_STAT_FABRIC_ON

/-- The plane whose device sections govern, if any (R244). -/
def Chk.devPlane (c : Chk) : Option Nat :=
  if c.whole || c.standIn || c.stitch then some c.plane
  else if c.d.b CFG_STAT_FABRIC_ON then some (c.d.f CFG_STAT_DEV_PLANE) else none

/-- The governing PINMAP: its plane and entry. -/
def Chk.pinmap (c : Chk) : Option (Nat × Ent) :=
  c.devPlane.bind fun p => (findSec (dirList c.m p) 1 0).map fun e => (p, e)

/-- Byte `o` of the governing PINMAP. -/
def Chk.pm (c : Chk) (o : Nat) : Nat :=
  match c.pinmap with
  | some (p, e) => pByte c.m p (e.off + o)
  | none => 0

/-- Slice `i` is PRESENT. Without a governing PINMAP nothing is judged against it. -/
def Chk.present (c : Chk) (i : Nat) : Bool := c.pinmap.isNone || (i < 32 && bit (c.pm i) 0)

/-- FUNC and SEL of pin `j` (R235). -/
def Chk.func (c : Chk) (j : Nat) : Nat := bits (c.pm (0x20 + j)) 0 4
def Chk.sel (c : Chk) (j : Nat) : Nat := bits (c.pm (0x20 + j)) 4 3

/-- Byte `o` of a section of the plane. -/
def Chk.byte (c : Chk) (e : Ent) (o : Nat) : Nat := pByte c.m c.plane (e.off + o)

/-- A little-endian field of a section. -/
def Chk.le (c : Chk) (e : Ent) (o n : Nat) : Nat := pLe c.m c.plane (e.off + o) n

/-- Positions and spares a TOPOLOGY names, 0xFF entries left out. -/
def Chk.members (c : Chk) (p : Nat) (e : Ent) : List Nat × List Nat :=
  let t := topoOf c.m p e
  (t.1.filter (· != 0xFF), t.2.filter (· != 0xFF))

/-- The TOPOLOGY of every rail after the request (R244): the judged rails', and in rail scope the other rails' in force. -/
def Chk.topos (c : Chk) : List (Nat × List Nat × List Nat) :=
  (List.range 8).filterMap fun n =>
    if c.rails.contains n then (c.sec 2 n).map fun e => (n, c.members c.plane e)
    else if c.whole then none
    else
      let p := if c.standIn then c.plane else c.d.activePlane n
      if c.standIn || c.d.b CFG_STAT_FABRIC_ON then (findSec (dirList c.m p) 2 n).map fun e => (n, c.members p e) else none

/-- Rail and role of slice `i` after the request; rail 8 stands for none. -/
def Chk.newRole (c : Chk) (i : Nat) : Nat × Nat :=
  ((c.topos.findSome? fun t =>
    if t.2.1.contains i then some (t.1, roleMember) else if t.2.2.contains i then some (t.1, roleSpare) else none)).getD
    (8, roleNone)

/-- Rail and role of slice `i` now. -/
def Chk.oldRole (c : Chk) (i : Nat) : Nat × Nat :=
  if c.d.sRole i = roleNone then (8, roleNone) else (c.d.sRail i, c.d.sRole i)

/-- The request decides the role of slice `i`. -/
def Chk.decides (c : Chk) (i : Nat) : Bool := c.whole || (c.oldRole i).1 == c.rail || (c.newRole i).1 == c.rail

/-- The failure of one code over a list: the one in the section of lowest directory index, the first of several there
(R559). -/
def failAt {α : Type} (code : Nat) (l : List α) (bad : α → Bool) (sect det : α → Nat) : Option Fail :=
  (l.filter bad).foldl (fun best x =>
    if best.any fun f => f.2.1 ≤ sect x then best else some (code, sect x, det x)) none

/-- The first failure of tests made in order. -/
def firstFail (l : List (Unit → Option Fail)) : Option Fail := l.findSome? fun f => f ()

/-! ### Records (R238-R240) -/

/-- A record with its section and its number. -/
structure RecAt where
  e : Ent
  k : Nat
  r : Rec
  deriving DecidableEq, Repr

/-- Every concerned record, in directory order (R559). -/
def Chk.recs (c : Chk) : List RecAt :=
  (c.secs.filter fun e => e.typ == 4 || e.typ == 5).flatMap fun e =>
    (recsOf c.m c.plane (some e)).zipIdx.map fun x => ⟨e, x.2, x.1⟩

/-- The value an image gives the register at (SPACE, offset) of rail `n`; 0 where no record names it (R240). -/
def Chk.val (c : Chk) (n space off : Nat) : Nat :=
  ((c.recs.find? fun x => x.e.index == n && x.r.space == space && x.r.off == off).map fun x => x.r.value).getD 0

/-- Some record of rail `n` names a rail register. -/
def Chk.has (c : Chk) (n off : Nat) : Bool := c.recs.any fun x => x.e.index == n && x.r.space == 0 && x.r.off == off

/-- The image registers of each space, by offset (R239). -/
def imageOffs (space : Nat) : List Nat :=
  match space with
  | 0 => railImageOffs
  | 1 => [0x0, 0x4]
  | 2 => [0x0, 0x4, 0x8, 0xC, 0x10, 0x14]
  | 3 => [0x80, 0x84, 0x88]
  | 4 => [0xC0, 0xC4]
  | 5 => [0x0]
  | 6 => [0x100, 0x104]
  | _ => []

/-- The protection registers (R239). -/
def protectOffs : List Nat := [0x084, 0x08C, 0x288, 0x28C, 0x290, 0x294]

/-- A section may use a space (R239). -/
def spaceAllowed (device protect : Bool) (space : Nat) : Bool :=
  match device, protect with
  | false, false => space ≤ 3
  | false, true => space == 0
  | true, false => space == 3 || space == 5 || space == 6
  | true, true => space == 4

/-- A basic register and the expert register derived from it (R240). -/
def derivedPair (a b : Nat) : Bool :=
  (a, b) == (0x010, 0x108) || (a, b) == (0x108, 0x010) || (a, b) == (0x014, 0x10C) || (a, b) == (0x10C, 0x014) ||
    (a, b) == (0x044, 0x248) || (a, b) == (0x248, 0x044)

/-- The bits of an image register that its field table lists, which are not reserved (R12, R252): those a write stores,
HMRAIL_CTRL.CLEAR (WO), HM_CTRL.EXPERT (RO) and HMRAIL_XSIGCLASS (RO) besides. -/
def imageMask (x : Rec) : Nat :=
  let stored := ((regAt (x.addr 0)).map fun g => g.1.wmask).getD 0
  if x.space = 2 && x.off = 0x14 then 0xFFFF
  else if x.space = 1 && x.off = 0 then stored ||| 0x8
  else if x.space = 5 && x.off = 0 then stored ||| 0x4
  else stored

/-- A value that R55, R147 or a field's stated range refuses. Fields whose table says what an outside value acts as have no
refused values. -/
def valueBad (x : Rec) : Bool :=
  let v := x.value
  if x.space = 0 then
    match x.off with
    | 0x00C => bits v 0 16 < 0x04B0 || bits v 0 16 > 0x1F40
    | 0x010 => bits v 0 16 == 0 || bits v 0 16 > 60000
    | 0x014 => bits v 0 12 > 3999
    | 0x018 => toS 16 (bits v 16 16) > bits v 0 16
    | 0x01C => bits v 24 8 == 0
    | 0x044 => bits v 0 16 == 0
    | 0x080 => bits v 0 16 < 6400 || bits v 0 16 > 64000
    | 0x084 => bits v 0 6 == 0 || bits v 0 6 > 32 || bits v 8 6 > 32
    | 0x088 => bits v 16 16 ≥ bits v 0 16 || bits v 0 16 == 0
    | 0x08C => bits v 0 11 == 0 || bits v 16 11 == 0
    | 0x108 => bits v 0 24 == 0
    | 0x248 => bit v 23
    | 0x24C => bit v 23
    | 0x28C => bits v 16 16 == 0 || bits v 16 16 > 60000
    | _ => false
  else if (x.space = 1 || x.space = 2) && x.off = 0x04 then bit v 23
  else false

/-- 0xF6. -/
def Chk.recWrong (c : Chk) (x : RecAt) : Bool :=
  let dev := x.e.index == 0xFF
  let r := x.r
  !spaceAllowed dev (x.e.typ == 5) r.space || !(imageOffs r.space).contains r.off || r.rsv != 0 ||
    (if r.space = 3 then
      r.index > 31 || (if dev then (c.topos.any fun t => (t.2.1 ++ t.2.2).contains r.index)
        else !c.topos.any fun t => t.1 == x.e.index && (t.2.1 ++ t.2.2).contains r.index)
     else if r.space = 4 then r.index > 7
     else r.index != 0)

/-- 0xF7: an earlier record of the same owner names the register, or its derived counterpart. -/
def Chk.recTwice (c : Chk) (x : RecAt) : Bool :=
  (c.recs.takeWhile fun y => y != x).any fun y =>
    y.e.index == x.e.index && ((y.r.space == x.r.space && y.r.off == x.r.off && y.r.index == x.r.index) ||
      (y.r.space == 0 && x.r.space == 0 && derivedPair y.r.off x.r.off))

/-! ### The request and the image (R559 steps 1 to 4) -/

/-- The owners a swap would move. -/
def Chk.moves (c : Chk) : Bool :=
  if c.src = srcDevSwap then
    c.d.f CFG_STAT_DEV_PLANE != c.plane || (List.range 8).any fun n => c.d.activePlane n != c.plane
  else c.d.activePlane c.rail != c.plane

/-- 0xFB (R249, R252, R25). -/
def Chk.requestBad (c : Chk) : Bool :=
  let realSwap := c.src == srcDevSwap || c.src == srcRailSwap
  c.d.fabricStopped || (c.src == srcFabric && c.d.modeNow != modeConfigure) ||
    ((c.enable || realSwap) && (!c.d.b CFG_STAT_FABRIC_ON || c.d.modeNow != modeRegulate)) ||
    (c.stitch && c.d.modeNow == modeSafe) || (c.stitch && c.d.engRuns (c.src - srcStitch)) || (realSwap && !c.moves) ||
    (c.src == srcRailSwap && ((c.d.rail c.rail).phase == .tonDelay || (c.d.rail c.rail).phase == .prebias))

def Chk.step1 (c : Chk) : Option Fail :=
  if c.requestBad then some (0xFB, noSect, c.src)
  else if (c.src == srcDevSwap || c.src == srcRailSwap) && c.d.cfg.swapOpen then some (0xFC, noSect, 0)
  else none

/-- PLANE_LEN. -/
def Chk.planeLen (c : Chk) : Nat := pLe c.m c.plane 0x10 4

/-- 0xF0 (R230). -/
def Chk.headerBad (c : Chk) : Bool :=
  pLe c.m c.plane 0 4 != 0x54444C43 || pLe c.m c.plane 4 2 != 1 || pLe c.m c.plane 6 2 != 0x7216 ||
    pLe c.m c.plane 0x0E 2 != 0 || ((pBytes c.m c.plane 0x18 36).any (· != 0)) ||
    c.planeLen < 0x440 || c.planeLen > 0x18000 || c.planeLen % 4 != 0

/-- 0xF5 (R230). -/
def Chk.targetBad (c : Chk) : Bool :=
  let p := pByte c.m c.plane 0x0C
  let r := pByte c.m c.plane 0x0D
  (p != 0xFF && p != c.d.f CHAIN_STAT_POS) || (r != 0xFF && r != c.d.f CHAIN_STAT_RING)

/-- 0xFA (R231, R233). DESIGN CHOICE (log 81): of two entries that share TYPE and INDEX the later one is at fault. -/
def Chk.entryBad (c : Chk) (e : Ent) : Bool :=
  let okIndex := match e.typ with
    | 1 => e.index == 0
    | 7 => e.index == 0
    | 4 => e.index < 8 || e.index == 0xFF
    | 5 => e.index < 8 || e.index == 0xFF
    | _ => e.index < 8
  e.typ > 8 || e.fmt != 1 || e.rsv != 0 || !okIndex ||
    c.all.any fun x => x.dir < e.dir && x.typ == e.typ && x.index == e.index

/-- 0xF3 (R231). -/
def Chk.placeBad (c : Chk) (e : Ent) : Bool :=
  e.off % 4 != 0 || e.len % 4 != 0 || e.off < 0x440 || e.off + e.len > c.planeLen ||
    c.all.any fun x => x.dir != e.dir && x.off < e.off + e.len && e.off < x.off + x.len

/-- 0xF2 (R232). -/
def Chk.crcBad (c : Chk) (e : Ent) : Bool := crc32c (pBytes c.m c.plane e.off (min e.len 0x18000)) != e.crc

/-- 0xFD (R226). -/
def Chk.bgBad (c : Chk) (e : Ent) : Bool :=
  c.d.b CFG_BGCRC_PENDING && c.d.f CFG_BGCRC_PLANE == c.plane && c.d.f CFG_BGCRC_SECT == e.dir

def Chk.step2 (c : Chk) : Option Fail :=
  let whole := fun (code : Nat) (bad : Bool) => if bad then some (code, noSect, 0) else (none : Option Fail)
  let each := fun (code : Nat) (bad : Ent → Bool) => failAt code c.secs bad (·.dir) (·.dir)
  firstFail [fun _ => whole 0xF0 c.headerBad,
   fun _ => whole 0xF1 (crc32c (pBytes c.m c.plane 0 0x3C) != pLe c.m c.plane 0x3C 4),
   fun _ => whole 0xF4 (pLe c.m c.plane 8 4 < c.d.r CFG_MINVER),
   fun _ => whole 0xF5 c.targetBad,
   fun _ => each 0xFA c.entryBad,
   fun _ => each 0xF3 c.placeBad,
   fun _ => each 0xF2 c.crcBad,
   fun _ => each 0xFD c.bgBad]

/-- A PARAM or PROTECT section is malformed (R238). -/
def Chk.recsBad (c : Chk) (e : Ent) : Bool := c.le e 0 4 > 1024 || e.len != 4 + 8 * c.le e 0 4

/-- 0x40 and 0x4A: malformed sections first, in directory order, then absent PROTECT sections. -/
def Chk.step3 (c : Chk) : Option Fail :=
  let need := c.rails.filter (fun n => (c.sec 2 n).isSome) ++ if c.whole then [0xFF] else []
  (failAt 0x40 (c.ofTyp 5) c.recsBad (·.dir) (·.index)).or
    ((failAt 0x40 need (fun n => (c.sec 5 n).isNone) (fun _ => noSect) id).or
      (failAt 0x4A (c.ofTyp 4) c.recsBad (·.dir) (·.index)))

/-- A mandatory record of rail `n` is missing (R240). -/
def Chk.lacks (c : Chk) (n : Nat) : Bool :=
  !(c.has n 0x00C && c.has n 0x018 && c.has n 0x01C && c.has n 0x080 && (c.has n 0x010 || c.has n 0x108))

/-- The enable of a rail whose fields no committed image has loaded: its sections came into the active plane after the fabric
enable (R87; DEDUCED, log 69, that the code is 0xF8). -/
def Chk.unloaded (c : Chk) (n : Nat) : Bool := c.enable && !(c.d.rail n).loaded

def Chk.step4 (c : Chk) : Option Fail :=
  let recs := fun (code : Nat) (bad : RecAt → Bool) => failAt code c.recs bad (·.e.dir) (·.k % 256)
  firstFail [fun _ => recs 0xF6 c.recWrong,
   fun _ => recs 0xF7 c.recTwice,
   fun _ => recs 0xF9 (fun x => valueBad x.r || x.r.value != x.r.value &&& imageMask x.r),
   fun _ => failAt 0xF8 (c.rails.filter fun n => (c.sec 2 n).isSome) (fun n => c.lacks n || c.unloaded n) (c.slot 4) id]

/-! ### 0x10 to 0x18: PINMAP (R234, R235) -/

/-- The bytes of PINMAP with a reserved FUNC, SEL or bit set, as details (code 0x11), in offset order. -/
def Chk.pinmapBad (c : Chk) : Option Nat :=
  let b := c.pm
  (((List.range 32).find? fun i => bits (b i) 2 6 != 0).map (0x80 + ·)).or
    (((List.range 40).find? fun j =>
      let f := c.func j
      f > 5 || (f ≤ 1 && c.sel j != 0) || ((f == 3 || f == 4) && c.sel j > 1)).or
      (([0x4C, 0x4E, 0x4F].find? fun o => (if o = 0x4C then b o / 16 else b o) != 0).map (0x80 + ·)))

/-- A UART's pins are wrong (code 0x13). -/
def Chk.uartBad (c : Chk) (u : Nat) : Bool :=
  let n := fun (s : Nat) => ((List.range 40).filter fun j => c.func j == 3 + u && c.sel j == s).length
  n 0 != n 1 || n 0 > 1

/-- A VDDIO bank's latest reading contradicts BANKV (code 0x16). -/
def Chk.bankBad (c : Chk) (k : Nat) : Bool :=
  let mv := c.d.accum.hk.getD (13 + k) 0
  if bit (c.pm 0x4C) k then mv < 2800 else mv > 2300

/-- Pin `j` is in use by a running stitch engine or an enabled UART (code 0x17). -/
def Chk.pinUsed (c : Chk) (j : Nat) : Bool :=
  ((List.range 8).any fun e =>
    c.d.engRuns e && c.d.f STITCHe_GROUP_PINBASE e ≤ j && j < c.d.f STITCHe_GROUP_PINBASE e + c.d.f STITCHe_GROUP_PINCOUNT e) ||
    [0, 1].any fun u => c.d.b UART_CTRL_EN u && c.d.cfg.gpcfg.getD j 0 % 16 == 3 + u

def Chk.codes1 (c : Chk) : Option Fail :=
  let s := c.slot 1 0
  let w := fun (f : Option Fail) => if c.whole || c.stitch then f else none
  let here := if c.stitch then (c.all.filter (·.typ == 2)).map (·.index) else c.rails
  firstFail [fun _ => w (if c.slot 1 0 = noSect || ((c.sec 1 0).any fun e => e.len != 80) then some (0x10, s, 0) else none),
   fun _ => w (c.pinmapBad.map fun k => (0x11, s, k)),
   fun _ => failAt 0x12 ((c.ofTyp 2).flatMap fun e =>
      let t := c.members c.plane e
      (t.1 ++ t.2).map fun i => (e, i)) (fun x => !c.present x.2) (·.1.dir) (·.2),
   fun _ => w (failAt 0x13 [0, 1] c.uartBad (fun _ => s) id),
   fun _ => w (failAt 0x14 (List.range 40) (fun j => c.func j == 5 && !here.contains (c.sel j)) (fun _ => s) id),
   fun _ => w (match c.sec 1 0 with
      | some e => if c.le e 0x48 4 = 0 || c.le e 0x48 4 > 0x400000 then some (0x15, s, 0) else none
      | none => none),
   fun _ => w (failAt 0x16 [0, 1, 2, 3] c.bankBad (fun _ => s) id),
   fun _ => w (failAt 0x17 (List.range 40) (fun j => c.swap && c.pinUsed j && c.pm (0x20 + j) != c.d.cfg.gpcfg.getD j 0)
      (fun _ => s) id),
   fun _ => w (failAt 0x18 (List.range 32) (fun i => c.swap && !c.present i && c.d.sRole i != roleNone &&
      c.d.b RAIL_STAT_ENABLED (c.d.sRail i)) (fun _ => s) id)]

/-! ### 0x20 to 0x29: TOPOLOGY (R236) -/

/-- 0x21. -/
def Chk.topoBad (c : Chk) (e : Ent) : Bool :=
  let np := c.byte e 0
  let ns := c.byte e 1
  np == 0 || np > 32 || ns > 4 ||
    ((List.range 32).any fun j => j ≥ np && c.byte e (4 + j) != 0xFF) ||
    ((List.range 4).any fun k => (k ≥ ns) != (c.byte e (0x24 + k) == 0xFF))

/-- The slice in calibration or readmission, or its cover, that slice `i` is (code 0x29). -/
def Chk.held (c : Chk) (i : Nat) : Bool :=
  c.d.sState i == stCal || c.d.sState i == stReadmit || c.d.b SLICE_STAT_COVER i

def Chk.codes2 (c : Chk) : Option Fail :=
  let topos := c.ofTyp 2
  let slices := fun (e : Ent) => let t := c.members c.plane e; t.1 ++ t.2
  let named := topos.flatMap fun e => (slices e).zipIdx.map fun x => (e, x.1, x.2)
  let sectOf := fun (i : Nat) => c.slot 2 (c.oldRole i).1
  firstFail [fun _ => (failAt 0x20 topos (fun e => e.len != 40) (·.dir) (·.index)).or
      (failAt 0x20 c.rails (fun n => (c.sec 2 n).isNone) (fun _ => noSect) id),
   fun _ => failAt 0x21 topos c.topoBad (·.dir) (·.index),
   fun _ => failAt 0x22 (topos.flatMap fun e => (List.range (c.byte e 0)).map fun j => (e, j))
      (fun x => c.byte x.1 (4 + x.2) == 0xFF) (·.1.dir) (·.2),
   fun _ => failAt 0x23 named (fun x => ((slices x.1).take x.2.2).contains x.2.1) (·.1.dir) (·.2.1),
   fun _ => failAt 0x24 named (fun x => c.topos.any fun t => t.1 != x.1.index && (t.2.1 ++ t.2.2).contains x.2.1)
      (·.1.dir) (·.2.1),
   fun _ => failAt 0x25 named (fun x => c.swap && c.d.sRole x.2.1 != roleNone && c.d.sRail x.2.1 != x.1.index &&
      c.d.b RAIL_STAT_ENABLED (c.d.sRail x.2.1) && c.d.b RAIL_STAT_ENABLED x.1.index) (·.1.dir) (·.2.1),
   fun _ => failAt 0x26 topos (fun e => bits (c.val e.index 0 0x084) 0 6 > c.byte e 0) (fun e => c.slot 5 e.index) (·.index),
   fun _ => failAt 0x27 topos (fun e => bit (c.byte e 2) 0 != (c.sec 8 e.index).isSome) (·.dir) (·.index),
   fun _ => failAt 0x28 (List.range 32) (fun i => c.swap && c.decides i && c.d.sRole i != roleNone &&
      c.d.sState i == stFaulted && (c.newRole i).2 == roleNone) sectOf id,
   fun _ => failAt 0x29 (List.range 32) (fun i => c.swap && c.decides i && c.d.sRole i != roleNone && c.held i &&
      c.newRole i != c.oldRole i) sectOf id]

/-! ### 0x30 to 0x39: LOOP (R237) -/

/-- The slots of a node type. -/
def nodeSlots (t : Nat) : Nat := if t = 3 then 7 else if t = 4 then 30 else if t = 5 then 1 else 0

/-- The nodes of a graph: base slot and number of slots. -/
def graphNodes (g : Nat) : List (Nat × Nat) :=
  (bits g 16 5, nodeSlots (bits g 0 4)) :: if bits g 4 4 = 0 then [] else [(bits g 24 5, nodeSlots (bits g 4 4))]

/-- 0x33: the slot reported. -/
def slotsBad (g : Nat) : Option Nat :=
  match (graphNodes g).find? fun x => x.1 + x.2 > 32 with
  | some x => some x.1
  | none =>
    match graphNodes g with
    | [a, b] => (List.range 32).find? fun k => a.1 ≤ k && k < a.1 + a.2 && b.1 ≤ k && k < b.1 + b.2
    | _ => none

/-- 0x36. -/
def graphBad (g : Nat) : Bool :=
  g &&& 0x1F1F1FFF != g || (bits g 4 4 == 0 && bits g 10 3 != 0) || (bits g 0 4 == 4 && bit g 9)

def Chk.codes3 (c : Chk) : Option Fail :=
  let loops := c.ofTyp 3
  let g := fun (e : Ent) => c.le e 0 4
  let ncoef := fun (e : Ent) => c.byte e 4
  let top := fun (e : Ent) => (graphNodes (g e)).foldl (fun m x => max m (x.1 + x.2)) 0
  let f := fun (code : Nat) (bad : Ent → Bool) => failAt code loops bad (·.dir) (·.index)
  let held := c.rails.filter fun n => (c.sec 2 n).isSome
  firstFail [fun _ => (f 0x30 fun e => e.len != 8 + 4 * ncoef e).or
      (failAt 0x30 held (fun n => (c.sec 3 n).isNone) (fun _ => noSect) id),
   fun _ => f 0x31 fun e => !(bits (g e) 0 4 == 3 || bits (g e) 0 4 == 4 || bits (g e) 0 4 == 5),
   fun _ => f 0x32 fun e => !(bits (g e) 4 4 == 0 || bits (g e) 4 4 == 3 || bits (g e) 4 4 == 5),
   fun _ => failAt 0x33 loops (fun e => (slotsBad (g e)).isSome) (·.dir) (fun e => (slotsBad (g e)).getD 0),
   fun _ => f 0x34 fun e => ncoef e > 32 || ncoef e < top e,
   fun _ => f 0x35 fun e => c.byte e 5 > 6,
   fun _ => f 0x36 fun e => graphBad (g e),
   fun _ => failAt 0x37 (loops.flatMap fun e => (List.range (ncoef e)).map fun k => (e, k))
      (fun x => c.byte x.1 (11 + 4 * x.2) != 0) (·.1.dir) (·.2),
   fun _ => failAt 0x38 held (fun n =>
      let dmax := bits (c.val n 0 0x124) 0 23
      bits (c.val n 0 0x120) 0 23 ≥ dmax || dmax > dMaxLimit) (c.slot 4) id,
   fun _ => failAt 0x39 held (fun n =>
      bits (c.val n 0 0x280) 0 16 + bits (c.val n 0 0x280) 16 16 ≥ bits (c.val n 0 0x080) 0 16) (c.slot 4) id]

/-! ### 0x41 to 0x49: protection (R239, R244, R170) -/

/-- 0x41. -/
def protectBad (x : RecAt) : Bool :=
  if x.e.typ = 5 then x.e.index != 0xFF && !(x.r.space == 0 && protectOffs.contains x.r.off)
  else x.r.space == 0 && protectOffs.contains x.r.off

/-- Word of a cluster register in the device's PROTECT. -/
def Chk.clVal (c : Chk) (k off : Nat) : Nat :=
  ((c.recs.find? fun x => x.r.space == 4 && x.r.index == k && x.r.off == off).map fun x => x.r.value).getD 0

def Chk.codes4 (c : Chk) : Option Fail :=
  let held := c.rails.filter fun n => (c.sec 2 n).isSome
  let npos := fun (n : Nat) => match c.sec 2 n with
    | some e => c.byte e 0
    | none => 0
  let f := fun (code : Nat) (bad : Nat → Bool) => failAt code held bad (c.slot 5) id
  let e := fun (code : Nat) (bad : Bool) => if c.enable && bad then some (code, noSect, c.rail) else (none : Option Fail)
  let n := c.rail
  firstFail [fun _ => failAt 0x41 c.recs protectBad (·.e.dir) (·.k % 256),
   fun _ => f 0x42 fun n => bits (c.val n 0 0x084) 8 6 > npos n,
   fun _ => f 0x43 fun n => bits (c.val n 2 0x08) 0 8 ≥ bits (c.val n 0 0x08C) 0 11,
   fun _ => if c.whole then failAt 0x44 (List.range 8)
      (fun k => toS 16 (bits (c.clVal k 0xC4) 16 16) ≤ toS 16 (bits (c.clVal k 0xC4) 0 16)) (fun _ => c.slot 5 0xFF) id
      else none,
   fun _ => f 0x45 fun n => bits (c.val n 0 0x288) 0 11 == 0 || bits (c.val n 0 0x288) 11 11 == 0 ||
      bits (c.val n 0 0x290) 0 11 == 0,
   fun _ => f 0x46 fun n => bits (c.val n 0 0x290) 16 12 ≥ bits (c.val n 0 0x00C) 0 16 / 4,
   fun _ => e 0x47 (c.d.b RAIL_FLAGS_GUARD_TRIP n),
   fun _ => e 0x48 (c.d.b RAIL_PWM_ENPIN_USE n && (!bit c.en n || !bit c.d.cfg.enpin n)),
   fun _ => e 0x49 (c.d.a RAIL_XDISTM_VIN_MIN n ≥ c.d.f RAIL_VIN_VIN n)]

/-! ### 0x50 to 0x56: STITCH (R241). DEDUCED (log 74): a start without a section has 0 words. -/

/-- First pin and number of pins of a STITCH section. -/
def Chk.grp (c : Chk) (e : Ent) : Nat × Nat := (c.byte e 0, c.byte e 1)

/-- The VDDIO bank of GPj: GP0 to GP15 bank 1, GP16 to GP31 bank 2, GP32 to GP39 bank 3 (spec/15, pin list). -/
def gpBank (j : Nat) : Nat := 1 + j / 16

/-- A pin in the group of section `e`. -/
def Chk.inGrp (c : Chk) (e : Ent) (j : Nat) : Bool := (c.grp e).1 ≤ j && j < (c.grp e).1 + (c.grp e).2

def Chk.codes5 (c : Chk) : Option Fail :=
  let st := c.ofTyp 6
  let f := fun (code : Nat) (bad : Ent → Bool) => failAt code st bad (·.dir) (·.index)
  let pins := st.flatMap fun e => (List.range 40).map fun j => (e, j)
  firstFail [fun _ => if c.stitch && st.isEmpty then some (0x50, noSect, c.src - srcStitch) else none,
   fun _ => f 0x50 fun e =>
      let nw := c.byte e 4
      nw == 0 || nw > 32 || e.len != (8 + 2 * nw + 3) / 4 * 4 || c.le e 5 3 != 0,
   fun _ => f 0x51 fun e => (c.grp e).2 == 0 || (c.grp e).2 > 8 || (c.grp e).1 + (c.grp e).2 > 40,
   fun _ => f 0x52 fun e => gpBank (c.grp e).1 != gpBank ((c.grp e).1 + (c.grp e).2 - 1),
   fun _ => failAt 0x53 pins (fun x => c.inGrp x.1 x.2 &&
      c.all.any fun y => y.typ == 6 && y.dir != x.1.dir && c.inGrp y x.2) (·.1.dir) (·.2),
   fun _ => failAt 0x54 pins (fun x => c.inGrp x.1 x.2 != (c.func x.2 == 2 && c.sel x.2 == x.1.index)) (·.1.dir) (·.2),
   fun _ => f 0x55 fun e => c.le e 2 2 < 2,
   fun _ => failAt 0x56 (st.flatMap fun e => (List.range (c.byte e 4)).map fun w => (e, w))
      (fun x => stitchReserved (c.le x.1 (8 + 2 * x.2) 2)) (·.1.dir) (·.2)]

/-! ### 0x60 to 0x68: SPAN (R243, R208) -/

/-- NPLAN and PLAN. -/
def Chk.plan (c : Chk) (e : Ent) : List Nat := (List.range (min (c.le e 6 2) 256)).map fun k => c.byte e (8 + k)

/-- Position `p` is a member. -/
def Chk.isMember (c : Chk) (e : Ent) (p : Nat) : Bool := p < 16 && bit (c.le e 4 2) p

/-- 0x61: the position reported. Without a position this device's own membership is left to code 0x67. DESIGN CHOICE (log
81): of more than 8 members the ninth by position is reported. -/
def Chk.membersBad (c : Chk) (e : Ent) : Option Nat :=
  let ms := (List.range 16).filter (c.isMember e)
  let pos := c.d.f CHAIN_STAT_POS
  if ms.length > 8 then ms[8]?
  else if pos < 16 && !c.isMember e pos then some pos
  else if !c.isMember e (c.byte e 1) then some (c.byte e 1)
  else if !c.isMember e (c.byte e 2) || c.byte e 1 == c.byte e 2 then some (c.byte e 2)
  else none

/-- 0x62. -/
def Chk.channelBad (c : Chk) (e : Ent) : Bool :=
  let ch := c.byte e 0
  ch > 1 || (if c.whole || c.standIn then c.all.any fun x => x.typ == 8 && x.index != e.index && c.byte x 0 == ch
    else (c.d.span ch).used && c.d.f CHAIN_SPANc_STAT_RAIL ch != c.rail)

/-- 0x66: what the section says of the channel of an enabled rail against what is in force. DEDUCED (log 74): so does a
section that a local rail would gain. -/
def Chk.spanChanges (c : Chk) (e : Ent) : Bool :=
  c.d.b RAIL_STAT_ENABLED e.index &&
    match c.d.spanOf e.index with
    | none => true
    | some ch =>
      match findSec (dirList c.m (c.d.activePlane e.index)) 8 e.index with
      | none => true
      | some o =>
        let p := c.d.activePlane e.index
        c.byte e 0 != ch || c.byte e 1 != pByte c.m p (o.off + 1) || c.byte e 2 != pByte c.m p (o.off + 2) ||
          c.le e 4 2 != pLe c.m p (o.off + 4) 2 || c.plan e != (c.d.span ch).planImg

def Chk.codes6 (c : Chk) : Option Fail :=
  let sp := c.ofTyp 8
  let pos := c.d.f CHAIN_STAT_POS
  let f := fun (code : Nat) (bad : Ent → Bool) => failAt code sp bad (·.dir) (·.index)
  let none0 := fun (code : Nat) (bad : Ent → Bool) => failAt code sp bad (·.dir) (fun _ => 0)
  firstFail [fun _ => f 0x60 fun e =>
      let np := c.le e 6 2
      np == 0 || np > 256 || e.len != (8 + np + 3) / 4 * 4 || c.byte e 3 != 0,
   fun _ => failAt 0x61 sp (fun e => (c.membersBad e).isSome) (·.dir) (fun e => (c.membersBad e).getD 0),
   fun _ => f 0x62 c.channelBad,
   fun _ => f 0x63 fun e => pos < 16 && ((c.plan e).filter (· == pos)).length != (match c.sec 2 e.index with
      | some t => c.byte t 0
      | none => 0),
   fun _ => failAt 0x64 (sp.flatMap fun e => (c.plan e).zipIdx.map fun x => (e, x)) (fun x => !c.isMember x.1 x.2.1)
      (·.1.dir) (·.2.2 % 256),
   fun _ => none0 0x65 fun _ => (c.src == srcFabric || c.enable) && c.d.chain.enumBad,
   fun _ => (f 0x66 fun e => c.swap && c.spanChanges e).or (failAt 0x66
      (c.rails.filter fun n => c.swap && c.d.b RAIL_STAT_ENABLED n && (c.d.spanOf n).isSome && (c.sec 2 n).isSome)
      (fun n => (c.sec 8 n).isNone) (fun _ => noSect) id),
   fun _ => none0 0x67 fun _ => pos ≥ 16,
   fun _ => failAt 0x68 (sp.flatMap fun e => ((List.range 16).filter (c.isMember e)).map fun p => (e, p))
      (fun x => x.2 ≥ c.d.f CHAIN_STAT_M) (·.1.dir) (·.2)]

/-! ### 0x70 to 0x74: ACCUM (R242) -/

def Chk.codes7 (c : Chk) : Option Fail :=
  if !c.whole then none else
  match c.sec 7 0 with
  | none => some (0x70, noSect, 0)
  | some e =>
    let us := List.range 64
    let w := fun (u : Nat) => c.le e (4 * u) 4
    let src := fun (u : Nat) => bits (w u) 0 8
    let on := fun (u : Nat) => bit (w u) 24
    let f := fun (code : Nat) (bad : Nat → Bool) => failAt code us bad (fun _ => e.dir) id
    if e.len != 256 then some (0x70, e.dir, 0) else
    firstFail [fun _ => f 0x71 fun u => src u > 0x60,
     fun _ => f 0x72 fun u => on u && (bits (w u) 8 4 == 0 || bits (w u) 8 4 > 8),
     fun _ => f 0x73 fun u => on u &&
        ((1 ≤ src u && src u ≤ 0x20 && !c.present (src u - 1)) ||
         (0x21 ≤ src u && src u ≤ 0x40 && !c.rails.contains ((src u - 0x21) % 8)) ||
         (0x59 ≤ src u && src u ≤ 0x60 && !c.rails.contains (src u - 0x59))),
     fun _ => f 0x74 fun u => c.swap && c.d.b ACCUMu_CFG_HELD u && w u != c.d.im (ACCUMu_XROUTE.addr u)]

/-- The outcome of a check (R246, R559): the first failure, or none. -/
def Chk.judge (c : Chk) : Option Fail :=
  [Chk.step1, Chk.step2, Chk.step3, Chk.step4, Chk.codes1, Chk.codes2, Chk.codes3, Chk.codes4, Chk.codes5, Chk.codes6,
   Chk.codes7].findSome? fun f => f c

end Sys2Proof.Machine
end

