-- ==== Sys2Proof/Machine/GirthRun.lean ====
section
/-! DEFINITION. The girth check runs a request and gives an accepted one its effect; the instants at which the sections of a
swap take force outside a boundary; the fabric disable (R244-R250, R59, R214). -/
namespace Sys2Proof.Machine

/-- An accepted rail enable (R59, R84, R214): EN, ENABLED and SOFTSTART read 1; a member other than the lead of a spanning
rail enters ARMED and says so. -/
def Dev.startRail (d : Dev) (n : Nat) : Dev :=
  let d := d.setB RAIL_CTRL_EN n true |>.setB RAIL_STAT_ENABLED n true |>.setB RAIL_STAT_SOFTSTART n true
  let d := d.modRail n fun x => { x with startAt := d.now }
  -- while a rail is ENABLED a pin-driving JTAG instruction acts as BYPASS (R346)
  let d := { d with sec := { d.sec with jtagDrive := none } }
  let d := d.modSq n fun q => { q with pend := [], cause := 0, fast := false }
  match d.spanOf n with
  | some c =>
    if d.isLead c then d.modRail n fun x => { x with phase := .tonDelay }
    else
      let d := d.modRail n fun x => { x with phase := .armed }
      let d := d.setF CHAIN_SPANc_STAT_STATE c 1
      d.sendReady c (d.freeSpares n).length (d.staffed n) true
  | none => d.modRail n fun x => { x with phase := .tonDelay }

/-- An accepted fabric enable (R244): every owner's active plane is `p`, all sections come into force, REGULATE. -/
def Dev.fabricOn (d : Dev) (m : Mem) (p : Nat) : Dev :=
  let d := d.setB CFG_CTRL_FABRIC_EN 0 true |>.setB CFG_STAT_FABRIC_ON 0 true
  let d := d.takeDevice m p true
  let d := d.each (List.range 8) fun n d => d.takeRail m n p
  d.setF SYSCTL_MODE_MODE 0 modeRegulate

/-- An accepted swap to plane `p` of the device (where `dev`) and of the rails `ns` (R250): owners that would change plane
wait for their instants. -/
def Dev.swapAccept (d : Dev) (p : Nat) (dev : Bool) (ns : List Nat) : Dev :=
  let d := d.modCfg fun c =>
    { c with swapOpen := true, devTo := if dev && d.activePlane 8 != p then some p else none }
  let d := d.setB CFG_STAT_DEV_PEND 0 dev
  d.each (ns.filter fun n => d.activePlane n != p) fun n d =>
    (d.modSq n fun q => { q with swapTo := some p }).setF CFG_STAT_RAIL_PEND 0 (putBits (d.f CFG_STAT_RAIL_PEND) n 1 1)

/-- CFG_VER_A or CFG_VER_B shows the IMAGE_VER of the plane checked. -/
def Dev.showVer (d : Dev) (m : Mem) (p : Nat) : Dev :=
  if p = 0 then d.setR CFG_VER_A 0 (pLe m 0 8 4) else d.setR CFG_VER_B 0 (pLe m 1 8 4)

/-- The plane a request names: DEV_SEL of a fabric enable, the active plane of a rail enable or a stitch start (R244). -/
def Dev.planeOfRequest (d : Dev) (src plane : Nat) : Nat :=
  if src = srcFabric then d.f CFG_CTRL_DEV_SEL
  else if srcStitch ≤ src then d.f CFG_STAT_DEV_PLANE
  else if srcRail ≤ src then d.activePlane (src - srcRail)
  else plane

/-- The effect of an accepted request (R244). -/
def Dev.acceptRequest (d : Dev) (m : Mem) (src p rail : Nat) : Dev :=
  if src = srcFabric then d.fabricOn m p
  else if src = srcDevSwap then d.swapAccept p true (List.range 8)
  else if src = srcRailSwap then d.swapAccept p false [rail]
  else if src = srcDevDry || src = srcRailDry then d
  else if srcStitch ≤ src then d.stitchChecked (src - srcStitch) true
  else d.startRail rail

/-- GIRTH_CHECK (R245, R246, R559): the next waiting request is judged; refused, nothing but the report changes. With no
request nothing happens. `en` holds the levels of the EN pins. -/
def Dev.girth (d : Dev) (m : Mem) (en : Nat) : Dev :=
  match d.nextRequest with
  | none => d
  | some src =>
    let q := ((d.cfg.qPlane.find? fun q => q.1 == src).map (·.2)).getD (0, 0)
    let p := d.planeOfRequest src q.1
    let d := d.unrequest src
    match Chk.judge { d := d, m := m, src := src, plane := p, rail := q.2, en := en } with
    | some (code, sect, det) =>
      let d := d.showCheck src code sect det
      if srcStitch ≤ src then d.stitchChecked (src - srcStitch) false else d
    | none =>
      let d := d.showCheck src 0 noSect 0
      let d := if src = srcDevDry || src = srcRailDry then d else d.showVer m p
      d.acceptRequest m src p q.2

def execGirthCheck (en : BitVec 8) (s : State) : Outcome := s.onDev fun d => d.girth s.mem en.toNat

/-- SWAP_SECTIONS_TAKE_FORCE (R250): the device sections, STITCH excepted, and the rails that are not enabled. -/
def Dev.swapInstant (d : Dev) (m : Mem) : Dev :=
  let d := d.each (List.range 8) fun n d =>
    match (d.rail n).sq.swapTo with
    | some p => if d.b RAIL_STAT_ENABLED n then d else d.swapRail m n p
    | none => d
  let d := match d.cfg.devTo with
    | some p => (d.takeDevice m p false).modCfg fun c => { c with devTo := none }
    | none => d
  d.swapSettle

def execSwapSectionsTakeForce (s : State) : Outcome := s.onFabric fun d => d.swapInstant s.mem

/-- The sections of every owner leave force (R228, R248): the pin map, the slices' roles, the span channels and the
accumulator routings that are not expert ones (R265). A FAULTED slice stays FAULTED in its role. A swap still waiting for
its instants ends with its owners on the target plane. -/
def Dev.leaveForce (d : Dev) (m : Mem) : Dev :=
  let d := d.lopEnd opFailed 7
  let d := d.each (List.range 8) fun n d =>
    match (d.rail n).sq.swapTo with
    | some p => d.setF CFG_STAT_RAIL_PLANE 0 (putBits (d.f CFG_STAT_RAIL_PLANE) n 1 p)
    | none => d
  let d := match d.cfg.devTo with
    | some p => d.setF CFG_STAT_DEV_PLANE 0 p
    | none => d
  let d := d.setB CFG_CTRL_FABRIC_EN 0 false |>.setB CFG_STAT_FABRIC_ON 0 false |>.setF CFG_STAT_RAIL_PEND 0 0
  let d := d.modCfg fun c =>
    { c with devTo := none, gpcfg := [], enpin := 0, bankv := 0, pinmap := false, vinsScale := 0 }
  let d := d.gpScan
  let d := d.each (List.range 9) fun o d => d.noteForce o
  let d := d.showBg m
  let d := d.each (List.range 8) fun n d =>
    let d := d.each (d.slicesOf n) fun i d =>
      if d.sState i = stFaulted then d
      else ((d.tri i d.w0).setR SLICE_STAT i (0xFF * 2 ^ 16)).modSlice i fun s =>
        { s with cal := {}, ocCnt := 0, convCnt := 0, imbCnt := 0, attrCnt := 0 }
    let d := d.modSq n fun q =>
      { q with plan := [], planIdx := [], spares := [], absent := true, swapTo := none, calCur := none }
    ((d.dropSpan n).modRail n fun x => { x with loaded := false }).showSeq n
  let was := d.presentSlices
  let d := d.each (List.range 32) fun i d => d.modSlice i fun s => { s with present := false, isinv := false }
  let d := d.slicesGone was
  let d := (d.setR CHAIN_XTIME 0 CHAIN_XTIME.reset |>.setR CHAIN_XHOPADJ 0 CHAIN_XHOPADJ.reset).showChainExpert
  let d := d.each (List.range 64) fun u d =>
    if (d.unit u).expert || d.b ACCUMu_CFG_HELD u then d else (d.setR ACCUMu_XROUTE u 0).setRoute u 0 false
  d.swapSettle

/-- FABRIC_DISABLE (R248): refused while a rail is enabled; otherwise nothing is in force, every stitch engine stops and
the mode becomes CONFIGURE. -/
def Dev.fabricOff (d : Dev) (m : Mem) : Dev :=
  if !d.b CFG_CTRL_FABRIC_EN then d
  else if (List.range 8).any fun n => d.b RAIL_STAT_ENABLED n then d.raise CFG_FLAGS_FAB_CLR_REJ
  else ((d.leaveForce m).stitchStopAll).setF SYSCTL_MODE_MODE 0 modeConfigure

def execFabricDisable (s : State) : Outcome := s.onDev fun d => d.storeTo CFG_CTRL 0 fun d => d.fabricOff s.mem

end Sys2Proof.Machine
end

