-- ==== Sys2Proof/Machine/Log.lean ====
section
/-! DEFINITION. The incident log: writing an entry to a slot, coalescing, overwriting, spilling, incidents and freeze
groups, pins, reading and acknowledging (R280-R290). -/
namespace Sys2Proof.Machine

/-! ### Occupancy and mode (R284, R287) -/

/-- A slot is pinned for the cores or the host (R288). -/
def Dev.pinned (d : Dev) (k : Nat) : Bool := d.log.pinCore == some k || d.log.pinHost == some k

/-- A slot counts toward OCC: its entry is unread, frozen or pinned (R284). -/
def Dev.occupies (d : Dev) (x : SlotSt) : Bool := !x.read || x.group.isSome || d.pinned x.slot

/-- OCC (R284). -/
def Dev.occ (d : Dev) : Nat := (d.log.slots.filter d.occupies).length

/-- The freeze group with key `k`, if it is held. -/
def Dev.groupOf (d : Dev) (k : Nat) : Option (Nat × Bool × Nat) := d.log.groups.find? fun g => g.1 == k

/-- Coalescing mode (R284). -/
def Dev.coalMode (d : Dev) : Bool :=
  (d.b LOG_INCID_OPEN && match d.groupOf (d.f LOG_INCID_NUMBER) with
    | none => true
    | some g => g.2.2 ≥ 64) || d.occ ≥ max 64 (d.f LOG_XCFG_HWM)

/-- The log requests ALERT_N (R287). -/
def Dev.logAlert (d : Dev) : Bool :=
  d.b LOG_STAT_LOSSY || (d.b LOG_CTRL_ALERT_C0 && d.log.slots.any fun x => !x.read && x.cls == 0)

/-- The requests LOG, STATUS, CML and FW of the host port; STATUS is 1 in the cycle of `statRise` only (R499). -/
def Dev.alertReq (d : Dev) : Nat :=
  b2n d.logAlert + 2 * b2n (d.host.statAt == some d.now) + 4 * b2n (d.host.cml != 0) + 8 * b2n (d.b HB_CTRL_ALERT_FW)

/-- HB_ALERT shows the requests; an enabled request that has risen sets its PENDING bit (R499). -/
def Dev.alertScan (d : Dev) : Dev :=
  let q := d.alertReq
  let rise := (q - (q &&& d.host.reqOld)) &&& d.f HB_ALERTMASK_MASK
  let d := (d.setF HB_ALERT_REQ 0 q).setF HB_ALERT_PENDING 0 (d.f HB_ALERT_PENDING ||| rise)
  { d with host := { d.host with reqOld := q } }

/-- LOG_STAT, LOG_UNREAD and the alert requests follow the log's contents; a coalescing period ends with coalescing mode
(R284, R287, R292). -/
def Dev.showLog (d : Dev) : Dev :=
  let mode := d.coalMode
  let ended := d.b LOG_STAT_COALESCE && !mode
  let d := if ended then d.modLog fun l => { l with period := l.period + 1 } else d
  let unread := d.log.slots.filter fun x => !x.read
  let d := d.setB LOG_STAT_INCIDENT 0 (d.b LOG_INCID_OPEN) |>.setB LOG_STAT_COALESCE 0 mode
  let d := d.setB LOG_STAT_LOSSY 0 ((List.range 4).any fun c => d.r LOG_LOSS c != 0)
  let d := d.setB LOG_STAT_SPILL_BUSY 0 !d.log.spill.isEmpty |>.setF LOG_STAT_GROUPS 0 d.log.groups.length
  let d := d.setF LOG_STAT_OCC 0 d.occ
  let d := d.setF LOG_UNREAD_ALL 0 unread.length |>.setF LOG_UNREAD_C0 0 (unread.filter fun x => x.cls == 0).length
  d.alertScan

/-! ### Choosing a slot (R285, R286) -/

/-- The lowest-numbered empty slot from `k` on, of slots listed in rising order. -/
def firstEmpty : List SlotSt → Nat → Option Nat
  | [], k => if k < 2048 then some k else none
  | x :: t, k => if x.slot = k then firstEmpty t (k + 1) else some k

/-- The entry with the lowest SEQ. -/
def oldest (l : List SlotSt) : Option SlotSt :=
  l.foldl (fun b x => match b with
    | none => some x
    | some y => if x.seq < y.seq then some x else some y) none

/-- The oldest unread entry of class `c` that is neither frozen nor pinned. -/
def Dev.victim (d : Dev) (c : Nat) : Option SlotSt :=
  oldest (d.log.slots.filter fun x => !x.read && x.cls == c && x.group.isNone && !d.pinned x.slot)

/-- Spilling is possible (R286): enabled, with an area that is neither empty nor full, counting the entries that wait,
and room in the buffer of 8. -/
def Dev.canSpill (d : Dev) : Bool :=
  d.b LOG_CTRL_SPILL_EN && d.r LOG_SPILLSIZE % 2 ^ 16 != 0 &&
    d.r LOG_SPILLPTR + d.log.spill.length < d.r LOG_SPILLSIZE % 2 ^ 16 * 128 && d.log.spill.length < 8

/-- Where a new entry goes. -/
inductive Place where
  | slot (k : Nat)
  | over (x : SlotSt)
  | spill
  | discard
  deriving DecidableEq, Repr

/-- R285: an empty slot, a free slot, the spill area, a victim in the rule's order, or nothing. -/
def Dev.placeFor (d : Dev) (cls : Nat) : Place :=
  match firstEmpty d.log.slots 0 with
  | some k => .slot k
  | none =>
    match oldest (d.log.slots.filter fun x => !d.occupies x) with
    | some x => .slot x.slot
    | none =>
      if cls = 0 && d.canSpill then .spill else
      match (([3, 2, 1].filter fun c => c ≥ cls) ++ (if cls = 0 then [0] else [])).findSome? d.victim with
      | some x => .over x
      | none => .discard

/-- The slots with slot `x.slot` replaced or inserted, in rising order. -/
def putSlot (x : SlotSt) : List SlotSt → List SlotSt
  | [] => [x]
  | y :: t => if x.slot = y.slot then x :: t else if x.slot < y.slot then x :: y :: t else y :: putSlot x t

/-! ### Writing (R280, R284-R286) -/

/-- The bus address of slot `k`. -/
def slotAddr (k : Nat) : Nat := 0x24000000 + 32 * k

/-- The eight words of an entry (R280). -/
def entryWords (e : LogEnt) (coal frozen : Bool) (seq : Nat) : List Nat :=
  [e.cls + b2n coal * 4 + b2n frozen * 8 + e.typ % 2 ^ 12 * 16 + e.src % 256 * 2 ^ 16 + e.inc % 256 * 2 ^ 24, seq, e.rt, e.epoch] ++
    if coal then [e.rt, e.epoch, 1, e.data.getD 0 0] else (List.range 4).map fun k => e.data.getD k 0

/-- Write words from address `a` upwards. -/
def Mem.writeWords (m : Mem) : Nat → List Nat → Mem
  | _, [] => m
  | a, w :: t => Mem.writeWords (m.writeN 4 a w) (a + 4) t

/-- Put an entry into slot `k` with sequence number `seq` (R280, R283): it is frozen while its incident's group has
fewer than 64 entries. -/
def State.logInto (s : State) (e : LogEnt) (coal : Bool) (seq k : Nat) : State :=
  let d := s.dev
  let frozen := match d.groupOf e.inc with
    | some g => e.inc != 0 && g.2.2 < 64
    | none => false
  let x : SlotSt :=
    { slot := k, seq := seq, cls := e.cls, typ := e.typ, src := e.src
      group := if frozen then some e.inc else none, coal := if coal then some d.log.period else none }
  let d := d.modLog fun l =>
    { l with slots := putSlot x l.slots
             groups := if frozen then l.groups.map fun g => if g.1 = e.inc then (g.1, g.2.1, g.2.2 + 1) else g
               else l.groups }
  let d := if frozen && d.f LOG_INCID_NUMBER == e.inc then d.setF LOG_INCID_FROZEN_N 0 (d.f LOG_INCID_FROZEN_N + 1) else d
  let d := d.raiseIf (e.cls == 0) LOG_FLAGS_C0_WRITTEN
  let clear := fun l : List Nat => l.filter fun w => !(decide (slotAddr k ≤ w) && decide (w < slotAddr k + 32))
  let d := { d with flash := { d.flash with ce := clear d.flash.ce, ue := clear d.flash.ue } }
  { s with mem := Mem.writeWords s.mem (slotAddr k) (entryWords e coal frozen seq), dev := d }

/-- The next SEQ (R280). -/
def Dev.takeSeq (d : Dev) : Dev × Nat := (d.setR LOG_SEQ 0 (d.r LOG_SEQ + 1), d.r LOG_SEQ)

/-- Write one entry as R285 and R286 place it. `seq` is the number a spilled entry already has. -/
def State.logPlace (s : State) (e : LogEnt) (coal : Bool) (seq : Option Nat) : State :=
  let number := fun (d : Dev) => match seq with
    | some q => (d, q)
    | none => d.takeSeq
  match s.dev.placeFor e.cls with
  | .slot k =>
    let (d, q) := number s.dev
    State.logInto { s with dev := d } e coal q k
  | .over x =>
    let (d, q) := number (s.dev.logLoss x.cls 1)
    State.logInto { s with dev := d } e coal q x.slot
  | .spill =>
    let (d, q) := number s.dev
    { s with dev := d.modLog fun l => { l with spill := l.spill ++ [e], spillSeq := l.spillSeq ++ [q] } }
  | .discard => { s with dev := s.dev.logLoss e.cls 1 }

/-- The coalesced record that an entry merges into (R284). -/
def Dev.mergeSlot (d : Dev) (e : LogEnt) : Option SlotSt :=
  d.log.slots.find? fun x =>
    x.typ == e.typ && x.src == e.src && x.coal == some d.log.period && !x.read && x.group.isNone && !d.pinned x.slot

/-- A merge (R284): the latest time, the count and DATA0 of the latest occurrence; LOG_COALCNT. -/
def State.logMerge (s : State) (e : LogEnt) (x : SlotSt) : State :=
  let a := slotAddr x.slot + 16
  let n := satAdd 32 (s.mem.readN 4 (a + 8)) 1
  { s with mem := Mem.writeWords s.mem a [e.rt, e.epoch, n, e.data.getD 0 0]
           dev := s.dev.setR LOG_COALCNT 0 (satAdd 32 (s.dev.r LOG_COALCNT) 1) }

/-- LOG_WRITE (R284, R285, R289): the next queued entry is merged, or written as a coalesced or a plain entry. With an
empty queue there is nothing to write. -/
def execLogWrite (s : State) : Outcome := s.live fun s =>
  match s.dev.log.intake with
  | [] => s
  | e :: t =>
    let s := { s with dev := s.dev.modLog fun l => { l with intake := t } }
    let coal := s.dev.coalMode && e.cls ≥ 1
    let s := match if coal then s.dev.mergeSlot e else none with
      | some x => s.logMerge e x
      | none => s.logPlace e coal none
    { s with dev := s.dev.showLog }

/-! ### Incidents, software posts, reading (R282, R283, R287, R288) -/

/-- The open incident closes (R283, R290). -/
def Dev.closeIncident (d : Dev) : Dev :=
  if !d.b LOG_INCID_OPEN then d else
  let k := d.f LOG_INCID_NUMBER
  let d := d.setB LOG_INCID_OPEN 0 false |>.raise LOG_FLAGS_INC_CLOSE
  (d.modLog fun l => { l with groups := l.groups.map fun g => if g.1 = k then (g.1, true, g.2.2) else g }).showLog

/-- INCIDENT_CLOSE (R283, R292): QUIET ms, 0 acting as 1, have passed without a class-0 or class-1 arrival; before that
nothing happens. -/
def execIncidentClose (s : State) : Outcome := s.onDev fun d =>
  if d.log.quietAt + 400000 * max 1 (d.f LOG_XCFG_QUIET) ≤ d.now then d.closeIncident else d

/-- LOG_SWPOST (R282). -/
def Dev.swPost (d : Dev) (v : Nat) : Dev :=
  let typ := bits v 0 12
  let cls := bits v 12 2
  if cls = 0 || typ < 0x800 then d.raise LOG_FLAGS_SWREJ
  else d.post cls typ (bits v 16 8) ((List.range 4).map fun k => d.r LOG_SWDATA k)

def execLogSwpost (v : Word) (s : State) : Outcome := s.onDev fun d => d.swPost v.toNat

/-- The two readers of the log: the cores through LOG_NEXT and LOG_ACK, the host through MFR_LOG_NEXT and MFR_LOG_ACK
(R288). -/
def Dev.pinOf (d : Dev) (host : Bool) : Option Nat := if host then d.log.pinHost else d.log.pinCore

/-- Set a reader's pin. -/
def Dev.setPin (d : Dev) (host : Bool) (k : Option Nat) : Dev :=
  d.modLog fun l => if host then { l with pinHost := k } else { l with pinCore := k }

/-- The read of LOG_NEXT: the reader's pinned slot, or the oldest unread entry that the other does not pin, which it
pins; with its value (R288). -/
def Dev.logNext (d : Dev) (host : Bool) : Dev × Nat :=
  match d.pinOf host with
  | some k => (d, k + 2 ^ 31)
  | none =>
    match oldest (d.log.slots.filter fun x => !x.read && d.pinOf (!host) != some x.slot) with
    | none => (d, 0)
    | some x => ((d.setPin host (some x.slot)).showLog, x.slot + 2 ^ 31)

/-- LOG_NEXT_READ (R288): a core reads LOG_NEXT. -/
def Dev.logNextRead (d : Dev) : Dev :=
  let p := d.logNext false
  (p.1.setR LOG_NEXT 0 p.2).answer p.2

def execLogNextRead (s : State) : Outcome := s.onDev Dev.logNextRead

/-- The acknowledgement of slot `k` by a reader (R288). -/
def Dev.logAck (d : Dev) (host : Bool) (k : Nat) : Dev :=
  if d.pinOf host = some k then
    let d := d.modLog fun l => { l with slots := l.slots.map fun x => if x.slot = k then { x with read := true } else x }
    (d.setPin host none).showLog
  else d.raise LOG_FLAGS_ACK_REJ

/-- LOG_ACK (R288). -/
def execLogAck (v : Word) (s : State) : Outcome := s.onDev fun d => d.logAck false (bits v.toNat 0 11)

/-- LOG_RELEASE (R283): the freeze groups of closed incidents are released and their entries become ordinary. -/
def Dev.logRelease (d : Dev) : Dev :=
  let gone := (d.log.groups.filter fun g => g.2.1).map (·.1)
  (d.modLog fun l =>
    { l with groups := l.groups.filter fun g => !g.2.1
             slots := l.slots.map fun x =>
               match x.group with
               | some k => if gone.contains k then { x with group := none } else x
               | none => x }).showLog

def execLogRelease (s : State) : Outcome := s.onDev Dev.logRelease

/-- LOG_CLRLOSS (R287). -/
def Dev.logClrLoss (d : Dev) : Dev := (d.each (List.range 4) fun c d => d.setR LOG_LOSS c 0).showLog

def execLogClrloss (s : State) : Outcome := s.onDev Dev.logClrLoss

/-- SYS reset of the log's own state (R290): the open incident closes, both pins are removed, the intake queue is
discarded and counted; the numbers of incidents start again, so the groups held get keys of their own. -/
def Dev.logSysReset (d : Dev) : Dev :=
  let q := d.log.intake
  let d := (d.setPin false none).setPin true none
  let d := d.modLog fun l => { l with intake := [] }
  let d := d.each (List.range 4) fun c d => d.logLoss c (q.filter fun e => e.cls == c).length
  let k := d.f LOG_INCID_NUMBER
  let d := if d.b LOG_INCID_OPEN then
      (d.setB LOG_INCID_OPEN 0 false).modLog fun l =>
        { l with groups := l.groups.map fun g => if g.1 = k then (g.1, true, g.2.2) else g }
    else d
  d.showLog.rekeyGroups

end Sys2Proof.Machine
end

