-- ==== Sys2Proof/Machine/HostFw.lean ====
section
/-! DEFINITION. The host port's status and its firmware-served commands: the PMBus status registers (R495), the CML
latches, the number formats of R494, and the offer of a command to firmware (R491, R492). -/
namespace Sys2Proof.Machine

def Dev.modHost (d : Dev) (f : HostSt → HostSt) : Dev := { d with host := f d.host }

/-! ### Status (R495) -/

def Dev.stVout (d : Dev) (n : Nat) : Nat := (d.page n).vout
def Dev.stIout (d : Dev) (n : Nat) : Nat := (d.page n).iout
def Dev.stInput (d : Dev) (n : Nat) : Nat := if bit (d.page n).byte 3 then 0x10 else 0
def Dev.stTemp (d : Dev) (n : Nat) : Nat := (d.page n).temp
def Dev.stMfr (d : Dev) (n : Nat) : Nat := (d.page n).mfr

/-- Bits 15 to 8 of STATUS_WORD of page `n`. -/
def Dev.stHigh (d : Dev) (n : Nat) : Nat :=
  0x80 * b2n (d.stVout n != 0) + 0x40 * b2n (d.stIout n != 0) + 0x20 * b2n (d.stInput n != 0) +
    0x10 * b2n (d.stMfr n != 0) + 0x08 * b2n (!d.b RAIL_STAT_POWER_GOOD n) + 0x02 * b2n (d.page n).other

/-- STATUS_BYTE of page `n`. -/
def Dev.stByte (d : Dev) (n : Nat) : Nat :=
  let off := !d.b RAIL_STAT_ENABLED n || d.b RAIL_STAT_SHUTTING n
  let v := 0x80 * b2n (d.b HB_STAT_FW_PEND) + 0x40 * b2n off + ((d.page n).byte &&& 0x38) +
    4 * b2n (d.stTemp n != 0) + 2 * b2n (d.host.cml != 0)
  v + b2n (v == 0 && (d.stHigh n &&& 0xF2) != 0)

/-- STATUS_WORD of page `n`. -/
def Dev.stWord (d : Dev) (n : Nat) : Nat := d.stByte n + 256 * d.stHigh n

/-! ### CML (R495, R499, R502) -/

/-- STATUS_CML bits. -/
abbrev cmlCommand : Nat := 0x80
abbrev cmlData : Nat := 0x40
abbrev cmlPec : Nat := 0x20
abbrev cmlOther : Nat := 0x02

/-- A CML bit is latched; INVALID is set with any but PEC failed; the requests CML and STATUS rise (R495, R499). -/
def Dev.cmlLatch (d : Dev) (k : Nat) : Dev :=
  let fresh := (d.host.cml &&& k) == 0
  let d := (d.modHost fun h => { h with cml := h.cml ||| k }).raiseIf (k != cmlPec) HB_FLAGS_INVALID
  (if fresh then d.statRise else d).alertScan

/-- CLEAR_FAULTS of page `n` (R496): every latch of the page clears, and is set again where its condition still holds. -/
def Dev.clearPage (d : Dev) (n : Nat) : Dev :=
  (d.modHost fun h => { h with pages := h.pages.setIfInBounds n {} }).hostScan n

/-! ### Number formats (R494) -/

/-- round (a / b / 2^n). -/
def scaled (a : Int) (b : Nat) (n : Int) : Int :=
  if n < 0 then rdiv (a * 2 ^ n.natAbs) b else rdiv a (b * 2 ^ n.natAbs)

/-- The LINEAR11 word of a / b: the lowest exponent from `lo` on whose rounded mantissa fits 11 bits. -/
def linear11 (a : Int) (b : Nat) (lo : Int) : Nat :=
  let ns := (List.range 32).map fun (k : Nat) => lo + (k : Int)
  let n := (ns.find? fun n => decide (-1024 ≤ scaled a b n) && decide (scaled a b n ≤ 1023)).getD 15
  ofS 5 n * 2 ^ 11 + ofS 11 (scaled a b n)

/-- round (Y × 2^n × k) of a LINEAR11 word. -/
def fromLinear11 (w k : Nat) : Int :=
  let n := toS 5 (bits w 11 5)
  let y := toS 11 (bits w 0 11)
  if n < 0 then rdiv (y * k) (2 ^ n.natAbs) else y * k * 2 ^ n.natAbs

/-- A code in LINEAR16 with exponent -12, of a quantity of 0.25 mV. -/
def linear16 (v : Nat) : Nat := (rdiv ((v : Int) * 4096) 4000).toNat % 2 ^ 16

/-! ### The firmware-served commands (R491, R492, R494) -/

abbrev cmdOperation : Nat := 0x01
abbrev cmdVoutCommand : Nat := 0x21
abbrev cmdTransitionRate : Nat := 0x27
abbrev cmdDroop : Nat := 0x28
abbrev cmdMailbox : Nat := 0xDA

/-- Little-endian value of a byte list. -/
def leNat (l : List Nat) : Nat := l.foldr (fun b v => b % 256 + 256 * v) 0

/-- The register value of a firmware-served write; none where the conversion fails (R494). -/
def fwConvert (code : Nat) (l : List Nat) : Option Nat :=
  let w := leNat l
  let inside := fun (x : Int) (lo hi : Nat) => if decide ((lo : Int) ≤ x) && decide (x ≤ hi) then some x.toNat else none
  if code = cmdOperation then (if w = 0x80 then some 1 else if w = 0x00 || w = 0x40 then some 0 else none)
  else if code = cmdVoutCommand then inside (rdiv ((w : Int) * 4000) 4096) 0x04B0 0x1F40
  else if code = cmdTransitionRate then inside (fromLinear11 w 10) 1 60000
  else if code = cmdDroop then inside (fromLinear11 w 1000) 0 3999
  else some 0

/-- Put bytes into a buffer of eight registers, byte 4j in bits [7:0] of word j; the bytes beyond them are 0. -/
def Dev.setBuf (d : Dev) (g : Reg) (l : List Nat) : Dev :=
  d.each (List.range 8) fun k d => d.setR g k (leNat ((l.drop (4 * k)).take 4))

/-- The bytes of a buffer of eight registers. -/
def Dev.buf (d : Dev) (g : Reg) (n : Nat) : List Nat :=
  (List.range n).map fun i => bits (d.r g (i / 4)) (8 * (i % 4)) 8

/-- The device begins to hold SCL low (R491). -/
def Dev.stretch (d : Dev) : Dev := (d.setB HB_STAT_STRETCH 0 true).modHost fun h => { h with stretchAt := d.now }

/-- The command is offered (R492). -/
def Dev.fwOffer (d : Dev) (code : Nat) (x : HostXact) (v : Nat) : Dev :=
  let l := (x.data.getD []).map BitVec.toNat
  let page := d.f HB_STAT_PAGE
  let pec := match x.pec with
    | .good => true
    | _ => false
  let d := d.setR HB_FWCMD 0 (code + l.length * 2 ^ 8 + b2n x.read * 2 ^ 16 + b2n (!x.read && pec) * 2 ^ 17 +
    page % 8 * 2 ^ 18 + b2n (page == 0xFF) * 2 ^ 21 + 2 ^ 31)
  let d := (d.setR HB_FWVAL 0 v).setBuf HB_RXBUF l
  let d := (d.setB HB_STAT_FW_PEND 0 true).raise HB_FLAGS_FW_CMD
  if x.read then d.stretch else d.setB HB_STAT_STRETCH 0 false

/-- Not acknowledged. -/
def Dev.hostNak (d : Dev) : Dev := d.modHost fun h => { h with ack := false }

/-- A write part is refused by its PEC, HB_CTRL.PEC_REQ, WRITE_PROTECT above `free`, or PAGE 0xFF on a command that names a
page (R490, R493, R496): the device after it. None where nothing refuses it. -/
def Dev.writeRefused (d : Dev) (x : HostXact) (free : Nat) (paged : Bool) : Option Dev :=
  match x.pec with
  | .bad => some (((d.hostNak.cmlLatch cmlPec).raise HB_FLAGS_PEC_ERR).incSat HB_CNT_PECERR)
  | p =>
    if p == .none && d.b HB_CTRL_PEC_REQ then some (d.cmlLatch cmlCommand)
    else if d.f HB_STAT_WP > free || (d.f HB_STAT_PAGE = 0xFF && paged) then some (d.cmlLatch cmlData)
    else none

/-- The data bytes of the write part. -/
def xactBytes (x : HostXact) : List Nat := (x.data.getD []).map BitVec.toNat

/-- The highest WRITE_PROTECT value that still allows a firmware-served write (R496). -/
def fwFree (code : Nat) : Nat := if code = cmdOperation then 0x40 else if code = cmdVoutCommand then 0x20 else 0

/-- A firmware-served write that names a page and refuses PAGE 0xFF (R493). -/
def fwPaged (code : Nat) : Bool := code != cmdOperation && code != cmdMailbox

/-- The data bytes that a firmware-served write needs; the mailbox takes any number. -/
def fwNeeds (code : Nat) : Nat := if code = cmdOperation then 1 else if code = cmdMailbox then 0 else 2

/-- The bytes a read returns, the PEC over the whole transaction last (R109, R490). `w` are the bytes of the write part
after the command code. -/
def Dev.respond (d : Dev) (code : Nat) (w l : List Nat) : Dev :=
  let a := 2 * d.f HB_STAT_ADDR
  d.modHost fun h => { h with resp := l ++ [crc8 ([a, code] ++ w ++ [a + 1] ++ l)] }

/-- The k-th byte that the controller clocks out of a read: after the PEC, and in a read that has expired, 0xFF (R490,
R491). -/
def HostSt.byte (h : HostSt) (k : Nat) : Nat := h.resp.getD k 0xFF

/-- A firmware-served transaction goes on after the acknowledge of its code (R490 to R493): a read is offered; a write that is
cut short has no effect, one that nothing refuses is offered, and a value that fails the conversion latches CML
invalid-data. -/
def Dev.fwServe (d : Dev) (code : Nat) (x : HostXact) : Dev :=
  if x.read then
    if d.f HB_STAT_PAGE = 0xFF then (d.cmlLatch cmlData).respond code [] [0xFF] else d.fwOffer code x 0
  else if (xactBytes x).length < fwNeeds code then d
  else match d.writeRefused x (fwFree code) (fwPaged code) with
    | some d' => d'
    | none =>
      match fwConvert code (xactBytes x) with
      | some v => d.fwOffer code x v
      | none => d.cmlLatch cmlData

/-- Firmware-served commands are offered (R491). DEDUCED (log 77): FW_READY counts as 0 in BOOT and SAFE. -/
def Dev.fwReady (d : Dev) : Bool := d.b HB_CTRL_FW_READY && d.modeNow != modeBoot && d.modeNow != modeSafe

/-- The device stretches before the acknowledge of a firmware-served command code (R491). -/
def Dev.fwHolds (d : Dev) : Bool :=
  d.b HB_FWCMD_VALID || d.modeNow == modeStandby || d.cpu.replay.isSome || d.cpu.selfTest || d.cpu.joining

/-- A stretched command goes on once nothing holds it; it is not acknowledged once FW_READY is 0. -/
def Dev.fwResume (d : Dev) : Dev :=
  match d.host.xact with
  | none => d
  | some (code, x) =>
    let go := (d.modHost fun h => { h with xact := none }).setB HB_STAT_STRETCH 0 false
    if !d.fwReady then go.hostNak else if d.fwHolds then d else go.fwServe code x

/-- A firmware-served command reaches its code (R491): not acknowledged while FW_READY is 0, stretched while something
holds it. -/
def Dev.fwTake (d : Dev) (code : Nat) (x : HostXact) : Dev :=
  if !d.fwReady then d.hostNak else (d.modHost fun h => { h with xact := some (code, x) }).stretch.fwResume

/-- A write of HB_FWACK (R492, R502): DONE ends the offer and releases a stretch. -/
def Dev.fwAckWrite (d : Dev) (v : Nat) : Dev :=
  if !bit v 0 || !d.b HB_FWCMD_VALID then d else
  let d := (d.setB HB_FWCMD_VALID 0 false).setB HB_STAT_FW_PEND 0 false
  let d := if bit v 1 then d.cmlLatch cmlData else d
  let k := min 32 (bits v 8 6)
  let d := if d.b HB_FWCMD_READ && d.b HB_STAT_STRETCH && d.host.xact.isNone then
      (d.respond (d.f HB_FWCMD_CODE) [] (k :: d.buf HB_TXBUF k)).setB HB_STAT_STRETCH 0 false
    else d
  (d.setB HB_FWCMD_READ 0 false).fwResume

end Sys2Proof.Machine
end

