-- ==== Sys2Proof/Machine/Qspi.lean ====
section
/-! DEFINITION. The QSPI controller (R513-R518). What the external flash answers comes with the row. -/
namespace Sys2Proof.Machine

def Dev.modQspi (d : Dev) (f : QspiSt → QspiSt) : Dev := { d with qspi := f d.qspi }

/-- A command or spill that writes or erases invalidates the prefetch line at its end (R514). -/
def Dev.lineDrop (d : Dev) : Dev := (d.modQspi fun q => { q with line := none }).setB QSPI_STAT_LINE_VALID 0 false

/-- Fields of a QSPI_CMD value (R518). -/
def qsOp (v : Nat) : Nat := bits v 0 8
def qsLen (v : Nat) : Nat := min 256 (bits v 16 9)
def qsDir (v : Nat) : Bool := bit v 25
def qsPoll (v : Nat) : Bool := bit v 26
def qsWren (v : Nat) : Bool := bit v 27

def qsDummy (v : Nat) : Nat := bits v 10 4

/-- The lanes of CMD.LANES (R518). DESIGN CHOICE (log 77): 3 acts as 0. -/
def qsLanes (v : Nat) : Nat × Nat × Nat := match bits v 14 2 with | 1 => (1, 4, 4) | 2 => (1, 1, 4) | _ => (1, 1, 1)

/-- The lanes of a window read by CTRL.RDMODE (R513, R518). -/
def Dev.rdLanes (d : Dev) : Nat × Nat × Nat :=
  match d.f QSPI_CTRL_RDMODE with | 0 => (1, 1, 1) | 1 => (1, 1, 4) | 2 => (1, 4, 4) | _ => (4, 4, 4)

/-- An address of three or four bytes, the most significant first. -/
def addrBytes (four : Bool) (a : Nat) : List Nat := (if four then [bits a 24 8] else []) ++ [bits a 16 8, bits a 8 8, bits a 0 8]

/-- The bytes a command sends (R515): the write enable, the opcode, the address, then data of QSPI_BUF. -/
def Dev.qsSend (d : Dev) (v : Nat) : List Nat :=
  let al := bits v 8 2
  let addr := if al = 1 || al = 2 then addrBytes (al == 2) (d.r QSPI_ADDR) else []
  let data := if qsDir v then (List.range (qsLen v)).map fun k => bits (d.r QSPI_BUF (k / 4)) (8 * (k % 4)) 8 else []
  (if qsWren v then [0x06] else []) ++ [qsOp v] ++ addr ++ data

/-- The command `v` begins (R515): what it sends, after `before`. -/
def Dev.qsBegin (d : Dev) (v : Nat) (before : List Nat) : Dev :=
  d.modQspi fun q => { q with waits := false, sent := before ++ d.qsSend v, dummy := qsDummy v, lanes := qsLanes v }

/-- GO (R515): one command starts, or is refused while another runs. It waits for the spills that wait (R516). -/
def Dev.qsGo (d : Dev) (v : Nat) : Dev :=
  if d.qspi.cmd.isSome then d.raise QSPI_FLAGS_CMD_REJ else
  let d := d.setR QSPI_OPSTAT 0 (opWord opRunning 0 0 0 false) |>.setB QSPI_STAT_BUSY 0 true
  let d := d.modQspi fun q => { q with cmd := some v }
  if d.log.spill.isEmpty then d.qsBegin v [] else d.modQspi fun q => { q with waits := true }

/-- A transfer runs that is no window read: a command that has begun. -/
def Dev.qsRuns (d : Dev) : Bool := d.qspi.cmd.isSome && !d.qspi.waits

/-- A window read that misses waits: a spill and a command go before it (R516). -/
def Dev.qsHolds (d : Dev) : Bool := d.qspi.cmd.isSome || !d.log.spill.isEmpty

/-- QSPI_STAT as it reads (R518): a spill that waits runs as soon as no command does. -/
def Dev.qsStat (d : Dev) : Nat :=
  if d.log.spill.isEmpty || d.qsRuns then d.r QSPI_STAT else d.r QSPI_STAT ||| 3

/-- Command `v` writes or erases (R514): it has a write enable of its own, or data to write. DEDUCED (log 77): so does one
without data that follows a write enable sent as a command. -/
def Dev.qsWrites (d : Dev) (v : Nat) : Bool :=
  qsWren v || (qsDir v && qsLen v > 0) || (d.qspi.wel && qsLen v == 0 && qsOp v != 0x06)

/-- The command that runs ends (R515). DESIGN CHOICE (log 77): CMD_FAIL is set by an abort too. -/
def Dev.qsEnd (d : Dev) (state reason : Nat) : Dev :=
  let v := d.qspi.cmd.getD 0
  let d := d.setF QSPI_OPSTAT_STATE 0 state |>.setF QSPI_OPSTAT_REASON 0 reason
  let d := if state = opDone then d.raise QSPI_FLAGS_CMD_DONE else d.raise QSPI_FLAGS_CMD_FAIL
  let writes := d.qsWrites v
  let d := (d.setB QSPI_STAT_BUSY 0 false).modQspi fun q =>
    { q with cmd := none, waits := false, polling := false, wel := (q.wel || qsOp v == 0x06) && !writes }
  if writes then d.lineDrop else d

/-- Bytes read from the external flash enter QSPI_BUF. -/
def Dev.qsTake (d : Dev) (n : Nat) (data : List Nat) : Dev :=
  d.each (List.range n) fun k d =>
    d.setR QSPI_BUF (k / 4) (putBits (d.r QSPI_BUF (k / 4)) (8 * (k % 4)) 8 (data.getD k 0))

/-- A command that is aborted stops at the next byte boundary (R515): how many of its bytes have passed by then is free, and
so are those read. One that has not begun passes none; one that polls has passed them all. -/
def Dev.qsCut (d : Dev) (v : Nat) : Dev :=
  if d.qspi.waits || d.qspi.polling then d else
  let (x, d) := d.fresh 16
  if qsDir v || qsLen v = 0 then d.modQspi fun q => { q with sent := q.sent.take (x % (q.sent.length + 1)) }
  else
    let (l, d) := d.freshBytes 256
    d.qsTake (x % (qsLen v + 1)) l

/-- ABORT (R515). -/
def Dev.qsAbort (d : Dev) : Dev :=
  if d.qspi.cmd.isSome then (d.qsCut (d.qspi.cmd.getD 0)).qsEnd opAborted 1
  else if d.f QSPI_OPSTAT_STATE = opDone then d.setB QSPI_OPSTAT_ABORT_LATE 0 true else d

/-- A write of QSPI_CMD: GO, or ABORT, which GO overrides (R518). -/
def Dev.qsWrite (d : Dev) (v : Nat) : Dev := if bit v 31 then d.qsGo v else if bit v 30 then d.qsAbort else d

/-- QSPI_COMMAND: a write of QSPI_CMD with GO 1. -/
def execQspiCommand (v : Word) (s : State) : Outcome := s.onDev fun d => d.storeTo QSPI_CMD 0 fun d => d.qsGo v.toNat
def execQspiAbort (s : State) : Outcome := s.onDev fun d => d.storeTo QSPI_CMD 0 Dev.qsAbort

/-- QSPI_POLL (R515): a status read of a polling command, 10 µs after the one before; bit 0 of the answer at 0 ends it. The
status opcode is QSPI_XPOLL (R517). DESIGN CHOICE (log 77): PROGRESS counts the polls modulo 4,096. -/
def execQspiPoll (status : Byte) (s : State) : Outcome := s.onDev fun d =>
  if !d.qspi.polling || d.now < d.qspi.pollAt then d else
  let d := d.setF QSPI_OPSTAT_PROGRESS 0 (d.f QSPI_OPSTAT_PROGRESS + 1)
  let d := d.modQspi fun q => { q with sent := [d.f QSPI_XPOLL_OP] }
  if status.toNat % 2 = 0 then d.qsEnd opDone 0 else d.modQspi fun q => { q with pollAt := d.now + 4000 }

/-- QSPI_POLLTO in cycles of 400 MHz (R517). -/
def Dev.pollMax (d : Dev) : Nat := 400000 * (d.r QSPI_POLLTO % 2 ^ 16)

/-- QSPI_POLL_TIMEOUT (R515). -/
def execQspiPollTimeout (s : State) : Outcome := s.onDev fun d =>
  if !d.qspi.polling || d.now ≤ d.qspi.pollFrom + d.pollMax then d else
  let op := qsOp (d.qspi.cmd.getD 0)
  let d := d.qsEnd opFailed 2
  d.post 2 0x053 op [d.r QSPI_ADDR, d.r QSPI_OPSTAT]

/-- QSPI_COMMAND_END (R515): the data phase is over; a command without POLL is complete, one with POLL begins to poll. -/
def execQspiCommandEnd (data : List Byte) (s : State) : Outcome := s.onDev fun d =>
  match d.qspi.cmd with
  | some v =>
    if d.qspi.polling || d.qspi.waits then d else
    let d := if qsDir v then d else d.qsTake (qsLen v) (data.map (·.toNat))
    if qsPoll v then d.modQspi fun q => { q with polling := true, pollFrom := d.now, pollAt := d.now }
    else d.qsEnd opDone 0
  | none => d

/-- A miss at `a` fetches the aligned 32 bytes that hold it into the prefetch line (R513, R514), with the opcode RDOP, the
address in 3 or 4 bytes and DUMMY clocks, in the lanes of RDMODE. -/
def Dev.lineFill (d : Dev) (a : Nat) (bytes : List Nat) : Dev :=
  (d.modQspi fun q =>
    { q with line := some (a - a % 32, (bytes ++ List.replicate 32 0).take 32)
             sent := d.f QSPI_CTRL_RDOP :: addrBytes (d.b QSPI_CTRL_ADDR4) (a - a % 32 - 0x60000000)
             dummy := d.f QSPI_CTRL_DUMMY, lanes := d.rdLanes }).setB QSPI_STAT_LINE_VALID 0 true

/-- The `size` bytes at `a` of the prefetch line, when it holds them. -/
def Dev.lineRead (d : Dev) (a size : Nat) : Option Nat :=
  match d.qspi.line with
  | some (base, bytes) =>
    if base ≤ a ∧ a + size ≤ base + 32 then
      some ((List.range size).foldl (fun v k => v + bytes.getD (a - base + k) 0 % 256 * 2 ^ (8 * k)) 0)
    else none
  | none => none

/-- QSPI_WINDOW_READ (R514): a hit takes the prefetch line; a miss waits for a spill or a
command (R516), and fetches the aligned 32 bytes, which come with the row. -/
def execQspiWindowRead (_m : Master) (addr : Word) (size : Nat) (line : List Byte) (s : State) : Outcome := s.onDev fun d =>
  let a := addr.toNat
  if a < 0x60000000 ∨ a ≥ 0x64000000 then d.busFail synUnmapped
  else if !d.b QSPI_CTRL_EN then d.busFail synUnmapped
  else if !alignedTo a size then d.busFail synSize
  else if d.qsHolds && (d.lineRead a size).isNone then d
  else
    let d := match d.lineRead a size with
      | some _ => d
      | none => d.lineFill a (line.map BitVec.toNat)
    d.answer ((d.lineRead a size).getD 0)

/-- What a spill sends (R286, R516): the write enable, the page program of the entry at the spill address, the status
opcode. -/
def Dev.spillBytes (d : Dev) (e : LogEnt) (q : Nat) : List Nat :=
  let four := d.b QSPI_CTRL_ADDR4
  let body := (entryWords e false false q).flatMap fun w => (List.range 4).map fun k => bits w (8 * k) 8
  [0x06, if four then 0x12 else 0x02] ++ addrBytes four (d.r LOG_SPILLBASE + 32 * d.r LOG_SPILLPTR) ++ body ++
    [d.f QSPI_XPOLL_OP]

/-- QSPI_SPILL (R286, R516): while no command has begun, the oldest entry of the spill buffer is programmed to the external
flash; a poll that times out sets SPILL_ERR, clears SPILL_EN and sends every entry of the buffer to the log's slots. A
command that waits begins after the last. -/
def execQspiSpill (ok : Bool) (s : State) : Outcome := s.live fun s =>
  let d := s.dev
  if d.qsRuns then s else
  match d.log.spill with
  | [] => s
  | e :: t =>
    let sent := d.spillBytes e (d.log.spillSeq.headD 0)
    let d := d.modQspi fun x => { x with sent := sent, dummy := 0, lanes := (1, 1, 1), wel := false }
    let next := fun d : Dev => match d.qspi.cmd with
      | some v => if d.log.spill.isEmpty then d.qsBegin v sent else d
      | none => d
    if ok then
      let d := d.modLog fun l => { l with spill := t, spillSeq := l.spillSeq.drop 1 }
      let d := d.setR LOG_SPILLPTR 0 (d.r LOG_SPILLPTR + 1)
      let d := d.raiseIf (d.r LOG_SPILLPTR ≥ d.r LOG_SPILLSIZE % 2 ^ 16 * 128) LOG_FLAGS_SPILL_FULL
      { s with dev := next d.lineDrop.showLog }
    else
      let es := (e :: t).zip d.log.spillSeq
      let d := d.modLog fun l => { l with spill := [], spillSeq := [] }
      let d := (d.raise LOG_FLAGS_SPILL_ERR).setB LOG_CTRL_SPILL_EN 0 false
      let s := es.foldl (fun s x => State.logPlace s x.1 false (some x.2)) { s with dev := d }
      { s with dev := next s.dev.lineDrop.showLog }

end Sys2Proof.Machine
end

