-- ==== Sys2Proof/Machine/House.lean ====
section
/-! DEFINITION. The housekeeping scan (R52, R53, R257, R258) and the rows of the intent port and of Hawkmoth
(R110-R128, R136, R137). -/
namespace Sys2Proof.Machine

/-! ### Housekeeping (R52, R257) -/

/-- The temperature of die sensor `k` from its raw code by the factory calibration that is loaded (R257, R455, R456). -/
def Dev.dieTemp (d : Dev) (k : Nat) (raw : Int) : Int :=
  let w := d.flash.dt.getD k 0
  satS 16 (rdiv ((raw - toS 16 (bits w 0 16)) * bits w 16 16) (2 ^ 14))

/-- A channel's code in the format of R52: `code` is the averaged pin voltage in mV, VINS scaled by the pin map in force
(R234), a TSEN voltage turned into a temperature (R257); of a die sensor it is the raw code, which its trims turn into
the temperature (R455). -/
def Dev.hkValue (d : Dev) (ch : Nat) (code : Nat) : Int :=
  if ch = 0 then
    let scale := if d.cfg.pinmap then d.cfg.vinsScale else 0x10000
    satU 16 (rdiv ((code : Int) * scale) (2 ^ 16))
  else if ch ≤ 8 then
    satS 16 (rdiv (((code : Int) - d.f ACCUM_TSCAL_TZERO) * d.f ACCUM_TSCAL_TSLOPE) 256)
  else if ch = 17 || ch = 18 then d.dieTemp (ch - 17) (toS 16 code)
  else code

/-- A VINS sample: RAIL_VIN, RVD and RVO of every rail, and the input-voltage cause (R53, R100, R166). -/
def Dev.vinSample (d : Dev) (v : Nat) : Dev :=
  d.each (List.range 8) fun n d =>
    let d := (d.setF RAIL_VIN_VIN n v).reckonRv n
    let low := decide (v < d.a RAIL_XDISTM_VIN_MIN n)
    let k := if low then (d.rail n).sq.tvin + 1 else 0
    let d := d.modSq n fun q => { q with tvin := k }
    if k ≥ 2 then d.shutAsk n causeVin else d

/-- A TSEN sample of cluster `k`: the flags on a rise through a limit, and the fault OT (R157, R185). -/
def Dev.tempSample (d : Dev) (k : Nat) (t : Int) : Dev :=
  let first := !(d.cluster k).seen
  let old := d.fs CL_STAT_TEMP k
  let warn := d.fs CL_OTLIM_OT_WARN k
  let lim := d.fs CL_OTLIM_OT_FAULT k
  let d := d.setFs CL_STAT_TEMP k t
  let d := d.modCluster k fun c => { c with seen := true }
  let d := d.raiseIf (decide (t ≥ warn) && (first || decide (old < warn))) CL_FLAGS_OT_WARN k
  let d := d.raiseIf (decide (t ≥ lim) && (first || decide (old < lim))) CL_FLAGS_OT_FAULT k
  let d := d.each ((((List.range 4).map fun j => 4 * k + j).filter fun i => d.sRole i != roleNone).map d.sRail).eraseDups
    fun n d => d.hostScan n
  if t ≥ lim then
    d.each (((List.range 4).map fun j => 4 * k + j).filter fun i => d.sRole i != roleNone && d.sState i != stFaulted)
      fun i d => d.faultSlice i 2
  else d

/-- A converter-reference check: the clusters in turn (R257, R258). -/
def Dev.refSample (d : Dev) (mv : Nat) : Dev :=
  let k := d.accum.refVisit % 8
  let d := { d with accum := { d.accum with refVisit := (d.accum.refVisit + 1) % 8 } }
  d.modCluster k fun c => { c with refBad := mv < 1176 || mv > 1224 }

/-- HOUSEKEEPING_SLOT (R52): channel `ch` delivers a new sample. -/
def Dev.hkSlot (d : Dev) (ch code : Nat) : Dev :=
  let v := d.hkValue ch code
  let next := if ch = 0 then (d.f SYSCTL_HKSTAT_SLOT + 1) % 46 else 2 * ch % 46
  let d := d.setF SYSCTL_HKSTAT_SLOT 0 next
  let d := if next = 0 then d.inc SYSCTL_HKSTAT_FRAMES else d
  let d := { d with accum := { d.accum with hk := d.accum.hk.setIfInBounds ch (ofS 16 v) } }
  let d := if ch = 0 then d.vinSample v.toNat
    else if ch ≤ 8 then d.tempSample (ch - 1) v
    else if ch = 9 then d.setB BD_STAT_VBAT_LOW 0 (decide (v < 1800))
    else if ch = 23 then d.refSample v.toNat
    else d
  d.stream (0x41 + ch) v false

def execHousekeepingSlot (ch : Fin 24) (code : Half) (s : State) : Outcome := s.onFabric fun d => d.hkSlot ch code.toNat

/-! ### The intent port (R107-R113, R136) -/

def execIntentFrame (frame : BitVec 40) (s : State) : Outcome :=
  s.onFabric fun d => d.intentFrame ((List.range 20).map (edgeLevels frame.toNat))

/-- INTENT_FRAME_TRUNCATED (R111): a frame of `edges` edges has been followed by GAP idle cycles, which end here; the lines
show their idle levels (R106, R136). -/
def execIntentFrameTruncated (edges : Nat) (s : State) : Outcome := s.onFabric fun d =>
  let d := d.portLines false true true
  if d.portOn && 0 < edges && edges < 20 && d.gapPast (edgeZero (d.now - d.gap) edges) then
    let d := d.edgeSeen (d.now - d.gap)
    let d := { d with hm := { d.hm with longOpen := false, longAt := none } }
    (d.raise HM_FLAGS_TRUNC).incSat HM_CNT_ERR_TRUNC |>.setF HM_PORTSTAT_EDGES 0 0
  else d

/-- INTENT_FRAME_LONG (R111): an edge after edge 19, before the lines have been idle for GAP cycles. Where the frame is still
to be accepted, in the 3 cycles after its edge 19, the edge waits for its row; where no frame precedes it at all, it is an
edge of no frame. INT_CK changes its level; the row brings none of the data lines at that edge, which are free (R136). -/
def execIntentFrameLong (s : State) : Outcome := s.onFabric fun d =>
  let (x, d) := d.fresh 2
  let d := d.portLines (!d.b HM_PORTSTAT_CK) (bit x 0) (bit x 1)
  if !d.portOn then d
  else if d.gapPast d.now then { d with hm := { d.hm with longAt := some d.now } }
  else d.longEdge d.now

/-- INTENT_PORT_STUCK (R112): `ck`, `d0`, `d1` are the line levels, held for 512 cycles without an edge; sooner the port does
not become stuck. -/
def execIntentPortStuck (ck d0 d1 : Bool) (s : State) : Outcome := s.onFabric fun d =>
  let d := d.portLines ck d0 d1
  if d.portOn && (ck || !d0 || !d1) && d.quietFor 512 then
    let d := d.setB HM_PORTSTAT_STUCK 0 true |>.setF HM_PORTSTAT_EDGES 0 0 |>.raise HM_FLAGS_STUCK_SET
    let d := { d with hm := { d.hm with edgeAt := some d.now, longOpen := false, longAt := none } }
    d.post 2 0x020 0 [d.r HM_PORTSTAT]
  else d

/-- INTENT_PORT_UNSTUCK (R112): all three lines have been at their idle levels for 512 cycles, all of them after the port
became stuck. In SAFE the port is stopped and stays as it is (R34). -/
def execIntentPortUnstuck (s : State) : Outcome := s.onFabric fun d =>
  let d := d.portLines false true true
  if d.b HM_PORTSTAT_STUCK && !d.hmStopped && d.quietFor 512 then
    let d := { d with hm := { d.hm with edgeAt := none } }
    (d.setB HM_PORTSTAT_STUCK 0 false).raise HM_FLAGS_STUCK_CLR |>.post 2 0x021 0 []
  else d

/-- HM_RELAY_LO_WRITE (R113). -/
def execHmRelayLoWrite (v : Word) (s : State) : Outcome := s.onDev fun d =>
  d.storeTo HM_RELAY_LO 0 fun d => d.relayFrame (d.f HM_RELAY_HI_BITS * 2 ^ 32 + v.toNat)

def execHmPortEnWrite (en : Bool) (s : State) : Outcome := s.onDev fun d => d.storeTo HM_CTRL 0 fun d => d.setPortEn en

/-! ### Predictions and signatures -/

/-- PREDICTION_BIAS_START (R117): from the first decision at or after TS - 8 × T_BIAS. -/
def execPredictionBiasStart (n : Fin 8) (s : State) : Outcome := s.onHawkmoth fun d => d.biasStart n

def execScheduleSegment (n : Fin 8) (s : State) : Outcome := s.onHawkmoth fun d => d.segmentDue n
def execPredictionMiss (n : Fin 8) (s : State) : Outcome := s.onHawkmoth fun d => d.predMiss n
def execReversal (n : Fin 8) (s : State) : Outcome := s.onHawkmoth fun d => d.reversal n
def execPredictionEnd (n : Fin 8) (s : State) : Outcome := s.onHawkmoth fun d => d.predEnd n
def execObservationExpiry (n : Fin 8) (s : State) : Outcome := s.onHawkmoth fun d => d.obsExpire n
def execSignatureLearn (n : Fin 8) (s : State) : Outcome := s.onHawkmoth fun d => d.learn n
def execSignatureAgeTick (n : Fin 8) (s : State) : Outcome := s.onHawkmoth fun d => d.ageTick n
def execHmrailClear (n : Fin 8) (s : State) : Outcome := s.onDev fun d => d.storeTo HMRAIL_CTRL n fun d => d.hmClear n

/-- A write of HM_SIGSEL with RD, WR or both (R136). -/
def Dev.sigSel (d : Dev) (n e rd wr : Nat) : Dev := d.writeSigsel (e + n * 2 ^ 8 + rd * 2 ^ 16 + wr * 2 ^ 17)

def execSignatureRead (n : Fin 8) (e : Fin 64) (s : State) : Outcome := s.onDev fun d =>
  d.storeTo HM_SIGSEL 0 fun d => d.sigSel n e 1 0
def execSignatureWrite (n : Fin 8) (e : Fin 64) (s : State) : Outcome := s.onDev fun d =>
  d.storeTo HM_SIGSEL 0 fun d => d.sigSel n e 0 1
def execSignatureExchange (n : Fin 8) (e : Fin 64) (s : State) : Outcome := s.onDev fun d =>
  d.storeTo HM_SIGSEL 0 fun d => d.sigSel n e 1 1

end Sys2Proof.Machine
end

