-- ==== Sys2Proof/Machine/Timer.lean ====
section
/-! DEFINITION. The sixteen timers (R519-R525) and their makeup after sleep (R313-R315). A match, a wrap or the end of a
one-shot is the increment that reaches it. -/
namespace Sys2Proof.Machine

/-- TIMERt_CTRL.MODE codes. -/
abbrev tmFree : Nat := 0
abbrev tmPeriod : Nat := 1
abbrev tmOneshot : Nat := 2

/-- TIMERt_CTRL.SLAVE codes (R521). -/
abbrev tsGated : Nat := 1
abbrev tsReset : Nat := 2
abbrev tsClock : Nat := 3
abbrev tsTrigger : Nat := 4

def Dev.modTimer (d : Dev) (f : TimerSt → TimerSt) : Dev := { d with timer := f d.timer }

/-- The timers are stopped for sleep or held (R309, R311). -/
def Dev.timersStopped (d : Dev) : Bool := d.mode.sleep ≥ 2

/-- A debug halt is in force (R325, R519). -/
def Dev.debugHalt (d : Dev) : Bool := d.cpu.a.debug || d.cpu.b.debug

/-- Timer `t` counts, but for the gate and the trigger of its slave mode (R519, R522). -/
def Dev.timerOn (d : Dev) (t : Nat) : Bool :=
  d.b TIMERt_CTRL_EN t && (!d.b TIMERt_CTRL_LEGACY t || d.b TIMER_GCTRL_GSTART) && !d.timersStopped &&
    !(d.b TIMER_XDBG_FREEZE && d.debugHalt)

/-- Which timers count now, masters first: bit t (R519, R521). A CLOCK slave counts its master's events. -/
def Dev.timersCounting (d : Dev) : Nat :=
  (List.range 16).foldl (fun v t =>
    let m := d.f TIMERt_CTRL_MASTER t
    let gate := bit v m && decide (d.r TIMERt_COUNT m < d.r TIMERt_MATCH m)
    let ok := d.timerOn t && (d.f TIMERt_CTRL_SLAVE t != tsGated || gate) &&
      (d.f TIMERt_CTRL_SLAVE t != tsTrigger || bit d.timer.trig t)
    v + b2n ok * 2 ^ t) 0

/-- One increment of timer `t` (R520): whether it raised its MATCH and its WRAP. -/
def Dev.timerInc (d : Dev) (t : Nat) : Dev × Bool × Bool :=
  let c := d.r TIMERt_COUNT t
  let mode := d.f TIMERt_CTRL_MODE t
  let wrap := (mode = tmFree && c == 2 ^ 32 - 1) || (mode = tmPeriod && c == d.r TIMERt_RELOAD t)
  let c1 := if wrap then 0 else (c + 1) % 2 ^ 32
  let mt := c1 != c && c1 == d.r TIMERt_MATCH t
  let d := (d.setR TIMERt_COUNT t c1).raiseIf wrap TIMERt_FLAGS_WRAP t |>.raiseIf mt TIMERt_FLAGS_MATCH t
  let d := if mode = tmOneshot && mt then (d.raise TIMERt_FLAGS_DONE t).setB TIMERt_CTRL_EN t false else d
  (d, mt, wrap)

/-- The event of the master of timer `t` among the events of this cycle (R521). -/
def Dev.masterEvent (d : Dev) (t mt wr : Nat) : Bool :=
  bit (if d.b TIMERt_CTRL_MSEL t then wr else mt) (d.f TIMERt_CTRL_MASTER t)

/-- Timer `t` in one cycle; `inc` says that its prescaler gives an increment. `mt` and `wr` hold the events of the timers
below it. A RESET slave whose clear changes its count to its MATCH raises that too (R520). -/
def Dev.timerOne (d : Dev) (t mt wr : Nat) (inc : Bool) : Dev × Nat × Nat :=
  let sl := d.f TIMERt_CTRL_SLAVE t
  let ev := sl != 0 && d.masterEvent t mt wr
  let inc := if sl = tsClock then ev && d.timerOn t else inc
  let clear := ev && sl = tsReset
  let hit := clear && d.r TIMERt_COUNT t != 0 && d.r TIMERt_MATCH t == 0
  let x := if inc then d.timerInc t else (d, false, false)
  let d := x.1
  let d := if clear then (d.setR TIMERt_COUNT t 0).setR TIMERt_RESID t 0 |>.raiseIf hit TIMERt_FLAGS_MATCH t else d
  let d := if ev && sl = tsTrigger && d.b TIMERt_CTRL_EN t then
      d.modTimer fun s => { s with trig := s.trig ||| 2 ^ t } else d
  (d, mt + b2n (x.2.1 || hit) * 2 ^ t, wr + b2n x.2.2 * 2 ^ t)

/-- One CCLK cycle of the timers whose bit is set in `cnt` (R519). -/
def Dev.timerCycle (d : Dev) : Dev :=
  let cnt := d.timersCounting
  ((List.range 16).foldl (fun (x : Dev × Nat × Nat) t =>
    let d := x.1
    if !bit cnt t || d.f TIMERt_CTRL_SLAVE t = tsClock then d.timerOne t x.2.1 x.2.2 false
    else
      let r := d.r TIMERt_RESID t + 1
      let ovf := decide (r ≥ 2 ^ d.f TIMERt_CTRL_PRESC t)
      (d.setR TIMERt_RESID t (if ovf then 0 else r)).timerOne t x.2.1 x.2.2 ovf) (d, 0, 0)).1

/-- The cycle in which timer `t` increments, and the timers that follow its events (R521). -/
def Dev.timerTick (d : Dev) (t : Nat) : Dev :=
  ((List.range 16).foldl (fun (x : Dev × Nat × Nat) u =>
    if u < t then x
    else if u = t then
      let y := (x.1.setR TIMERt_RESID t 0).timerInc t
      (y.1, b2n y.2.1 * 2 ^ t, b2n y.2.2 * 2 ^ t)
    else x.1.timerOne u x.2.1 x.2.2 false) (d, 0, 0)).1

/-- Timer `t` counts now. -/
def Dev.counts (d : Dev) (t : Nat) : Bool := bit d.timersCounting t

/-- The next cycle of timer `t` is an increment by its own prescaler: a CLOCK slave has none (R519, R521). -/
def Dev.incDue (d : Dev) (t : Nat) : Bool :=
  d.counts t && d.f TIMERt_CTRL_SLAVE t != tsClock && decide (2 ^ d.f TIMERt_CTRL_PRESC t ≤ d.r TIMERt_RESID t + 1)

/-- TIMER_MATCH (R520): a timer that counts takes the increment that reaches its MATCH. -/
def execTimerMatch (t : Fin 16) (s : State) : Outcome := s.onDev fun d =>
  let c := d.r TIMERt_COUNT t
  let last := (d.f TIMERt_CTRL_MODE t = tmPeriod && c == d.r TIMERt_RELOAD t) || c == 2 ^ 32 - 1
  if d.incDue t && (if last then 0 else c + 1) == d.r TIMERt_MATCH t then d.timerTick t else d

/-- TIMER_WRAP (R520): a timer that counts takes the increment from its last count to 0. -/
def execTimerWrap (t : Fin 16) (s : State) : Outcome := s.onDev fun d =>
  let mode := d.f TIMERt_CTRL_MODE t
  if d.incDue t && ((mode = tmFree && d.r TIMERt_COUNT t == 2 ^ 32 - 1) ||
      (mode = tmPeriod && d.r TIMERt_COUNT t == d.r TIMERt_RELOAD t)) then d.timerTick t else d

/-- TIMER_ONESHOT_DONE (R520): a one-shot timer that counts takes the increment that reaches MATCH; DONE, and it stops. -/
def execTimerOneshotDone (t : Fin 16) (s : State) : Outcome := s.onDev fun d =>
  if d.incDue t && d.f TIMERt_CTRL_MODE t = tmOneshot && (d.r TIMERt_COUNT t + 1) % 2 ^ 32 == d.r TIMERt_MATCH t then
    d.timerTick t else d

/-! ### Register writes (R521-R523) -/

/-- EN of timer `t` is set: a TRIGGER slave holds until its first master event (R521). -/
def Dev.timerEn (d : Dev) (t : Nat) (en : Bool) : Dev :=
  let fresh := en && !d.b TIMERt_CTRL_EN t
  let d := d.setB TIMERt_CTRL_EN t en
  if fresh then d.modTimer fun s => { s with trig := s.trig - (s.trig &&& 2 ^ t) } else d

/-- A write of TIMERt_CTRL that is refused (R521, R525). -/
def Dev.timerCtrlBad (d : Dev) (t v : Nat) : Bool :=
  let sl := bits v 8 3
  bits v 1 2 = 3 || sl ≥ 5 || (sl != 0 && decide (bits v 12 4 ≥ t)) ||
    (d.b TIMERt_CTRL_EN t && ((v ^^^ d.r TIMERt_CTRL t) &&& 0x1F7F6) != 0)

/-- A write of TIMERt_CTRL (R521). -/
def Dev.timerCtrl (d : Dev) (t v : Nat) : Dev :=
  if d.timerCtrlBad t v then d.raise TIMERt_FLAGS_CFG_REJ t
  else
    let d := d.timerEn t (bit v 0)
    d.setR TIMERt_CTRL t (v &&& 0x3F7F7)

def execTimerCtrlWrite (t : Fin 16) (v : Word) (s : State) : Outcome :=
  s.onDev fun d => d.storeTo TIMERt_CTRL t fun d => d.timerCtrl t v.toNat

/-- A write of TIMERt_COUNT (R523): one that changes the count to MATCH raises it, which acts on the timers that follow in
this cycle (R520, R521). DESIGN CHOICE (log 77): while the timers are held none follows. -/
def Dev.timerCount (d : Dev) (t v : Nat) : Dev :=
  let hit := d.r TIMERt_COUNT t != v && d.r TIMERt_MATCH t == v
  let d := ((d.setR TIMERt_COUNT t v).setR TIMERt_RESID t 0).raiseIf hit TIMERt_FLAGS_MATCH t
  if d.timersStopped then d.modTimer fun s => { s with coded := s.coded ||| 2 ^ t }
  else if hit then
    ((List.range 16).foldl (fun (x : Dev × Nat × Nat) u => if u ≤ t then x else x.1.timerOne u x.2.1 x.2.2 false)
      (d, 2 ^ t, 0)).1
  else d
def execTimerCountWrite (t : Fin 16) (v : Word) (s : State) : Outcome :=
  s.onDev fun d => d.storeTo TIMERt_COUNT t fun d => d.timerCount t v.toNat

/-- A write of TIMER_GCTRL.GSTART (R522). -/
def execTimerGstartWrite (v : Bool) (s : State) : Outcome :=
  s.onDev fun d => d.storeTo TIMER_GCTRL 0 fun d => d.setB TIMER_GCTRL_GSTART 0 v

/-- EN of every masked timer in one cycle (R522). -/
def Dev.timersEn (d : Dev) (mask : Nat) (en : Bool) : Dev :=
  d.each ((List.range 16).filter fun t => bit mask t) fun t d => d.timerEn t en
def execTimerGset (mask : Half) (s : State) : Outcome :=
  s.onDev fun d => d.storeTo TIMER_GSET 0 fun d => d.timersEn mask.toNat true
def execTimerGclr (mask : Half) (s : State) : Outcome :=
  s.onDev fun d => d.storeTo TIMER_GCLR 0 fun d => d.timersEn mask.toNat false

/-! ### The makeup of R313 and R314 -/

/-- The events of one kind that a makeup passes: how many, the cycle offset of the k-th, k from 1, and whether the gaps
between them are known to be equal, which only shortens sums over them. -/
structure Passed where
  n : Nat
  time : Nat → Nat
  even : Bool := true

/-- No event. -/
def Passed.none : Passed := { n := 0, time := fun _ => 0 }

/-- The cycles from the k-th event to the next. -/
def Passed.gap (ev : Passed) (k : Nat) : Nat := ev.time (k + 1) - ev.time k

/-- The sum of `f` over the first `k` gaps. -/
def Passed.sum (ev : Passed) (f : Nat → Nat) (k : Nat) : Nat :=
  if ev.even then k * f (ev.gap 1) else (List.range k).foldl (fun v i => v + f (ev.gap (i + 1))) 0

/-- The first gap through which the sum of `f` reaches `k`; the number of events, for the stretch after the last one, where
no gap does. -/
def Passed.reach (ev : Passed) (f : Nat → Nat) (k : Nat) : Nat :=
  if ev.even then (if f (ev.gap 1) = 0 then ev.n else min ev.n ((k - 1) / f (ev.gap 1) + 1))
  else (((List.range (ev.n - 1)).find? fun i => decide (k ≤ ev.sum f (i + 1))).map (· + 1)).getD ev.n

/-- Increments at which a count changes to a value for the first time and again: the first one, and the period between
them, 0 for an event that does not repeat. -/
structure Hits where
  first : Option Nat
  period : Nat

/-- How many of `j` increments hit. -/
def Hits.count (h : Hits) (j : Nat) : Nat :=
  match h.first with
  | none => 0
  | some f => if j < f then 0 else if h.period = 0 then 1 else (j - f) / h.period + 1

/-- The increment of the k-th hit. -/
def Hits.time (h : Hits) (k : Nat) : Nat := h.first.getD 0 + (k - 1) * h.period

/-- The MATCH and WRAP increments of timer `t` from count `c` (R520). -/
def Dev.timerHits (d : Dev) (t c : Nat) : Hits × Hits :=
  let mt := d.r TIMERt_MATCH t
  let rel := d.r TIMERt_RELOAD t
  let mode := d.f TIMERt_CTRL_MODE t
  let ahead := fun (x p : Nat) => let k := (x + p - c) % p; if k = 0 then p else k
  if mode = tmPeriod then
    let p := rel + 1
    if c ≤ rel then
      (⟨if mt ≤ rel && p > 1 then some (ahead mt p) else none, p⟩, ⟨some (rel - c + 1), p⟩)
    else if mt > c then (⟨some (mt - c), 0⟩, ⟨some (2 ^ 32 - c + p), p⟩)
    else (⟨if mt ≤ rel && p > 1 then some (2 ^ 32 - c + mt) else none, p⟩, ⟨some (2 ^ 32 - c + p), p⟩)
  else if mode = tmOneshot then (⟨some (ahead mt (2 ^ 32)), 0⟩, ⟨none, 0⟩)
  else (⟨some (ahead mt (2 ^ 32)), 2 ^ 32⟩, ⟨some (2 ^ 32 - c), 2 ^ 32⟩)

/-- The count after `j` increments from `c` (R520, R314). -/
def Dev.timerAfter (d : Dev) (t c j : Nat) : Nat :=
  let rel := d.r TIMERt_RELOAD t
  let mode := d.f TIMERt_CTRL_MODE t
  if mode = tmPeriod then
    if c ≤ rel then (c + j) % (rel + 1)
    else if c + j < 2 ^ 32 then c + j else (c + j - 2 ^ 32) % (rel + 1)
  else if mode = tmOneshot && j ≥ ((d.timerHits t c).1.first.getD 0) then d.r TIMERt_MATCH t
  else (c + j) % 2 ^ 32

/-- The makeup of a RESET slave over `w` cycles whose master's events are `ev`, at least one (R314, R521): it counts from
its own count to the first event and from 0 after each; a one-shot one stops where an increment first reaches MATCH, and a
later event still clears its count. With MATCH at 0 a clear that changes the count raises it too. -/
def Dev.makeupReset (d : Dev) (t w : Nat) (ev : Passed) : Dev × Passed × Passed :=
  let p := 2 ^ d.f TIMERt_CTRL_PRESC t
  let r := d.r TIMERt_RESID t
  let h := d.timerHits t (d.r TIMERt_COUNT t)
  let z := d.timerHits t 0
  let j0 := (r + ev.time 1) / p
  let rest := w - ev.time ev.n
  -- a clear at the end of `j` increments from count `c` changes the count to MATCH
  let hit := fun (c j : Nat) => b2n (d.r TIMERt_MATCH t == 0 && d.timerAfter t c j != 0)
  let first := hit (d.r TIMERt_COUNT t) j0
  let later := fun g => hit 0 (g / p)
  -- the events of the increments of `h` and `z`, and of the clears that `at0` and `atG` count
  let stretch := fun (h z : Hits) (at0 : Nat) (atG : Nat → Nat) =>
    let f := fun g => z.count (g / p) + atG g
    let i0 := h.count j0
    let e0 := i0 + at0
    let n := e0 + ev.sum f (ev.n - 1) + z.count (rest / p)
    ({ n := n
       time := fun k =>
         if k ≤ i0 then h.time k * p - r
         else if k ≤ e0 then ev.time 1
         else
           let q := ev.reach f (k - e0)
           let i := k - e0 - ev.sum f (q - 1)
           if q = ev.n || i ≤ z.count (ev.gap q / p) then ev.time q + z.time i * p else ev.time (q + 1)
       even := decide (n ≤ 2) || (ev.even && e0 == 0 && f (ev.gap 1) == 1 && z.count (ev.gap 1 / p) == 1 &&
         decide (z.count (rest / p) ≤ 1)) } : Passed)
  let inc := stretch h.1 z.1 0 fun _ => 0
  let mt := stretch h.1 z.1 first later
  let wr := stretch h.2 z.2 0 fun _ => 0
  let done := d.f TIMERt_CTRL_MODE t = tmOneshot && inc.n > 0
  let last := if h.1.count j0 > 0 then 1 else first + ev.sum later (ev.reach (fun g => z.1.count (g / p)) 1 - 1) + 1
  let mt : Passed := if done then { n := last, time := mt.time, even := decide (last ≤ 2) } else mt
  let d := if done then
      (d.setR TIMERt_COUNT t (if inc.time 1 ≤ ev.time ev.n then 0 else d.r TIMERt_MATCH t)).setR TIMERt_RESID t 0
    else (d.setR TIMERt_COUNT t (d.timerAfter t 0 (rest / p))).setR TIMERt_RESID t (rest % p)
  let d := if done then (d.raise TIMERt_FLAGS_DONE t).setB TIMERt_CTRL_EN t false else d
  let d := (d.raiseIf (mt.n > 0) TIMERt_FLAGS_MATCH t).raiseIf (wr.n > 0) TIMERt_FLAGS_WRAP t
  (d.raiseIf (mt.n > 0 || wr.n > 0) TIMERt_FLAGS_MAKEUP t, mt, wr)

/-- The makeup of one timer over `w` cycles, given the events its masters passed: the events it passed (R313, R314). -/
def Dev.makeupOne (d : Dev) (t w : Nat) (evs : List (Passed × Passed)) : Dev × Passed × Passed :=
  if !d.b TIMERt_CTRL_EN t || (d.b TIMERt_CTRL_LEGACY t && !d.b TIMER_GCTRL_GSTART) || bit d.timer.coded t then
    (d, Passed.none, Passed.none) else
  let sl := d.f TIMERt_CTRL_SLAVE t
  let me := evs.getD (d.f TIMERt_CTRL_MASTER t) (Passed.none, Passed.none)
  let ev := if d.b TIMERt_CTRL_MSEL t then me.2 else me.1
  let p := if sl = tsClock then 1 else 2 ^ d.f TIMERt_CTRL_PRESC t
  let c := d.r TIMERt_COUNT t
  let r := if sl = tsClock then 0 else d.r TIMERt_RESID t
  -- where its own cycles start, and how many increments and which residue `x` cycles from residue `r` give
  let incs := fun (r x : Nat) => (r + x) / p
  let held := sl = tsTrigger && !bit d.timer.trig t
  let start := if held then (if ev.n = 0 then w else ev.time 1) else 0
  let w0 := if sl = tsClock then ev.n else if sl = tsGated && !bit d.mode.gates t then 0 else w - start
  let at0 := fun (r k : Nat) => if sl = tsClock then ev.time k else start + k * p - r
  let d := if held && ev.n > 0 then d.modTimer fun s => { s with trig := s.trig ||| 2 ^ t } else d
  if sl = tsReset && ev.n > 0 then d.makeupReset t w ev
  else
    let j := incs r w0
    let h := d.timerHits t c
    let mt : Passed := ⟨h.1.count j, fun k => at0 r (h.1.time k), sl != tsClock || ev.even⟩
    let wr : Passed := ⟨h.2.count j, fun k => at0 r (h.2.time k), sl != tsClock || ev.even⟩
    let done := d.f TIMERt_CTRL_MODE t = tmOneshot && mt.n > 0
    let d := d.setR TIMERt_COUNT t (d.timerAfter t c j)
    let d := if sl = tsClock then d else d.setR TIMERt_RESID t (if done then 0 else (r + w0) % p)
    let d := (d.raiseIf (mt.n > 0) TIMERt_FLAGS_MATCH t).raiseIf (wr.n > 0) TIMERt_FLAGS_WRAP t
    let d := if done then (d.raise TIMERt_FLAGS_DONE t).setB TIMERt_CTRL_EN t false else d
    (d.raiseIf (mt.n > 0 || wr.n > 0) TIMERt_FLAGS_MAKEUP t, mt, wr)

/-- The makeup of every timer over `w` cycles, masters before the timers they drive (R313). -/
def Dev.makeup (d : Dev) (w : Nat) : Dev :=
  let d := ((List.range 16).foldl (fun (x : Dev × List (Passed × Passed)) t =>
    let y := x.1.makeupOne t w x.2
    (y.1, x.2 ++ [y.2])) (d, [])).1
  d.modTimer fun s => { s with coded := 0 }

/-- Slow-clock periods until the wake of timer `t` (R315): none unless it runs with its wake enabled. -/
def Dev.wakePeriods (d : Dev) (t : Nat) : Option Nat :=
  if !bit (d.f SYSCTL_WAKEEN_TIMER) t || !d.counts t || d.f TIMERt_CTRL_SLAVE t = tsClock then none else
  ((d.timerHits t (d.r TIMERt_COUNT t)).1.first).map fun k =>
    ceilDiv ((k * 2 ^ d.f TIMERt_CTRL_PRESC t - d.r TIMERt_RESID t) * 64) 390625

end Sys2Proof.Machine
end

