-- ==== Sys2Proof/Machine/Modes.lean ====
section
/-! DEFINITION. Supplies, modes, resets, sleep and wake, the watchdog and the battery domain (R293-R325). -/
namespace Sys2Proof.Machine

/-! ### What the resets keep (R307) -/

/-- An address of the battery domain (R35). -/
def isBattery (a : Nat) : Bool := decide (0xF0000000 ≤ a) && decide (a < 0xF0000400)

/-- A register that a SYS reset keeps whole (R290, R307, R308, R317, R466). -/
def sysKeeps (a : Nat) : Bool :=
  isBattery a || a == LOG_SEQ.addr 0 || a == LOG_EPOCH.addr 0 || a == LOG_SPILLPTR.addr 0 ||
    (List.range 4).any (fun c => a == LOG_LOSS.addr c) || (List.range 16).any (fun c => a == FLASHC_HALFE.addr c) ||
    a == CHAIN_UPORT.addr 0 || a == CHAIN_DPORT.addr 0 || a == CHAIN_HOLD.addr 0 || a == CHAIN_RTIME.addr 0 ||
    a == SYSCTL_CLK.addr 0 || a == SYSCTL_SUPPLY.addr 0

/-- The registers that keep some fields through a SYS reset, with the mask of those fields (R308, R335, R346, R348, R420,
R456, R489). -/
def sysFields : List (Nat × Nat) :=
  [(CHAIN_STAT.addr 0, 0xFF39), (FLASHC_STAT.addr 0, 0x60), (CORE_STAT.addr 0, 0x0C), (HB_STAT.addr 0, 0x700),
   (SECURE_STAT.addr 0, 0xF340), (SECURE_TAMPER.addr 0, 0xFF00)]

/-- The register file after a reset that keeps `keep` of `old` whole and the masked bits of `fields`. -/
def regsAfter (old : RegFile) (keep : Nat → Bool) (fields : List (Nat × Nat)) : RegFile :=
  let r := (old.filter fun c => keep c.1).foldr (fun c r => Store.set regDflt r c.1 c.2) (resetRegs.filter fun c => !keep c.1)
  fields.foldl (fun r x =>
    let was := (Store.get regDflt old x.1).toNat &&& x.2
    let new := (Store.get regDflt r x.1).toNat
    Store.set regDflt r x.1 (BitVec.ofNat 32 (new - (new &&& x.2) + was))) r

/-- The battery domain's own part of the mode state (R307). -/
def ModeSt.battery (m : ModeSt) : ModeSt :=
  { srecSeq := m.srecSeq, edges := m.edges, phase := m.phase, good := m.good, timeHi := m.timeHi, alarmHi := m.alarmHi,
    timeLoad := m.timeLoad, alarmLoad := m.alarmLoad, timeSh := m.timeSh, alarmSh := m.alarmSh, sleepSh := m.sleepSh }

/-! ### Power-on reset (R295, R305, R307) -/

/-- A program cut by power-on reset leaves its page weak or blank, and may have damaged the page it is paired with; which
is free (R448, R449). -/
def State.cutProgram (s : State) : State :=
  if s.dev.flash.op != flProgram then s else
  let a := s.dev.flash.addr
  let (x, d) := s.dev.fresh 2
  let (l, d) := d.freshBytes 256
  let (q, d) := d.freshBytes 256
  let m := if bit x 0 then s.mem.writeBytes a l else s.mem
  let d := if bit x 0 then d.modFlash fun f => { f with weak := f.weak ++ [flashPage a] } else d
  let pair := flashPage a % 2 == 1 && bit x 1
  { s with dev := d, mem := if pair then m.writeBytes (a - 256) q else m }

/-- The memories that power-on reset does not keep: SRAM, log RAM, scratch RAM and the planes (R227, R290, R307). -/
def volatile (k : Nat) : Bool := decide (0x20000000 ≤ k)

/-- The state under power-on reset (R307): the battery domain, the flash with its records and the information rows stay. -/
def State.power (s : State) : State :=
  let s := s.cutProgram.secCut
  let d := s.dev
  let f := d.flash
  { s with
    mem := s.mem.drop volatile
    dev := { Dev.power with
      now := d.now, free := d.free, regs := regsAfter d.regs isBattery []
      mode := { d.mode.battery with dormant := true }
      flash := { incomplete := f.incomplete, weak := f.weak, fce := f.fce, fue := f.fue } } }

/-- POR_ASSERT (R295, R305, R319): a shutdown-cause record, unless the warning before it has written one. -/
def execPorAssert (supply : Fin 4) (s : State) : Outcome := .next <|
  if s.dev.mode.dormant then s else
  let was := s.dev.modeNow
  let warned := s.dev.mode.warned
  let cause := if warned = 0 then ccPorFall else warned
  let d := (if warned = 0 then s.dev.srec ccPorFall 0 else s.dev).bdCount 0
  let s := State.power { s with dev := d }
  let d := (s.dev.setR SYSCTL_RESETCAUSE 0 (cause + was * 2 ^ 8)).setR SYSCTL_SUPPLY 0 (15 - 2 ^ supply.val)
  { s with dev := d }

/-- POR_RELEASE (R23, R190, R191, R295, R450): the straps are taken, the lanes train, the ROM starts. -/
def execPorRelease (strap : Fin 8) (root : Bool) (s : State) : Outcome := .next <|
  if !s.dev.mode.dormant then s else
  let d := s.dev.modMode fun m => { m with dormant := false }
  let d := (d.setF SYSCTL_SUPPLY_POR_OK 0 15).setF HB_STAT_STRAP 0 strap
  let d := (d.setB SYSCTL_CLK_ROOT 0 root).setB CHAIN_STAT_ROOT 0 root
  let d := ((d.setF CHAIN_UPORT_RX 0 1).setF CHAIN_DPORT_RX 0 1).showRing
  let d := if root then (d.setF CHAIN_UPORT_CKROLE 0 2).setF CHAIN_DPORT_CKROLE 0 2 else d
  let d := (d.sendTrain 0).sendTrain 1
  let d := d.modCpu fun u => { u with cyc := 0 }
  State.romStart { s with dev := d.showAddr } false

/-! ### The brown-out warnings (R294, R297, R319) -/

/-- The cause code and the VDDIO bank of warning comparator `w`. -/
def warnCause (w : Nat) : Nat × Nat := if w < 3 then (ccBowVdd + w, 0) else (ccBowVddio, w - 3)

/-- BROWNOUT_WARNING (R297): a masked warning only shows. In SAFE it still writes its record and its log entry. -/
def Dev.brownout (d : Dev) (w : Nat) : Dev :=
  let d := d.setF SYSCTL_SUPPLY_WARN 0 (d.f SYSCTL_SUPPLY_WARN ||| 2 ^ w)
  if bit (d.f SYSCTL_XSUP_WARN_MASK) w then d else
  let (c, bank) := warnCause w
  let d := (d.bdCount 3).post 0 0x101 0xFF [c]
  let d := if d.modeNow = modeSafe then d.srec c bank else d.enterSafe c bank
  d.modMode fun m => { m with warned := c }
def execBrownoutWarning (w : Fin 7) (s : State) : Outcome := s.live fun s => State.boundary { s with dev := s.dev.brownout w }

/-! ### The battery reset (R299, R305, R307) -/

/-- Every battery-domain register takes its reset value. -/
def Dev.batReset (d : Dev) : Dev :=
  let d := { d with regs := d.regs.filter fun c => !isBattery c.1 }
  let d := d.setR BD_STAT 0 4
  let d := d.modMode fun m => { m with srecSeq := 0, good := 0, timeHi := 0, alarmHi := 0, timeLoad := none, alarmLoad := none,
                                       timeSh := 0, alarmSh := 0, sleepSh := 0 }
  if d.mode.dormant then d else d.showRing

/-- BAT_RESET (R299): it acts in every mode, DORMANT included. -/
def execBatReset (s : State) : Outcome := .next { s with dev := s.dev.batReset }

/-- BD_CLEAR (R305, R322): a write of BD_CTRL with CLEAR; any key but 0xC1EA has no effect. -/
def execBdClear (key : Half) (s : State) : Outcome :=
  s.onDev fun d => if key.toNat = 0xC1EA then d.batReset.busOk else d.busOk

/-! ### Reset requests (R301, R304-R306) -/

/-- A SYS reset request with `cause` (R306): with a rail ENABLED the device enters SAFE first; in SAFE it is a return
request (R304). -/
def Dev.askReset (d : Dev) (cause : Nat) : Dev :=
  let d := d.modMode fun m => { m with due := some (m.due.getD cause) }
  if d.modeNow != modeSafe && d.anyEnabled then d.enterSafe cause 0 else d

/-- A return request (R304): only in SAFE. -/
def Dev.askReturn (d : Dev) : Dev :=
  if d.modeNow = modeSafe then d.modMode fun m => { m with due := some (m.due.getD ccSafeReturn) } else d

/-- RESET_N_LOW (R305, R306). -/
def execResetNLow (s : State) : Outcome := s.live fun s =>
  let d := s.dev.modMode fun m => { m with nLow := true }
  State.boundary { s with dev := d.askReset ccResetN }

/-- A write of SYSCTL_RESET (R305). In SAFE it resets nothing: it is none of the ways of R304, and no write leaves SAFE but
the controlled return (R46). -/
def Dev.writeReset (d : Dev) (v : Nat) : Dev :=
  if bits v 16 16 != 0xA53C then d.raise SYSCTL_FLAGS_KEY_REJ
  else if bit v 0 && d.modeNow != modeSafe then d.askReset ccSwReset else d
def execSoftwareReset (v : Word) (s : State) : Outcome := s.live fun s =>
  State.boundary { s with dev := s.dev.busOk.writeReset v.toNat }

/-- DEBUG_RESET (R305, R346): where the debug state allows it. -/
def execDebugReset (s : State) : Outcome := s.live fun s =>
  if s.dev.debugOpen then State.boundary { s with dev := s.dev.askReset ccDebugReset } else s

/-! ### The SYS reset (R307, R308) -/

/-- The device after a SYS reset with `cause`. -/
def Dev.sysReset (d : Dev) (cause : Nat) : Dev :=
  let was := d.modeNow
  let d := ((d.srec cause 0).bdCount 1).logSysReset
  let f := d.flash
  let x := d.sec
  let c := d.chain
  let z := Dev.power
  let fenced := d.b CORE_STAT_FENCED_A || d.b CORE_STAT_FENCED_B
  let lock := fun (y : CoreSt) (on : Bool) => { y with psr := if fenced then 0x2001 else y.psr, run := on }
  let n : Dev := { z with
    now := d.now, free := d.free, regs := regsAfter d.regs sysKeeps sysFields, log := d.log
    mode := { d.mode.battery with lastSafe := d.mode.lastSafe }
    flash := { incomplete := f.incomplete, weak := f.weak, ce := f.ce, ue := f.ue, fce := f.fce, fue := f.fue, dt := f.dt }
    sec := { z.sec with sealTag := x.sealTag, tries := x.tries, openAuth := x.openAuth, debugged := x.debugged
                        tampers := x.tampers, boots := x.boots, jtagDrive := x.jtagDrive }
    chain := { z.chain with lanes := c.lanes.map fun x => { x with upAt := d.now }, holdCyc := c.holdCyc, rtSet := c.rtSet
                            rtAt := c.rtAt, rtErr := c.rtErr, rtNext := c.rtNext, cntHi := c.cntHi, pllOk := c.pllOk, lockAt := c.lockAt }
    cpu := { z.cpu with a := lock coreAtRom (!d.b CORE_STAT_FENCED_A)
                        b := lock coreAtRom (!d.b CORE_STAT_FENCED_B) } }
  let n := (n.setR SYSCTL_RESETCAUSE 0 (cause + was * 2 ^ 8)).setB CORE_STAT_LOCK 0 (!fenced)
  let n := n.setB LOG_STAT_COALESCE 0 (d.b LOG_STAT_COALESCE)
  let n := if x.openAuth then n.setF SECURE_STAT_DBG 0 2 else n
  n.showLog.showAddr.showRing

/-- The SYS reset that is due takes effect once no rail is ENABLED and no PROGRAM runs (R304, R306, R448), and the ROM
starts. -/
def State.sysResetNow (s : State) : State :=
  match s.dev.mode.due with
  | some cause =>
    if s.dev.anyEnabled || s.dev.flash.op = flProgram then s else
    let tamper := s.dev.modeNow = modeSafe && s.dev.f SYSCTL_MODE_SAFE_CAUSE = ccTamper
    let s := s.secCut
    State.romStart { s with dev := s.dev.sysReset cause } tamper
  | none => s

/-- SYS_RESET (R306, R307): RESET_N has risen by then. -/
def execSysReset (s : State) : Outcome := s.live fun s =>
  State.sysResetNow { s with dev := s.dev.modMode fun m => { m with nLow := false } }

/-- SAFE_RETURN (R304, R306): the controlled return. -/
def execSafeReturn (s : State) : Outcome := s.live fun s =>
  if s.dev.modeNow = modeSafe && !s.dev.mode.nLow then s.sysResetNow else s

/-! ### SYSCTL_MODECMD (R301, R304, R309, R312, R324) -/

/-- A SAFE trigger has come in this cycle: it wins over a mode request (R301). -/
def Dev.safeWon (d : Dev) : Bool := d.modeNow = modeSafe && d.mode.safeAt = some d.now

/-- The first failing case of R309, counted from 1, or 9 by R301; 0 when STANDBY is accepted. -/
def Dev.standbyWhy (d : Dev) : Nat :=
  if d.safeWon then 9
  else if d.modeNow != modeConfigure then 1
  else if d.b CFG_CTRL_FABRIC_EN then 2
  else if d.flash.op != 0 || d.suspBlock.isSome then 3
  else if (List.range 16).any fun n => d.f CHn_STAT_STATE n != 0 then 4
  else if d.accum.lop.op != 0 then 5
  else if !d.lockstep then 6
  else if d.f SYSCTL_WAKEEN_TIMER != 0 && !d.b BD_STAT_OSC_OK then 7
  else 0

/-- BD_ALARM (R322). -/
def Dev.bdAlarm (d : Dev) : Nat := d.r BD_ALARM_LO + d.r BD_ALARM_HI % 2 ^ 16 * 2 ^ 32

/-- `t` is a cycle since the cores stopped. -/
def Dev.sinceStop (d : Dev) (t : Option Nat) : Bool := t.any fun k => decide (d.mode.sleepAt ≤ k)

/-- The condition of the wake source of bit `k` of SYSCTL_WAKEEN holds (R310). For ENPIN, whose pin levels are no state,
that is for the sender to say. -/
def Dev.wakeHolds (d : Dev) : Nat → Bool
  | 0 => d.host.xact.isSome
  | 1 => (d.r CHAIN_FLAGS &&& d.r CHAIN_EVEN) != 0 || d.sinceStop d.chain.enumAt
  | 2 => d.sinceStop d.hm.matchAt
  | 3 => (List.range 24).any d.gpRaised
  | 5 => d.b BD_CTRL_ALARM_EN && d.bdTime == d.bdAlarm
  | _ => false

/-- The SOURCE code of bit `k` of SYSCTL_WAKEEN (R324). -/
def wakeCode (k : Nat) : Nat := if k = 5 then 7 else k + 1

/-- A wake source that is pending in the cycle in which the cores would stop (R310, R312): its SOURCE code. -/
def Dev.wakePending (d : Dev) : Option Nat :=
  ((List.range 6).find? fun k => bit (d.r SYSCTL_WAKEEN) k && d.wakeHolds k).map wakeCode

/-- The sleep is aborted in the cycle in which the cores would stop (R312): the mode stays CONFIGURE, the timers have not
stopped, and the watchdog has counted on. -/
def Dev.sleepAbort (d : Dev) (k : Nat) : Dev :=
  let d := (d.setF SYSCTL_MODE_MODE 0 modeConfigure).setR SYSCTL_WAKESRC 0 k
  (d.modMode fun m => { m with sleep := 0 }).raise SYSCTL_FLAGS_SLEEP_ABORT

/-- MODECMD_STANDBY (R309, R312). The watchdog stands from the next slow edge on (R325). -/
def Dev.standby (d : Dev) : Dev :=
  let why := d.standbyWhy
  if why != 0 then d.modeRej why else
  let d := d.modMode fun m => { m with sleepAt := d.now }
  match d.wakePending with
    | some k => d.sleepAbort k
    | none => (d.setF SYSCTL_MODE_MODE 0 modeStandby).modMode fun m => { m with sleep := 1 }

/-- A request of SYSCTL_MODECMD with a wrong key: a refusal with REJ 8 (R309, R324; DEDUCED that both flags are set). -/
def Dev.badKey (d : Dev) : Dev :=
  (d.modeRej 8).raise SYSCTL_FLAGS_KEY_REJ

/-- A write of SYSCTL_MODECMD. -/
def Dev.modecmd (d : Dev) (mode key : Nat) : Dev :=
  if mode = modeStandby then d.standby
  else if mode = modeSafe then (if key = 0xC3A5 then d.enterSafe ccSafeCmd 0 else d.badKey)
  else if mode = modeBoot then
    (if key != 0xC3A5 then d.badKey else if d.safeWon then d.modeRej 9 else d.askReturn)
  else d

/-- The bus write of SYSCTL_MODECMD. -/
def State.modecmdWrite (s : State) (mode key : Nat) : State := State.boundary { s with dev := s.dev.busOk.modecmd mode key }

def execModecmdStandby (s : State) : Outcome := s.live fun s => s.modecmdWrite modeStandby 0
def execModecmdSafe (key : Half) (s : State) : Outcome := s.live fun s => s.modecmdWrite modeSafe key.toNat
def execModecmdBoot (key : Half) (s : State) : Outcome := s.live fun s => s.modecmdWrite modeBoot key.toNat

/-! ### Sleep and wake (R309-R316) -/

/-- The device wakes with SOURCE `k` (R311): before S0 the timers have not stopped; after it they wait for S1. The watchdog
resumes from 0 (R325). -/
def Dev.wakeUp (d : Dev) (k t : Nat) : Dev :=
  let d := (d.setF SYSCTL_MODE_MODE 0 modeConfigure).setR SYSCTL_WAKESRC 0 (k + t * 2 ^ 8)
  let d := d.modMode fun m => { m with wdog := 0 }
  if d.mode.sleep = 2 then (d.modMode fun m => { m with sleep := 3, wakeAt := none }).raise SYSCTL_FLAGS_TIMERS_HELD
  else d.modMode fun m => { m with sleep := 0, wakeAt := none }

/-- An ENn pin is wired by the PINMAP of the device's plane, none being in force in STANDBY (R234, R310). -/
def Dev.enWired (d : Dev) (m : Mem) : Bool :=
  let p := d.f CFG_STAT_DEV_PLANE
  (findSec (dirList m p) 1 0).any fun e => pByte m p (e.off + 0x4D) != 0

/-- WAKE (R310, R311): an enabled wake source, in the order of SYSCTL_WAKEEN bits 0 to 5, whose condition holds. In the
cycle in which the cores would stop it is one that was pending there, and the sleep has been aborted (R312; DEDUCED, log
31). -/
def execWake (source : Fin 6) (s : State) : Outcome := s.onDev fun d =>
  let holds := if source.val = 4 then d.enWired s.mem else d.wakeHolds source
  if d.modeNow = modeStandby && bit (d.r SYSCTL_WAKEEN) source && holds then
    if d.mode.sleep = 1 && d.mode.sleepAt = d.now then d.sleepAbort (wakeCode source) else d.wakeUp (wakeCode source) 0
  else d

/-- SLEEP_S0 (R309, R315): the timers stop and the wake comparator is set. -/
def Dev.sleepS0 (d : Dev) : Dev :=
  if d.modeNow != modeStandby || d.mode.sleep != 1 then d else
  let v := d.timersCounting
  let open_ := (List.range 16).foldl (fun g t =>
    let m := d.f TIMERt_CTRL_MASTER t
    g + b2n (bit v m && decide (d.r TIMERt_COUNT m < d.r TIMERt_MATCH m)) * 2 ^ t) 0
  let wake := (List.range 16).foldl (fun best t =>
    match d.wakePeriods t, best with
    | some n, some (k, _) => if n < k then some (n, t) else best
    | some n, none => some (n, t)
    | none, _ => best) (none : Option (Nat × Nat))
  let d := (d.setR BD_SLEEPT_LO 0 (d.r BD_TIME_LO)).setR BD_SLEEPT_HI 0 (d.r BD_TIME_HI)
  d.modMode fun m => { m with sleep := 2, s0 := m.edges, gates := open_, wakeAt := wake.map fun x => (m.edges + x.1, x.2) }
def execSleepS0 (s : State) : Outcome := s.onDev Dev.sleepS0

/-- The makeup at S1 (R313). -/
def Dev.makeupS1 (d : Dev) : Dev :=
  let n := d.mode.edges - d.mode.s0
  let e := n * 390625 + d.f SYSCTL_MAKEUP_HI_FRAC
  let w := e / 64
  let d := (d.setR SYSCTL_SLEEPN 0 n).setR SYSCTL_MAKEUP_LO 0 w
  let d := d.setR SYSCTL_MAKEUP_HI 0 (bits w 32 16 + e % 64 * 2 ^ 16)
  (d.modMode fun m => { m with sleep := 0 }).makeup w

/-- SLEEP_S1_MAKEUP (R311, R313). -/
def execSleepS1Makeup (s : State) : Outcome := s.onDev fun d => if d.mode.sleep = 3 then d.makeupS1 else d

/-- TIMER_WAKE (R311, R315): the wake comparator's slow edge, which is S1. -/
def execTimerWake (s : State) : Outcome := s.onDev fun d =>
  match d.mode.wakeAt with
  | some (k, t) =>
    if d.modeNow = modeStandby && d.mode.sleep = 2 && k ≤ d.mode.edges then (d.wakeUp 6 t).makeupS1 else d
  | none => d

/-- ALARM_MATCH (R310, R311): BD_TIME has reached BD_ALARM; a wake is at a slow edge, which is S1. -/
def execAlarmMatch (s : State) : Outcome := s.onDev fun d =>
  if d.modeNow = modeStandby && d.b SYSCTL_WAKEEN_ALARM && d.b BD_CTRL_ALARM_EN && d.bdTime == d.bdAlarm then
    let d := d.wakeUp 7 0
    if d.mode.sleep = 3 then d.makeupS1 else d
  else d

/-- SLOW_CLOCK_FAIL (R316): a sleeping device wakes with OSCFAIL and MAKEUP_BAD, and its timers restart with no makeup. -/
def Dev.slowFail (d : Dev) : Dev :=
  let d := (d.setB BD_STAT_OSC_OK 0 false).modMode fun m => { m with good := 0 }
  if d.mode.dormant || d.modeNow != modeStandby then d else
  ((d.wakeUp 8 0).modMode fun m => { m with sleep := 0 }).raise SYSCTL_FLAGS_MAKEUP_BAD
def execSlowClockFail (s : State) : Outcome := .next { s with dev := s.dev.slowFail }

/-- Add `n` slow edges to BD_TIME (R322). -/
def Dev.bdTimeAdd (d : Dev) (n : Nat) : Dev :=
  let t := (d.bdTime + n) % 2 ^ 48
  (d.setR BD_TIME_LO 0 t).setR BD_TIME_HI 0 (t / 2 ^ 32)

/-- SLOW_CLOCK_OK (R316): 1,024 consecutive good edges have come; before that nothing happens. -/
def execSlowClockOk (s : State) : Outcome := .next <|
  if s.dev.b BD_STAT_OSC_OK || s.dev.mode.good < 1024 then s
  else { s with dev := s.dev.setB BD_STAT_OSC_OK 0 true }

/-! ### The watchdog (R325) -/

/-- The watchdog counts. -/
def Dev.wdogOn (d : Dev) : Bool :=
  d.b SYSCTL_WDOG_EN && (d.modeNow == modeConfigure || d.modeNow == modeRegulate) && !d.debugHalt

/-- The timeout in slow-clock periods. -/
def Dev.wdogLimit (d : Dev) : Nat := 32 * d.f SYSCTL_WDOG_TIMEOUT

def execWatchdogHalf (s : State) : Outcome := s.onDev fun d =>
  if d.wdogOn && 2 * d.mode.wdog ≥ d.wdogLimit then d.raise SYSCTL_FLAGS_WDOG_WARN else d

def execWatchdogExpiry (s : State) : Outcome := s.live fun s =>
  if s.dev.wdogOn && s.dev.mode.wdog ≥ s.dev.wdogLimit then
    State.boundary { s with dev := s.dev.enterSafe ccWatchdog 0 } else s

/-- A write of SYSCTL_WDOGKICK (R324): a wrong key counts as expiry, which acts while EN is 1 (R301). -/
def Dev.kick (d : Dev) (v : Nat) : Dev :=
  if v % 2 ^ 16 = 0x5A0F then d.modMode fun m => { m with wdog := 0 }
  else if d.b SYSCTL_WDOG_EN then d.enterSafe ccWatchdog 0 else d
def execWatchdogKick (v : Word) (s : State) : Outcome := s.live fun s =>
  State.boundary { s with dev := s.dev.busOk.kick v.toNat }

/-- A slow edge of the watchdog: it counts, or stands at 0. -/
def Dev.wdogEdge (d : Dev) : Dev := d.modMode fun m => { m with wdog := if d.wdogOn then m.wdog + 1 else 0 }

/-! ### BD_TIME (R322) -/

/-- A write of BD_TIME_LO: both halves wait for the next slow edge. -/
def Dev.writeTimeLo (d : Dev) (v : Nat) : Dev :=
  (d.modMode fun m => { m with timeLoad := some (v + m.timeHi * 2 ^ 32) }).setB BD_STAT_BAT_RESET_SEEN 0 false
def execBdTimeLoWrite (v : Word) (s : State) : Outcome := s.onDev fun d => d.busOk.writeTimeLo v.toNat

/-- The next slow edge: a held time and a held alarm are loaded. -/
def Dev.bdLoads (d : Dev) : Dev :=
  let d := match d.mode.timeLoad with
    | some t => (d.setR BD_TIME_LO 0 t).setR BD_TIME_HI 0 (t / 2 ^ 32)
    | none => d
  let d := match d.mode.alarmLoad with
    | some t => (d.setR BD_ALARM_LO 0 t).setR BD_ALARM_HI 0 (t / 2 ^ 32)
    | none => d
  d.modMode fun m => { m with timeLoad := none, alarmLoad := none }

/-- BD_TIME_LOAD: the slow edge acts in every mode. -/
def execBdTimeLoad (s : State) : Outcome := .next { s with dev := s.dev.bdLoads }

/-- A read of BD_TIME_LO. -/
def Dev.readTimeLo (d : Dev) : Dev :=
  (d.modMode fun m => { m with timeSh := d.r BD_TIME_HI }).answer (d.r BD_TIME_LO)
def execBdTimeLoRead (s : State) : Outcome := s.onDev Dev.readTimeLo

end Sys2Proof.Machine
end

