-- ==== Sys2Proof/Machine/Rail.lean ====
section
/-! DEFINITION. The commands of a rail whose end can take the device into SAFE: the decision (R81), the period boundary
(R162), the discharge timeout (R168) and the end of holdover (R196). -/
namespace Sys2Proof.Machine

/-- After holdover has expired and the last shutdown has ended, the device enters SAFE by R28: the fabric domain goes to
OSC and the mode changes (R196, R302); in SAFE only the clock moves (R25, R43). -/
def Dev.expiredSettle (d : Dev) : Dev :=
  if d.f CHAIN_STAT_CKSTATE = ckExpired && !d.anyEnabled && d.b SYSCTL_CLK_SRC then
    (d.setB SYSCTL_CLK_SRC 0 false).enterSafe ccHoldover 0
  else d

/-- A rail command, then the effects that wait for the end of the last shutdown. The fabric domain does nothing while it is
stopped (R25). -/
def State.onRails (s : State) (f : Dev → Dev) : Outcome :=
  s.live fun s => if s.dev.fabricStopped then s else State.boundary { s with dev := (f s.dev).expiredSettle }

/-- DECISION (R81): one decision of rail `n` from the rail sample `vs` and the slice codes `raws` of its hold edge; bit i
of `cf` tags a converter fault of slice i. The command stands at D3 of the decision (assumption 4). -/
def execDecision (n : Fin 8) (vs : Int) (raws : List (BitVec 12)) (cf : Word) (s : State) : Outcome :=
  s.onRails fun d => d.decision s.mem n vs raws cf.toNat

/-- PERIOD_BOUNDARY (R162): the steps of one boundary of rail `n`, in their order (assumption 5). -/
def execPeriodBoundary (n : Fin 8) (s : State) : Outcome := s.onRails fun d => d.boundary s.mem n

/-- DISCHARGE_TIMEOUT (R168, R169): DIS_TMAX µs have passed since the start of the shutdown; the shutdown ends. No effect
before that, or on a rail that is not shutting down. -/
def execDischargeTimeout (n : Fin 8) (s : State) : Outcome :=
  s.onRails fun d =>
    if d.b RAIL_STAT_SHUTTING n && decide (d.now ≥ (d.rail n).sq.shutAt + 400 * d.a RAIL_XDISTM_DIS_TMAX n) then
      d.shutEnd s.mem n
    else d

/-- HOLDOVER_EXPIRED (R196): 2,000 µs of holdover have passed. -/
def execHoldoverExpired (s : State) : Outcome := s.onRails Dev.holdExpired

end Sys2Proof.Machine
end

