-- ==== Sys2Proof/Machine/Write.lean ====
section
/-! DEFINITION. What a bus write of a register does (R12-R17, R27): the stored value by the access codes of R13, and the
effects of the fields that act when written. -/
namespace Sys2Proof.Machine

/-! ### The stored value (R12, R13) -/

/-- The value that a write of `v` leaves in a register that holds `old`: stored bits take `v`, a written 1 clears a W1C bit,
the other bits stay. DESIGN CHOICE (log 67): R13 lets a hardware set or increment of the same cycle win; of commands in one
cycle the sender gives first the one that acts first, so a set given before the write is cleared by it, and one given after
it stays. So it is for an RC read. -/
def Reg.stored (g : Reg) (old v : Nat) : Nat :=
  (old - (old &&& (g.wmask ||| (g.w1c &&& v)))) ||| (v &&& g.wmask)

/-- The write of element `k` of instance `n`, at its bus address. -/
def Dev.plain (d : Dev) (g : Reg) (n k v : Nat) : Dev := d.setR2 g n k (g.stored (d.r2 g n k) v)

/-- A plain write of a register without elements. -/
def Dev.put (d : Dev) (g : Reg) (n v : Nat) : Dev := d.plain g n 0 v

/-! ### The rails (R54-R62, R84, R87-R92, R147) -/

/-- RAIL_CTRL (R62, R84): EXPERT_UNLOCK is stored; EN 1 requests the rail, EN 0 shuts it down. -/
def Dev.writeRailCtrl (d : Dev) (n v : Nat) : Dev :=
  let d := d.setB RAIL_CTRL_EXPERT_UNLOCK n (bit v 1)
  if bit v 0 then d.askRail n else (d.setB RAIL_CTRL_EN n false).shutAsk n causeEnClear

/-- RAIL_XCTL (R89, R90): DECIM is staged; REVERT drops a COMMIT of the same write. -/
def Dev.writeXctl (d : Dev) (n v : Nat) : Dev :=
  let d := (d.put RAIL_XCTL n v).showExpert n
  if bit v 9 then d.revertRail n else if bit v 8 then d.commitRequest n else d

/-- A write to a rail block. DESIGN CHOICE (log 68): a value outside its stated range that no rule refuses (NMIN, HREQ, OVLIM,
UVLIM, SHUT_SLEW) is stored as written. -/
def Dev.writeRail (d : Dev) (g : Reg) (n k v : Nat) : Dev :=
  if g.base = RAIL_CTRL.base then d.writeRailCtrl n v
  else if g.base = RAIL_VTARGET.base then d.vtargetWrite n v
  else if g.base = RAIL_SLEW.base then d.writeSlew n v
  else if g.base = RAIL_LOADLINE.base then d.writeLoadline n v
  else if g.base = RAIL_ILIMIT.base then d.writeIlimit n v
  else if g.base = RAIL_SOFTSTART.base then d.writeSoftstart n v
  else if g.base = RAIL_TE_COUT.base then d.writeTeCout n v
  else if g.base = RAIL_PWM.base then d.writePwm n v
  else if g.base = RAIL_ADDSHED.base then d.writeAddShed n v
  else if g.base = RAIL_XCTL.base then d.writeXctl n v
  else if g.expert then (d.plain g n k v).showExpert n
  else d.plain g n k v

/-! ### Slices and clusters (R172, R179, R185, R186) -/

/-- SLICE_CTRL. -/
def Dev.writeSliceCtrl (d : Dev) (i v : Nat) : Dev :=
  let d := d.setB SLICE_CTRL_EXPERT_UNLOCK i (bit v 8)
  let d := d.when (bit v 0 && d.sRole i != roleNone && d.sState i != stFaulted) fun d => d.faultSlice i 8
  let d := d.when (bit v 1) fun d => d.readmit i
  d.when (bit v 2 && d.sRole i != roleNone) fun d => d.modCal i fun c => { c with now := true }

/-- Staged trims wait for the boundary of the slice's rail, or take force at once (R186). -/
def Dev.writeTrim (d : Dev) (g : Reg) (i v : Nat) : Dev :=
  let d := d.put g i v
  let w := if g.base = SLICE_XOFS.base then 1 else if g.base = SLICE_XKI.base then 2 else 4
  if d.sRole i = roleNone then d.trimTake i w else d.modSlice i fun s => { s with wait := s.wait ||| w }

def Dev.writeSlice (d : Dev) (g : Reg) (i v : Nat) : Dev :=
  if g.base = SLICE_CTRL.base then d.writeSliceCtrl i v
  else if g.expert then d.writeTrim g i v
  else d.put g i v

/-! ### Hawkmoth (R113, R128, R136, R139) -/

def Dev.writeHm (d : Dev) (g : Reg) (n v : Nat) : Dev :=
  if g.base = HM_CTRL.base then
    ((d.setB HM_CTRL_EXPERT_UNLOCK 0 (bit v 1)).setB HM_CTRL_RELAY_EN 0 (bit v 3)).setPortEn (bit v 0)
  else if g.base = HM_RELAY_LO.base then d.relayFrame (d.f HM_RELAY_HI_BITS * 2 ^ 32 + v)
  else if g.base = HM_SIGSEL.base then d.writeSigsel v
  else if g.base = HMRAIL_CTRL.base then (d.put g n v).when (bit v 3) fun d => d.hmClear n
  else if g.expert && g.wmask != 0 then
    Dev.showHmExpert { d.put g n v with hm := { d.hm with xwritten := putBits d.hm.xwritten n 1 1 } }
  else d.put g n v

/-! ### The ring (R207, R219-R223) -/

/-- CHAIN_SPANCMD. -/
def Dev.writeSpancmd (d : Dev) (v : Nat) : Dev :=
  let c := b2n (bit v 4)
  let p := bits v 8 4
  match bits v 0 3 with
  | 1 => d.cmdWithdraw c p
  | 2 => d.cmdAdmit c p
  | 3 => d.cmdMoveLead c
  | 4 => d.cmdAbort c
  | _ => d

def Dev.writeChain (d : Dev) (g : Reg) (n v : Nat) : Dev :=
  if g.base = CHAIN_CTRL.base then (d.put g n v).when (bit v 0) Dev.enumStart
  else if g.base = CHAIN_SPANCMD.base then d.writeSpancmd v
  else if g.expert then (d.put g n v).showChainExpert
  else d.put g n v

/-! ### The configuration block (R244-R249, R256) -/

/-- CFG_CTRL: DEV_SEL keeps its value while FABRIC_EN is 1; LOCK is set only. -/
def Dev.writeCfgCtrl (d : Dev) (m : Mem) (v : Nat) : Dev :=
  let on := d.b CFG_CTRL_FABRIC_EN
  let d := (d.setB CFG_CTRL_EXPERT_UNLOCK 0 (bit v 1)).raiseIf (bit v 16) CFG_CTRL_LOCK
  let d := if on then d else d.setF CFG_CTRL_DEV_SEL 0 (bits v 8 1)
  if bit v 0 then (if on then d else d.askFabric (bits v 8 1)) else if on then d.fabricOff m else d

def Dev.writeCfg (d : Dev) (m : Mem) (g : Reg) (n v : Nat) : Dev :=
  let rail := bits v 4 3
  let plane := bits v 8 1
  if g.base = CFG_CTRL.base then d.writeCfgCtrl m v
  else if g.base = CFG_SWAP.base then
    (if !bit v 0 then d else if bit v 1 then d.request srcRailSwap plane rail else d.request srcDevSwap plane 0)
  else if g.base = CFG_CHECK.base then
    (if !bit v 0 then d else if bit v 1 then d.askDry srcRailDry plane rail else d.askDry srcDevDry plane 0)
  else if g.base = CFG_MINVER.base then (if d.b CFG_CTRL_LOCK then d else d.put g n v)
  else if g.expert then (d.put g n v).setB CFG_CTRL_EXPERT 0 (g.stored (d.r g) v != g.reset)
  else d.put g n v

/-! ### Accumulators and long operations (R265-R272, R279) -/

def Dev.writeLopcmd (d : Dev) (v : Nat) : Dev :=
  if bit v 8 then d.lopStart (bits v 0 2) (bits v 4 3) else if bit v 9 then d.lopAbort else d

def Dev.writeAccum (d : Dev) (g : Reg) (n v : Nat) : Dev :=
  if g.base = ACCUM_OWCMD.base then (if bit v 8 then d.owTest (bits v 5 1) (bits v 0 5) else d)
  else if g.base = ACCUM_LOPCMD.base then d.writeLopcmd v
  else if g.base = ACCUMu_CTRL.base then (if bit v 0 then d.unitRestart n else d)
  else if g.base = ACCUMu_XROUTE.base then d.writeXroute n v
  else if g.expert then (d.put g n v).showAccumExpert
  else d.put g n v

/-! ### The log (R282, R283, R287, R288) -/

def Dev.writeLog (d : Dev) (g : Reg) (n v : Nat) : Dev :=
  if g.base = LOG_CTRL.base then
    ((d.put g n v).when (bit v 4) Dev.logRelease).when (bit v 5) Dev.logClrLoss |>.alertScan
  else if g.base = LOG_ACK.base then d.logAck false (bits v 0 11)
  else if g.base = LOG_SWPOST.base then d.swPost v
  else if g.expert then ((d.put g n v).setB LOG_CTRL_EXPERT 0 (g.stored (d.r g) v != g.reset)).showLog
  else d.put g n v

/-! ### SYSCTL (R303-R311, R324) -/

/-- SYSCTL_WDOG: EN is set only, TIMEOUT is locked while EN is 1. -/
def Dev.writeWdog (d : Dev) (v : Nat) : Dev :=
  let d := if d.b SYSCTL_WDOG_EN then d else d.setF SYSCTL_WDOG_TIMEOUT 0 (bits v 8 16)
  d.raiseIf (bit v 0) SYSCTL_WDOG_EN

def Dev.writeSysctl (d : Dev) (g : Reg) (n v : Nat) : Dev :=
  if g.base = SYSCTL_MODECMD.base then d.modecmd (bits v 0 3) (bits v 16 16)
  else if g.base = SYSCTL_RESET.base then d.writeReset v
  else if g.base = SYSCTL_WDOG.base then d.writeWdog v
  else if g.base = SYSCTL_WDOGKICK.base then d.kick v
  else if g.expert then (d.put g n v).setB SYSCTL_CTRL_EXPERT 0 (g.stored (d.r g) v != 0)
  else d.put g n v

/-! ### SECURE (R348, R359-R361): SECURE_OPCMD is written at `State.writeReg` -/

def Dev.writeSecure (d : Dev) (g : Reg) (n v : Nat) : Dev :=
  if g.base = SECURE_CTRL.base then (d.put g n v).raiseIf (bit v 8) SECURE_CTRL_LOCK
  else if g.base = SECURE_OPKEY.base then d.modSec fun s => { s with armed := v % 2 ^ 16 == 0x5EC7 }
  else if g.expert then
    (if d.b SECURE_CTRL_LOCK then d else (d.put g n v).setB SECURE_CTRL_EXPERT 0 (g.stored (d.r g) v != g.reset))
  else d.put g n v

/-! ### Events (R427, R428) -/

def Dev.writeEvent (d : Dev) (g : Reg) (n v : Nat) : Dev :=
  if g.base = EVENT_SWSET.base then d.swSet v
  else if g.base = EVENT_SWCLR.base then d.swClr v
  else if g.expert then
    let d := d.put g n v
    d.setB EVENT_CTRL_EXPERT 0 ((List.range 4).any fun r => d.r EVENT_XFORCEr r != 0)
  else d.put g n v

/-! ### Flash, DMA: FLASHC_CMD and CHn_CTRL are written at `State.writeReg` -/

/-- A write of PBUF in the cycle in which an MREAD has filled it is lost (R443). -/
def Dev.writeFlashc (d : Dev) (g : Reg) (n v : Nat) : Dev :=
  if g.base = FLASHC_PBUF.base && d.flash.fillAt == some d.now then d
  else if g.expert then (d.put g n v).setB FLASHC_CTRL_EXPERT 0 (g.stored (d.r g) v != g.reset) else d.put g n v

/-- Channel `n` holds descriptor `l` and transfer `t`. -/
def Dev.dmaHold (d : Dev) (n : Nat) (l : List Nat) (t : Move) : Dev :=
  { d with dma := d.dma.setIfInBounds n { d.dma.getD n {} with desc := l, move := t } }

/-- The start of a chain (R459, R463): refused while the channel is not IDLE. -/
def Dev.dmaBegin (d : Dev) (n : Nat) : Dev :=
  if d.f CHn_STAT_STATE n != 0 then d.raise CHn_FLAGS_START_REJ n else
  let d := (d.setF CHn_STAT_STATE n 1).setB CHn_STAT_ABORT_LATE n false
  let d := d.setR CHn_CUR n (d.r CHn_DESC n)
  let d := d.dmaHold n [] {}
  d.setR DMA_STAT 0 (putBits (d.r DMA_STAT) n 1 1)

/-! ### Stitch engines (R474-R476, R480-R484) -/

/-- STITCH_EN: bits that change from 0 to 1 request a start group; a 0 stops a running engine, or withdraws a group that is
still being checked. -/
def Dev.writeStitchEn (d : Dev) (v : Nat) : Dev :=
  let was := d.f STITCH_EN_EN
  let off := (maskList (255 - v % 256)).filter fun e => bit was e || d.engState e == enStarting
  let d := d.each off fun e d => d.stitchOff e
  let on := v % 256 - (v % 256 &&& was)
  if on = 0 then d else d.askStitch on 0

/-- STITCH_SYNC. -/
def Dev.writeSync (d : Dev) (v : Nat) : Dev :=
  if bits v 0 8 = 0 then d.clockRestart (bits v 8 8) else d.askStitch (bits v 0 8) (bits v 8 8)

def Dev.writeStitch (d : Dev) (g : Reg) (n k v : Nat) : Dev :=
  if g.base = STITCH_EN.base then d.writeStitchEn v
  else if g.base = STITCH_SYNC.base then d.writeSync v
  else if g.base = STITCHe_SOUT.base then d.soutWrite n v
  else if g.base = STITCHe_HSSET.base then d.hsSet n v
  else if g.base = STITCHe_HSCLR.base then d.hsClr n v d.now
  else if g.base = STITCHe_INJECT.base then d.inject n v
  else if g.base = STITCHe_IMEMw.base then d.imemWrite n k v
  else d.plain g n k v

/-! ### Host bus, UART, QSPI, timers, GPIO (R492, R502, R508-R525, R527, R532) -/

def Dev.writeHost (d : Dev) (g : Reg) (n v : Nat) : Dev :=
  if g.base = HB_FWACK.base then d.fwAckWrite v
  else if g.expert then (d.put g n v).setB HB_CTRL_EXPERT 0 (g.stored (d.r g) v != g.reset)
  else (d.put g n v).alertScan

def Dev.writeUart (d : Dev) (g : Reg) (u v : Nat) : Dev :=
  if g.base = UART_CTRL.base then d.uaCtrl u v
  else if g.base = UART_TXQ.base then d.uaWrite u v
  else if g.base = UART_BRK.base then d.uaBreak u v
  else if g.expert then (d.put g u v).setB UART_CTRL_EXPERT u (g.stored (d.r g u) v != g.reset)
  else d.put g u v

def Dev.writeQspi (d : Dev) (g : Reg) (n v : Nat) : Dev :=
  if g.base = QSPI_CMD.base then d.qsWrite v
  else if g.expert then (d.put g n v).setB QSPI_CTRL_EXPERT 0 (g.stored (d.r g) v != g.reset)
  else d.put g n v

def Dev.writeTimer (d : Dev) (g : Reg) (t v : Nat) : Dev :=
  if g.base = TIMERt_CTRL.base then d.timerCtrl t v
  else if g.base = TIMERt_COUNT.base then d.timerCount t v
  else if g.base = TIMER_GSET.base then d.timersEn v true
  else if g.base = TIMER_GCLR.base then d.timersEn v false
  else if g.expert then (d.put g t v).setB TIMER_GCTRL_EXPERT 0 (g.stored (d.r g) v != 0)
  else d.put g t v

/-- A GPIO register of pins GP32 to GP39 holds 8 bits, GPIO_EDGE2 16 (R532). -/
def gpWidth (g : Reg) (k v : Nat) : Nat :=
  if g.base = GPIO_EDGE.base then (if k = 2 then v % 2 ^ 16 else v) else if k = 1 then v % 256 else v

def Dev.writeGpio (d : Dev) (g : Reg) (k v : Nat) : Dev :=
  if g.base = GPIO_SET.base then d.gpSet k v
  else if g.base = GPIO_CLR.base then d.gpClr k v
  else if g.base = GPIO_FLAGS.base then
    d.put g k (gpWidth g k (v - (v &&& d.gpKept / 2 ^ (32 * k))))
  else if g.expert then (d.put g k v).setB GPIO_CTRL_EXPERT 0 (g.stored (d.r g) v != 0)
  else (d.put g k (gpWidth g k v)).gpScan

/-! ### The battery domain (R318, R321, R322) -/

/-- BD_ALARM_LO: both halves wait for the next slow edge (R322). -/
def Dev.writeAlarmLo (d : Dev) (v : Nat) : Dev :=
  d.modMode fun m => { m with alarmLoad := some (v + m.alarmHi * 2 ^ 32) }

def Dev.writeBd (d : Dev) (g : Reg) (n v : Nat) : Dev :=
  if g.base = BD_REG.base then (if n < 8 || n = 9 then d else (d.put g n v).when (n == 8) Dev.showRing)
  else if g.base = BD_CTRL.base then
    (if bit v 1 && bits v 16 16 = 0xC1EA then d.batReset else d.put g n v)
  else if g.base = BD_TIME_LO.base then d.writeTimeLo v
  else if g.base = BD_TIME_HI.base then d.modMode fun m => { m with timeHi := v % 2 ^ 16 }
  else if g.base = BD_ALARM_LO.base then d.writeAlarmLo v
  else if g.base = BD_ALARM_HI.base then d.modMode fun m => { m with alarmHi := v % 2 ^ 16 }
  else d.put g n v

/-! ### The core-private registers (R396, R402, R422, R430) -/

/-- A stored field of a CORE register, in the space of core `c`: DET follows DET_FORCE outside BOOT and SAFE (R402). -/
def Dev.writeCore (d : Dev) (c : CoreId) (g : Reg) (n v : Nat) : Dev :=
  let k := d.privKey c (g.addr n)
  let new := g.stored (d.rd k) v
  let d := d.wr k new
  if g.base = CORE_CTRL.base then
    let det := bit new 0 || d.modeNow == modeBoot || d.modeNow == modeSafe
    if d.split then d.modCore c fun x => { x with psr := psrPut x.psr 13 1 (b2n det) } else d.setDet det
  else if g.expert then d.setCf c CORE_CTRL_EXPERT (b2n (bits new 0 10 != 0x100))
  else d

end Sys2Proof.Machine
end

