-- ==== Sys2Proof/Machine/Bus.lean ====
section
/-! DEFINITION. The system interconnect (R35-R39, R431-R436, R442, R446): what a read and a write of any master meet, in
order: the region, SAFE, then the memory, the plane window or the register. -/
namespace Sys2Proof.Machine

/-- The answer to a bus access: data, a bus error with its syndrome, or a wait in which nothing has happened. -/
inductive BusAns where
  | ok (v : Nat)
  | err (k : Nat)
  | wait
  deriving DecidableEq, Repr

/-! ### Reads -/

/-- EVENT_STAT (R428). -/
def Dev.eventStat (d : Dev) : Nat :=
  let wait := d.cpu.a.wfe || d.cpu.b.wfe
  (match d.takeable with
    | some k => k + d.eventPrio k * 2 ^ 8
    | none => 2 ^ 7) + b2n wait * 2 ^ 16

/-- The present value of a register that follows other state (R324, R427, R499, R502, R512, R518, R524); none of the others.
-/
def Dev.derived (d : Dev) (g : Reg) (n : Nat) : Option Nat :=
  if g.base = EVENT_PENDr.base then some (eventWord d.eventPending n)
  else if g.base = EVENT_RAWr.base then some (eventWord d.eventRaised n)
  else if g.base = EVENT_STAT.base then some d.eventStat
  else if g.base = EVENT_SWSET.base || g.base = EVENT_SWCLR.base then some d.cpu.swset
  else if g.base = SYSCTL_FLAGS.base then
    some (if d.mode.sleep ≥ 2 then d.r SYSCTL_FLAGS ||| 2 ^ SYSCTL_FLAGS_TIMERS_HELD.lo else d.r SYSCTL_FLAGS)
  else if g.base = UART_STAT.base then some (d.uaStat n)
  else if g.base = QSPI_STAT.base then some d.qsStat
  else if g.base = TIMER_GSTAT.base then some d.timersCounting
  else if g.base = HB_PSTATn.base then some (d.stWord n + d.stMfr n * 2 ^ 16)
  else if g.base = BD_TIME_HI.base then some d.mode.timeSh
  else if g.base = BD_ALARM_HI.base then some d.mode.alarmSh
  else if g.base = BD_SLEEPT_HI.base then some d.mode.sleepSh
  else none

/-- The value that a read of element `k` of instance `n` returns (R13). -/
def Dev.value (d : Dev) (g : Reg) (n k : Nat) : Nat :=
  match d.derived g n with
  | some v => v
  | none => d.r2 g n k

/-- What the read itself does: RC registers clear, reads that take from a queue take, read shadows are filled (R13, R264,
R288, R322, R481, R509). -/
def Dev.afterRead (d : Dev) (g : Reg) (n k : Nat) : Dev :=
  if g.base = STITCHe_SIN.base then d.sinRead n
  else if g.base = STITCHe_PINS.base then d.samplePins n
  else if g.base = UART_RXQ.base then d.uaRead n
  else if g.base = GPIO_IN.base then d.gpRead n
  else if g.base = ACCUMu_AVG.base then d.avgRead n
  else if g.base = LOG_NEXT.base then d.logNextRead
  else if g.base = BD_TIME_LO.base then d.modMode fun m => { m with timeSh := d.r BD_TIME_HI }
  else if g.base = BD_ALARM_LO.base then d.modMode fun m => { m with alarmSh := d.r BD_ALARM_HI }
  else if g.base = BD_SLEEPT_LO.base then d.modMode fun m => { m with sleepSh := d.r BD_SLEEPT_HI }
  else if g.rc then d.setR2 g n k 0
  else d

/-- A read of a register (R11, R13): UART_RXQ, LOG_NEXT, GPIO_IN and STITCHe_PINS give what they take. -/
def Dev.readReg (d : Dev) (g : Reg) (n k : Nat) : Dev × Nat :=
  let d1 := d.afterRead g n k
  if g.base = UART_RXQ.base || g.base = LOG_NEXT.base || g.base = GPIO_IN.base then (d1, d1.bus.data)
  else if g.base = STITCHe_PINS.base then (d1, d1.value g n k)
  else (d1, d.value g n k)

/-- The register that answers at a bus address. R468 gives DMA_XARB and CH0_CTRL one address: while the expert page of DMA is
unlocked DMA_XARB answers there, otherwise CH0_CTRL (DESIGN CHOICE, log 26). -/
def Dev.regOn (d : Dev) (a : Nat) : Option (Reg × Nat × Nat) :=
  if a = CHn_CTRL.addr 0 && d.b DMA_CTRL_EXPERT_UNLOCK then some (DMA_XARB, 0, 0) else regAt a

/-- A read of a bus address of a register block: an offset that is not listed reads 0 (R36). -/
def Dev.readBlock (d : Dev) (a : Nat) : Dev × Nat :=
  match d.regOn a with
  | some (g, n, k) => d.readReg g n k
  | none => (d, 0)

/-- An SRAM bank is held by the open window of a core other than the master (R391). -/
def Dev.bankHeld (d : Dev) (m : Master) (b : Nat) : Bool :=
  let own := fun (k : CoreId) => match masterCore m with
    | some c => d.lockstep || d.lead c == k
    | none => false
  let holds := fun (k : CoreId) => !own k && (d.core k).aw && bit (d.core k).banks b
  holds .a || holds .b

/-- A read of a word or part of it from RAM (R434, R435). -/
def State.ramRead (s : State) (key size : Nat) : State × BusAns :=
  let (d, bad) := s.dev.ramCheck (key - key % 4)
  ({ s with dev := d }, if bad then .err synEcc else .ok (s.mem.readN size key))

/-- A read of a flash bank (R442, R446, R438). -/
def State.flashRead (s : State) (a size : Nat) : State × BusAns :=
  if s.dev.busyBank = some (flashBank a) then (s, .wait)
  else if s.dev.suspBlock = some (flashBlock a) then (s, .err synErasePending)
  else
    let (d, bad) := s.dev.flashCheck a
    ({ s with dev := d }, if bad then .err synEcc else .ok (s.mem.readN size a))

/-- An information-row byte that is locked after the ROM has handed over (R341, R452), or lies in no row. -/
def infoDark (romDone : Bool) (off : Nat) : Bool :=
  let inRow := fun (lo n : Nat) => decide (lo ≤ off) && decide (off < lo + n)
  let locked := inRow 0x1200 32 || inRow 0x1240 32 || inRow 0x1400 2560
  let listed := inRow 0 0x1084 || inRow 0x1100 256 || inRow 0x2000 3093
  if locked then romDone else !listed

/-- A read of the information rows (R341, R432, R452). -/
def State.infoRead (s : State) (a size : Nat) : Nat :=
  (List.range size).foldl (fun v i =>
    v + (if infoDark s.dev.sec.romDone (a + i - 0x08800000) then 0 else s.mem.read (a + i)) * 2 ^ (8 * i)) 0

/-- A read of the QSPI window (R514, R516, R518): a miss waits for a spill or a command; what it fetches from the external
flash is free. -/
def State.windowRead (s : State) (a size : Nat) : State × BusAns :=
  let d := s.dev
  if !d.b QSPI_CTRL_EN then (s, .err synUnmapped)
  else match d.lineRead a size with
    | some v => (s, .ok v)
    | none =>
      if d.qsHolds then (s, .wait) else
      let (l, d) := d.freshBytes 32
      let d := d.lineFill a l
      ({ s with dev := d }, .ok ((d.lineRead a size).getD 0))

/-- A read of a core-private address by core `c` (R431). -/
def State.privRead (s : State) (c : CoreId) (a size : Nat) : State × BusAns :=
  if a < 0xE0001000 then
    (s, .ok (match regAt a with
      | some (g, n, _) => s.dev.cr c g n
      | none => 0))
  else s.ramRead (s.dev.privKey c a) size

/-- A bus read of `size` bytes at `a` by master `m`. -/
def State.busRead (s : State) (m : Master) (a size : Nat) : State × BusAns :=
  match s.dev.regionFault m a size with
  | some k => (s, .err k)
  | none =>
    if !alignedTo a size then (s, .err synSize) else
    match regionOf a with
    | none => (s, .err synUnmapped)
    | some .rom => (s, .ok ((List.range size).foldl (fun v i => v + (Config.romByte (a + i)).toNat * 2 ^ (8 * i)) 0))
    | some .flash => s.flashRead a size
    | some .info => (s, .ok (s.infoRead a size))
    | some .sram => if s.dev.bankHeld m (sramBank a) then (s, .wait) else s.ramRead a size
    | some .logRam => s.ramRead a size
    | some .plane => (s, .ok ((List.range 4).foldl (fun v i => v + s.mem.readPlane (a + i) * 2 ^ (8 * i)) 0))
    | some .qspi => s.windowRead a size
    | some .priv => s.privRead ((masterCore m).getD .a) a size
    | _ =>
      let (d, v) := s.dev.readBlock a
      ({ s with dev := d }, .ok v)

/-! ### Writes -/

/-- The expert page of the register at `a` is locked, as core `c` sees it (R16). -/
def Dev.pageLocked (d : Dev) (c : CoreId) (g : Reg) (a : Nat) : Bool :=
  if a / 0x1000 = 0xE0000 then g.expert && d.cf c CORE_CTRL_EXPERT_UNLOCK == 0 else g.locked d a

/-- CHn_CTRL (R463, R469): PRIO is stored; START, then ABORT with effect `ab`. -/
def State.writeChan (ab : State → Nat → State) (s : State) (n v : Nat) : State :=
  let d := s.dev.setB CHn_CTRL_PRIO n (bit v 4)
  let s := { s with dev := if bit v 0 then d.dmaBegin n else d }
  if bit v 1 then ab s n else s

/-- A write of the CORE registers by core `c` (R422, R430). -/
def State.writePriv (s : State) (c : CoreId) (g : Reg) (n v : Nat) : State :=
  if g.base = CORE_HOCMD.base then s.hoCmd c (bits v 0 3) (bits v 4 1) (bits v 16 16)
  else if g.base = CORE_HOXFER.base then { s with dev := s.dev.hoXfer c v }
  else { s with dev := s.dev.writeCore c g n v }

/-- A write of `v` to element `k` of instance `n` of register `g`; `ab` is the effect of a DMA abort. -/
def State.writeReg (ab : State → Nat → State) (s : State) (m : Master) (g : Reg) (n k v : Nat) : State :=
  let d := s.dev
  let wd := fun (d : Dev) => { s with dev := d }
  match g.base / 0x1000 with
  | 0x40000 => wd (d.writeSysctl g n v)
  | 0x40001 => wd (d.writeChain g n v)
  | 0x40002 => wd (d.writeHost g n v)
  | 0x40003 => wd (d.writeQspi g n v)
  | 0x40004 => wd (d.writeUart g n v)
  | 0x40006 => wd (d.writeStitch g n k v)
  | 0x40007 => wd (d.writeTimer g n v)
  | 0x40008 => if g.base = CHn_CTRL.base then s.writeChan ab n v else wd (d.put g n v)
  | 0x140008 => wd ((d.put g n v).setB DMA_CTRL_EXPERT 0 (g.stored (d.r g) v != g.reset))
  | 0x40009 =>
    if g.base = FLASHC_CMD.base then s.flashCmd (bits v 0 3) (bits v 4 2) (bits v 16 16) else wd (d.writeFlashc g n v)
  | 0x4000A => wd (d.writeAccum g n v)
  | 0x4000B => if g.base = SECURE_OPCMD.base then s.secOpcmd v else wd (d.writeSecure g n v)
  | 0x4000C => wd (d.writeEvent g n v)
  | 0x4000D => wd (d.writeLog g n v)
  | 0x4000E => wd (d.writeCfg s.mem g n v)
  | 0x4000F => wd (d.writeGpio g n v)
  | 0x50000 => wd (d.writeRail g n k v)
  | 0x50010 => wd (d.writeSlice g n v)
  | 0x50020 => wd (d.writeHm g n v)
  | 0xE0000 => s.writePriv ((masterCore m).getD .a) g n v
  | 0xF0000 => wd (d.writeBd g n v)
  | _ => s

/-- A write to a register address: an offset that is not listed ignores it (R36), and so does a locked expert page
(R16). -/
def State.writeBlock (ab : State → Nat → State) (s : State) (m : Master) (a v : Nat) : State :=
  match s.dev.regOn a with
  | none => s
  | some (g, n, k) =>
    if s.dev.pageLocked ((masterCore m).getD .a) g a then s else s.writeReg ab m g n k v

/-- A word write to a plane window (R38). -/
def State.planeWrite (s : State) (a v : Nat) : State × BusAns :=
  let s := s.planeStore a v
  (s, if s.dev.bus.err = 0 then .ok 0 else .err s.dev.bus.err)

/-- A bus write of `size` bytes at `a` by master `m`; `ab` is the effect of a DMA abort. -/
def State.busWriteWith (ab : State → Nat → State) (s : State) (m : Master) (a size v : Nat) : State × BusAns :=
  match s.dev.regionFault m a size with
  | some k => (s, .err k)
  | none =>
    if !alignedTo a size then (s, .err synSize)
    else if s.dev.modeNow = modeSafe && safeLocks a then (s, .err synSafeLock)
    else match regionOf a with
    | some .sram => if s.dev.bankHeld m (sramBank a) then (s, .wait) else (s.ramStore a size v, .ok 0)
    | some .plane => s.planeWrite a v
    | some .priv =>
      let c := (masterCore m).getD .a
      if a < 0xE0001000 then (s.writeBlock ab m a v, .ok 0) else (s.ramStore (s.dev.privKey c a) size v, .ok 0)
    | some .periph => (s.writeBlock ab m a v, .ok 0)
    | some .rail => (s.writeBlock ab m a v, .ok 0)
    | some .slice => (s.writeBlock ab m a v, .ok 0)
    | some .hawkmoth => (s.writeBlock ab m a v, .ok 0)
    | some .battery => (s.writeBlock ab m a v, .ok 0)
    | _ => (s, .err synUnmapped)

/-! ### A DMA abort writes the STATUS of its descriptor (R462, R463) -/

/-- The channel becomes IDLE. -/
def Dev.dmaIdle (d : Dev) (n : Nat) : Dev :=
  (d.setF CHn_STAT_STATE n 0).setR DMA_STAT 0 (putBits (d.r DMA_STAT) n 1 0)

/-- The channel stops in state ERROR at address `a` (R462). -/
def Dev.dmaError (d : Dev) (n a : Nat) : Dev :=
  let d := (d.setF CHn_STAT_STATE n 5).raise CHn_FLAGS_DESCERR n |>.setR CHn_ERRADDR n a
  d.post 2 0x044 n [a]

/-- DMA_ABORT (R463): STATUS takes ABORTED with BYTES, the bytes that the descriptor has moved so far, none between two
descriptors and while it waits for its trigger. While that write must wait (R391, R464) the channel stays in WRITEBACK. -/
def State.dmaAbort (s : State) (n : Nat) : State :=
  let st := s.dev.f CHn_STAT_STATE n
  if st = 0 then { s with dev := s.dev.setB CHn_STAT_ABORT_LATE n true } else
  let done := fun (d : Dev) => (d.dmaIdle n).raise CHn_FLAGS_ABORTED n
  if st = 5 then { s with dev := done s.dev } else
  let a := s.dev.r CHn_CUR n + 0x18
  let (t, ans) := s.busWriteWith (fun s _ => s) .dma a 4 (2 ^ 29 + (s.dev.dma.getD n {}).move.moved.length)
  match ans with
  | .err _ => { t with dev := t.dev.dmaError n a }
  | .wait => { s with dev := s.dev.setF CHn_STAT_STATE n 4 }
  | .ok _ => { t with dev := done t.dev }

/-- A bus write of `size` bytes at `a` by master `m`. -/
def State.busWrite (s : State) (m : Master) (a size v : Nat) : State × BusAns :=
  s.busWriteWith State.dmaAbort m a size v

/-! ### The rows -/

/-- The answer shown to the master: data and syndrome; a wait leaves the machine as it was. -/
def State.answered (s : State) (r : State × BusAns) : State :=
  match r.2 with
  | .ok v => { r.1 with dev := r.1.dev.answer v }
  | .err k => { r.1 with dev := r.1.dev.busFail k }
  | .wait => s

/-- REGISTER_WRITE (R12-R17, R27, R36, R38, R303). -/
def execRegisterWrite (m : Master) (addr : Word) (size : Nat) (v : Word) (s : State) : Outcome := s.live fun s =>
  (s.answered (s.busWrite m addr.toNat size v.toNat)).boundary

/-- PLANE_WRITE (R38, R224, R229, R303). -/
def execPlaneWrite (m : Master) (addr : Word) (v : Word) (s : State) : Outcome := s.live fun s =>
  if regionOf addr.toNat = some .plane then (s.answered (s.busWrite m addr.toNat 4 v.toNat)) else s

/-- CORE_DEBUG_ACCESS (R346, R392, R435): where core debug is allowed, an access of the debug port; `halt` halts the cores
into debug. An uncorrectable word reads 0xDEAD0ECC with an error. -/
def execCoreDebugAccess (wr : Bool) (addr : Word) (size : Nat) (v : Word) (halt : Bool) (s : State) : Outcome :=
  s.live fun s =>
    if !s.dev.debugOpen then s else
    let d := (s.dev.setB SECURE_STAT_DEBUGGED 0 true).modSec fun x => { x with debugged := true }
    let d := (d.debugStep halt).modCpu fun u =>
      { u with a := { u.a with debug := halt }, b := { u.b with debug := halt } }
    let s := { s with dev := d }
    let s := if wr then s.answered (s.busWrite .jtag addr.toNat size v.toNat)
      else
        let t := s.answered (s.busRead .jtag addr.toNat size)
        if t.dev.bus.err = synEcc then { t with dev := { t.dev with bus := { data := 0xDEAD0ECC, err := synEcc } } } else t
    s.boundary

end Sys2Proof.Machine
end

