-- ==== Sys2Proof/Machine/Flags.lean ====
section
/-! DEFINITION. The flags N, Z, C and V of the core (R365, R373-R375): their places in PSR, the conditions, and what each
ALU function and shift does to them. -/
namespace Sys2Proof.Machine

/-! ### The flags in PSR (R365) -/

abbrev flagV : Nat := 28
abbrev flagC : Nat := 29
abbrev flagZ : Nat := 30
abbrev flagN : Nat := 31

/-- Flag `k` of PSR. -/
def psrFlag (p : Word) (k : Nat) : Bool := p.getLsbD k

/-- PSR with bit `k` set to `v`. -/
def psrSet (p : Word) (k : Nat) (v : Bool) : Word :=
  (p &&& ~~~(1#32 <<< k)) ||| (if v then 1#32 <<< k else 0#32)

/-- A flag that changes takes its new value. -/
def psrOpt (p : Word) (k : Nat) (v : Option Bool) : Word :=
  match v with
  | some b => psrSet p k b
  | none => p

/-- N and Z of a result (R374). -/
def psrNZ (p : Word) (r : Word) : Word := psrSet (psrSet p flagN r.msb) flagZ (r == 0)

/-! ### The conditions (R373) -/

/-- A condition holds; none for the reserved code 0xF. -/
def condHolds (p : Word) (cond : Nat) : Option Bool :=
  let n := psrFlag p flagN
  let z := psrFlag p flagZ
  let c := psrFlag p flagC
  let v := psrFlag p flagV
  match cond with
  | 0x0 => some z
  | 0x1 => some !z
  | 0x2 => some c
  | 0x3 => some !c
  | 0x4 => some n
  | 0x5 => some !n
  | 0x6 => some v
  | 0x7 => some !v
  | 0x8 => some (c && !z)
  | 0x9 => some (!c || z)
  | 0xA => some (n == v)
  | 0xB => some (n != v)
  | 0xC => some (!z && n == v)
  | 0xD => some (z || n != v)
  | 0xE => some true
  | _ => none

/-! ### Results with their flags (R374, R375) -/

/-- A result, with C and V where the function changes them. -/
structure AluRes where
  r : Word
  c : Option Bool := none
  v : Option Bool := none
  deriving DecidableEq, Repr

/-- PSR after a function that sets the flags (R374). -/
def AluRes.flags (x : AluRes) (p : Word) : Word := psrOpt (psrOpt (psrNZ p x.r) flagC x.c) flagV x.v

/-- a + b + ci: C is the carry out of bit 31, V the signed overflow over the three terms. -/
def addWith (a b : Word) (ci : Bool) : AluRes :=
  let r := a + b + (if ci then 1#32 else 0#32)
  let s := a.toInt + b.toInt + (if ci then 1 else 0)
  { r := r, c := some (decide (a.toNat + b.toNat + b2n ci ≥ 2 ^ 32)), v := some (decide (r.toInt ≠ s)) }

/-- a - b - (1 - ci): C is 1 when nothing is borrowed. -/
def subWith (a b : Word) (ci : Bool) : AluRes :=
  let r := a - b - (if ci then 0#32 else 1#32)
  let s := a.toInt - b.toInt - (if ci then 0 else 1)
  { r := r, c := some (decide (a.toNat ≥ b.toNat + b2n (!ci))), v := some (decide (r.toInt ≠ s)) }

/-! ### Shifts (R375) -/

/-- The kinds of shift, in the order of the type field of R370. -/
inductive Shift where
  | lsl
  | lsr
  | asr
  | ror
  deriving DecidableEq, Repr

/-- `a` shifted by `n`. -/
def Shift.value (k : Shift) (a : Word) (n : Nat) : Word :=
  match k with
  | .lsl => if n ≥ 32 then 0 else a <<< n
  | .lsr => if n ≥ 32 then 0 else a >>> n
  | .asr => if n ≥ 32 then (if a.msb then 0xFFFFFFFF#32 else 0) else a.sshiftRight n
  | .ror => a.rotateRight (n % 32)

/-- The last bit shifted out; bit 31 of the result for ROR (R374, R375). -/
def Shift.last (k : Shift) (a : Word) (n : Nat) : Bool :=
  match k with
  | .lsl => n ≤ 32 && a.getLsbD (32 - n)
  | .lsr => n ≤ 32 && a.getLsbD (n - 1)
  | .asr => if n ≤ 32 then a.getLsbD (n - 1) else a.msb
  | .ror => (a.rotateRight (n % 32)).msb

/-- A shift with its carry: unchanged for a shift of 0, or a rotation of 0 (R374). -/
def Shift.run (k : Shift) (a : Word) (n : Nat) : AluRes :=
  let idle := match k with
    | .ror => n % 32 == 0
    | _ => n == 0
  { r := k.value a n, c := if idle then none else some (k.last a n) }

/-- The shift with type code `k` (R370). -/
def shiftKind (k : Nat) : Shift :=
  match k with
  | 0 => .lsl
  | 1 => .lsr
  | 2 => .asr
  | _ => .ror

end Sys2Proof.Machine
end

