-- ==== Sys2Proof/Machine/Operands.lean ====
section
/-! DEFINITION. The operand forms of the core's instructions (R370-R372, R378, R382-R384): immediates, addresses, bit
fields, bit counts and byte selections, and the integer functions of R376. -/
namespace Sys2Proof.Machine

/-! ### Immediates and targets (R370, R372) -/

/-- An immediate, sign-extended to 32 bits. -/
def sx {w : Nat} (v : BitVec w) : Word := v.signExtend 32

/-- An immediate, zero-extended to 32 bits. -/
def zx {w : Nat} (v : BitVec w) : Word := v.zeroExtend 32

/-- The target of a relative transfer: PC + 2 × sext(off). -/
def relTarget {w : Nat} (pc : Word) (off : BitVec w) : Word := pc + 2#32 * sx off

/-! ### Multiplication and division (R376) -/

def mulHighS (a b : Word) : Word := BitVec.ofInt 32 (a.toInt * b.toInt / 2 ^ 32)
def mulHighU (a b : Word) : Word := BitVec.ofNat 32 (a.toNat * b.toNat / 2 ^ 32)

/-- The quotient by 0 is all ones (R376). -/
def quotS (a b : Word) : Word := if b = 0 then 0xFFFFFFFF#32 else BitVec.ofInt 32 (a.toInt.tdiv b.toInt)
def quotU (a b : Word) : Word := if b = 0 then 0xFFFFFFFF#32 else BitVec.ofNat 32 (a.toNat / b.toNat)

/-- The remainder by 0 is rs1 (R376). -/
def remS (a b : Word) : Word := if b = 0 then a else BitVec.ofInt 32 (a.toInt.tmod b.toInt)
def remU (a b : Word) : Word := if b = 0 then a else BitVec.ofNat 32 (a.toNat % b.toNat)

/-! ### Bits and bytes (R382-R384) -/

/-- The bits of a word, most significant first. -/
def wordBits (a : Word) : List Bool := msbBits 32 a.toNat

/-- A natural number from its bits, most significant first. -/
def ofBits (l : List Bool) : Nat := l.foldl (fun v b => 2 * v + b2n b) 0

/-- Leading bits of a list that equal `b`. -/
def runOf (b : Bool) : List Bool → Nat
  | [] => 0
  | x :: t => if x == b then runOf b t + 1 else 0

def clz (a : Word) : Word := BitVec.ofNat 32 (runOf false (wordBits a))
def ctz (a : Word) : Word := BitVec.ofNat 32 (runOf false (wordBits a).reverse)
def cls (a : Word) : Word := BitVec.ofNat 32 (runOf a.msb ((wordBits a).drop 1))
def popc (a : Word) : Word := BitVec.ofNat 32 ((wordBits a).countP id)
def rbit (a : Word) : Word := BitVec.ofNat 32 (ofBits (wordBits a).reverse)

/-- Byte `j` of a word. -/
def byteOf (a : Word) (j : Nat) : Nat := bits a.toNat (8 * j) 8

/-- A word of four bytes, the lowest first. -/
def wordOf (b0 b1 b2 b3 : Nat) : Word := BitVec.ofNat 32 (b0 + b1 * 2 ^ 8 + b2 * 2 ^ 16 + b3 * 2 ^ 24)

def revBytes (a : Word) : Word := wordOf (byteOf a 3) (byteOf a 2) (byteOf a 1) (byteOf a 0)
def revHalves (a : Word) : Word := wordOf (byteOf a 1) (byteOf a 0) (byteOf a 3) (byteOf a 2)

/-- Byte `k` of the eight bytes of rs1 and rs2 (R384). -/
def permSrc (a b : Word) (k : Nat) : Nat := if k < 4 then byteOf a k else byteOf b (k - 4)

/-- PERM (R384): byte j is src[func[3j + 2 : 3j]]. -/
def permBytes (a b : Word) (func : Nat) : Word :=
  let p := fun j => permSrc a b (bits func (3 * j) 3)
  wordOf (p 0) (p 1) (p 2) (p 3)

/-- PERMR (R384): byte j by nibble j of the selectors; a nibble with bit 3 at 1 gives 0. -/
def permNibbles (a b sel : Word) : Word :=
  let p := fun j =>
    let n := bits sel.toNat (4 * j) 4
    if n ≥ 8 then 0 else permSrc a b n
  wordOf (p 0) (p 1) (p 2) (p 3)

/-- The fields of BFX and BFI (R382). -/
structure FieldSel where
  lsb : Nat
  w : Nat
  sg : Bool
  deriving DecidableEq, Repr

/-- The field that imm16 names; none where LSB + W is above 32 or a field that must be 0 is not. -/
def fieldSel (imm : Half) : Option FieldSel :=
  let v := imm.toNat
  let f : FieldSel := { lsb := bits v 0 5, w := bits v 5 5 + 1, sg := bit v 10 }
  if f.lsb + f.w > 32 || bits v 11 5 != 0 then none else some f

/-- BFX (R382). -/
def FieldSel.extract (f : FieldSel) (a : Word) : Word :=
  let v := bits a.toNat f.lsb f.w
  if f.sg then BitVec.ofInt 32 (toS f.w v) else BitVec.ofNat 32 v

/-- BFI (R382). -/
def FieldSel.insert (f : FieldSel) (old a : Word) : Word := BitVec.ofNat 32 (putBits old.toNat f.lsb f.w a.toNat)

/-! ### Loads (R370, R372, R378) -/

/-- What a load writes: the `size` bytes read, extended by sign or zero. -/
def loaded (size : Nat) (signed : Bool) (v : Nat) : Word :=
  if signed then BitVec.ofInt 32 (toS (8 * size) v) else BitVec.ofNat 32 (v % 2 ^ (8 * size))

/-- The parts of XMEM's func field (R378). -/
structure XForm where
  size : Nat
  signed : Bool
  st : Bool
  mode : Nat
  scale : Nat
  deriving DecidableEq, Repr

/-- XMEM's form; none where func names a reserved one. -/
def xform (func : BitVec 12) : Option XForm :=
  let v := func.toNat
  let k := bits v 0 3
  let f : XForm :=
    { size := if k = 0 then 4 else if k ≤ 2 then 2 else 1, signed := k == 1 || k == 3, st := bit v 3, mode := bits v 4 2
      scale := bits v 6 2 }
  if k ≥ 5 || (f.st && (k == 2 || k == 4)) || f.mode == 3 || bits v 8 4 != 0 then none else some f

end Sys2Proof.Machine
end

