-- ==== Sys2Proof/Machine/CoreRun.lean ====
section
/-! DEFINITION. Running one instruction of a core, or of the pair in lockstep: the fetch check (R37, R377), the order of
exceptions (R405), the comparison (R416), the logged data accesses (R391, R418, R419), retirement with the loop-end test
(R380, R381) and the window count (R389). The instruction itself is the command: its meaning is the `Act` it asks for. -/
namespace Sys2Proof.Machine

/-! ### What an instruction asks for -/

/-- What retires: the general registers written, in order; PSR afterwards; the target of a taken transfer; the special
registers written, by number (R366); CYCLE where the instruction opens a window (R389, R415). -/
structure Ret where
  wr : List (Nat × Word) := []
  psr : Word
  dest : Option Word := none
  sp : List (Nat × Word) := []
  opens : Option Nat := none
  deriving DecidableEq, Repr

/-- The block functions (R385). -/
inductive BlockOp where
  | copy
  | move
  | fill
  | cmp
  deriving DecidableEq, Repr

/-- What an instruction asks of the core, from its operands: an exception without retiring, with the upper bits of SYND
and FADDR; retirement; one load or store; and the forms of a few single instructions. It holds all that is compared at
WB (R416). -/
inductive Act where
  | exc (slot synd faddr : Nat)
  | ret (r : Ret)
  | load (addr size : Nat) (signed : Bool) (rd : Nat) (r : Ret)
  | store (addr size v : Nat) (r : Ret)
  | skip (le : Word) (r : Ret)
  | cycle (high : Bool) (rd : Nat) (psr shadow : Word)
  | trap (slot synd : Nat) (r : Ret)
  | brk (imm : Nat) (r : Ret)
  | wait (r : Ret)
  | eret (tsbp psr : Word)
  | block (op : BlockOp) (d s n : Nat) (vd vs vn psr : Word)
  deriving DecidableEq, Repr

/-- Exception slots (R404). -/
abbrev slotFetch : Nat := 3
abbrev slotIllegal : Nat := 4
abbrev slotPriv : Nat := 5
abbrev slotAlign : Nat := 6
abbrev slotAtomic : Nat := 7
abbrev slotDataBus : Nat := 8
abbrev slotEcc : Nat := 9
abbrev slotSvc : Nat := 10
abbrev slotBrk : Nat := 11

/-- ILLEGAL, with no more to say. -/
abbrev Act.illegal : Act := .exc slotIllegal 0 0

/-- A plain retirement that writes one general register. -/
def CoreSt.put (x : CoreSt) (rd : Nat) (v : Word) : Act := .ret { wr := [(rd, v)], psr := x.psr }

/-! ### Retirement (R380, R381, R389) -/

/-- The loop-end test over the loops of `l`, innermost first: the start to go back to, and the counts (R380). -/
def loopTest (x : CoreSt) : List Nat → Vector Word 3 → Option Word × Vector Word 3
  | [], lc => (none, lc)
  | l :: t, lc =>
    let n := lc.getD l 0
    if n != 0 && x.pc == x.le.getD l 0 then
      let lc := lc.setIfInBounds l (n - 1)
      if n - 1 != 0 then (some (x.ls.getD l 0), lc) else loopTest x t lc
    else loopTest x t lc

/-- A special register of the loops (R366, R381). -/
def isLoopReg (k : Nat) : Bool := decide (0x08 ≤ k) && decide (k ≤ 0x12)

/-- Write a special register by its number (R366). -/
def CoreSt.setSp (x : CoreSt) (k : Nat) (v : Word) : CoreSt :=
  match k with
  | 0x01 => { x with tsbp := v &&& ~~~15#32 }
  | 0x02 =>
    let n := bits v.toNat 0 6
    { x with atomMax := if n = 0 || n > 32 then 32 else BitVec.ofNat 32 n }
  | 0x08 => { x with ls := x.ls.setIfInBounds 0 (v &&& ~~~1#32) }
  | 0x09 => { x with le := x.le.setIfInBounds 0 (v &&& ~~~1#32) }
  | 0x0A => { x with lc := x.lc.setIfInBounds 0 v }
  | 0x0C => { x with ls := x.ls.setIfInBounds 1 (v &&& ~~~1#32) }
  | 0x0D => { x with le := x.le.setIfInBounds 1 (v &&& ~~~1#32) }
  | 0x0E => { x with lc := x.lc.setIfInBounds 1 v }
  | 0x10 => { x with ls := x.ls.setIfInBounds 2 (v &&& ~~~1#32) }
  | 0x11 => { x with le := x.le.setIfInBounds 2 (v &&& ~~~1#32) }
  | 0x12 => { x with lc := x.lc.setIfInBounds 2 v }
  | 0x19 => { x with cycHi := v }
  | _ => x

/-- The count of an open window (R389): every instruction retired inside it counts, and at 0 it closes. -/
def CoreSt.counted (x : CoreSt) (open_ : Bool) : CoreSt :=
  let p := if open_ && x.aw then (if x.awcnt ≤ 1 then psrPut x.psr 5 7 0 else psrPut x.psr 6 6 (x.awcnt - 1)) else x.psr
  { x with psr := p, banks := if bit p.toNat 5 then x.banks else 0 }

/-- The core after an instruction of `len` bytes retires. -/
def CoreSt.retired (x : CoreSt) (len : Nat) (r : Ret) : CoreSt :=
  let test := if r.dest.isSome || r.sp.any (fun w => isLoopReg w.1) then (none, x.lc) else loopTest x [2, 1, 0] x.lc
  let pc := r.dest.getD (test.1.getD (x.pc + BitVec.ofNat 32 len))
  let y : CoreSt :=
    { x with pc := pc, psr := r.psr, lc := test.2, instret := x.instret + 1, wfe := false, winAt := r.opens.getD x.winAt
             fresh := false }
  let y := r.wr.foldl (fun y w => y.setGr w.1 w.2) y
  (r.sp.foldl (fun y w => y.setSp w.1 w.2) y).counted x.aw

/-- An instruction retires on every core that runs it. -/
def Dev.retire (d : Dev) (c : CoreId) (len : Nat) (r : Ret) : Dev :=
  (d.each (d.pair c) fun k d => d.modCore k fun x => x.retired len r).modCpu fun u => { u with since := u.since + 1 }

/-- An instruction retires. -/
def State.retire (s : State) (c : CoreId) (len : Nat) (r : Ret) : State := { s with dev := s.dev.retire c len r }

/-- An instruction raises an exception and does not retire: the saved PC is its own (R404). -/
def State.except (s : State) (c : CoreId) (slot synd faddr : Nat) : State :=
  s.enter c { slot := slot, pc := (s.dev.core (s.dev.lead c)).pc, synd := synd, faddr := faddr }

/-! ### Fetch (R35, R37, R404, R435) -/

/-- The fetch of the halfword at `a` by core `c`. -/
def State.fetchAt (s : State) (c : CoreId) (a : Nat) : State × BusAns :=
  let user := !(s.dev.core (s.dev.lead c)).sup
  match regionOf a with
  | none => (s, .err synUnmapped)
  | some r =>
    if user && !r.user then (s, .err synPriv)
    else if !r.exec (s.dev.modeNow == modeBoot) then (s, .err synNoExec)
    else match r with
      | .flash => s.flashRead a 2
      | .sram => if s.dev.bankHeld (.core c user) (sramBank a) then (s, .wait) else s.ramRead a 2
      | _ => (s, .ok ((Config.romByte a).toNat + (Config.romByte (a + 1)).toNat * 2 ^ 8))

/-- The fetch of an instruction of `len` bytes at `a`, a halfword at a time. -/
def State.fetchAll (s : State) (c : CoreId) (a len : Nat) : State × BusAns :=
  match s.fetchAt c a with
  | (s, .ok v) => if len = 2 then (s, .ok v) else s.fetchAt c (a + 2)
  | p => p

/-- The address at which the fetch of an instruction at `a` fails: its first halfword, or its second one (R407). -/
def State.fetchFault (s : State) (c : CoreId) (a : Nat) : Nat :=
  match s.fetchAt c a with
  | (_, .ok _) => a + 2
  | _ => a

/-! ### Data accesses (R377, R391, R418, R419) -/

/-- The answer to a data access of an instruction: data; an exception by slot, SYND bits and FADDR; a wait; or a replayed
access that differs from its entry. -/
inductive AccAns where
  | ok (v : Nat)
  | exc (slot synd faddr : Nat)
  | wait
  | differ
  deriving DecidableEq, Repr

/-- The next entry to be replayed, if a replay runs. -/
def Dev.replayNext (d : Dev) : Option LogAcc :=
  match d.cpu.replay with
  | some (e :: _) => some e
  | _ => none

/-- The replay goes on to its next entry, and ends when the log is used up (R419). -/
def Dev.replayStep (d : Dev) : Dev :=
  d.modCpu fun u =>
    { u with replay := match u.replay with
        | some (_ :: e :: t) => some (e :: t)
        | _ => none }

/-- An open window holds the SRAM bank it accesses (R391). -/
def Dev.holdBank (d : Dev) (c : CoreId) (a : Nat) : Dev :=
  if regionOf a = some .sram then
    d.each (d.pair c) fun k d => d.modCore k fun x =>
      if x.aw then { x with banks := x.banks ||| 2 ^ sramBank a } else x
  else d

/-- An access before it reaches the bus: ALIGN (R377). -/
def alignExc (a size : Nat) : Option AccAns := if alignedTo a size then none else some (.exc slotAlign 0 a)

/-- The exception of a bus error: ECC for a RAM word that a load could not read, otherwise DATA_BUS (R404, R435). -/
def dataExc (a k : Nat) (store : Bool) : AccAns :=
  let ram := regionOf a = some .sram || regionOf a = some .logRam || regionOf a = some .priv
  .exc (if k = synEcc && ram && !store then slotEcc else slotDataBus) (k * 2 ^ 8 + b2n store * 2 ^ 24) a

/-- A master's name of core `c`. -/
def Dev.coreMaster (d : Dev) (c : CoreId) : Master := .core (d.lead c) !(d.core (d.lead c)).sup

/-- The load of `size` bytes at `a` on the bus. -/
def State.loadBus (s : State) (c : CoreId) (a size : Nat) : State × AccAns :=
  match s.busRead (s.dev.coreMaster c) a size with
  | (t, .ok v) =>
    let d := t.dev.holdBank c a
    ({ t with dev := if d.undone a then d else d.logAcc ⟨false, a, size, v⟩ }, .ok v)
  | (t, .err k) => (t, dataExc a k false)
  | (_, .wait) => (s, .wait)

/-- A load by core `c`: in replay a logged load takes the logged value (R419). -/
def State.loadAcc (s : State) (c : CoreId) (a size : Nat) : State × AccAns :=
  match alignExc a size with
  | some e => (s, e)
  | none =>
    match s.dev.replayNext with
    | some e =>
      if s.dev.undone a then s.loadBus c a size
      else if e.store || e.addr != a || e.size != size then (s, .differ)
      else ({ s with dev := s.dev.replayStep }, .ok e.val)
    | none => s.loadBus c a size

/-- The undo entry of a store (R418): the address of its word and the old word. -/
def State.undoLog (s : State) (c : CoreId) (a : Nat) : State :=
  if !s.dev.lockstep then s else
  let k := s.dev.privKey c (a - a % 4)
  { s with dev := s.dev.modCpu fun u => { u with undo := (k, s.mem.readN 4 k) :: u.undo } }

/-- The store of `size` bytes of `v` at `a` on the bus. -/
def State.storeBus (s : State) (c : CoreId) (a size v : Nat) : State × AccAns :=
  let s0 := if s.dev.undone a then s.undoLog c a else { s with dev := s.dev.logAcc ⟨true, a, size, v⟩ }
  match s0.busWrite (s.dev.coreMaster c) a size v with
  | (t, .ok _) => ({ t with dev := t.dev.holdBank c a }, .ok 0)
  | (_, .err k) => (s, dataExc a k true)
  | (_, .wait) => (s, .wait)

/-- A store by core `c`: in replay a store that matches its entry is suppressed (R419). -/
def State.storeAcc (s : State) (c : CoreId) (a size v : Nat) : State × AccAns :=
  let v := v % 2 ^ (8 * size)
  match alignExc a size with
  | some e => (s, e)
  | none =>
    match s.dev.replayNext with
    | some e =>
      if s.dev.undone a then s.storeBus c a size v
      else if !e.store || e.addr != a || e.size != size || e.val != v then (s, .differ)
      else ({ s with dev := s.dev.replayStep }, .ok 0)
    | none => s.storeBus c a size v

/-! ### The instruction (R405, R416) -/

/-- The PC of core `c`. -/
def State.pcOf (s : State) (c : CoreId) : Word := (s.dev.core (s.dev.lead c)).pc

/-- A load, then retirement with the register it writes. -/
def State.runLoad (s : State) (c : CoreId) (len a size : Nat) (signed : Bool) (rd : Nat) (r : Ret) : State :=
  match s.loadAcc c a size with
  | (t, .ok v) => t.retire c len { r with wr := r.wr ++ [(rd, loaded size signed v)] }
  | (t, .exc slot synd faddr) => t.except c slot synd faddr
  | (_, .wait) => s
  | (_, .differ) => s.mismatch (s.pcOf c).toNat

/-- A store acts at retire (R401, R403): the instruction has retired when it reaches the bus; one that faults changes
nothing (R377). -/
def State.runStore (s : State) (c : CoreId) (len a size v : Nat) (r : Ret) : State :=
  match alignExc a size with
  | some (.exc slot synd faddr) => s.except c slot synd faddr
  | _ =>
    let s1 := { s with dev := s.dev.holdBank c a }
    match (s1.retire c len r).storeAcc c a size v with
    | (t, .ok _) => t
    | (_, .exc slot synd faddr) => s.except c slot synd faddr
    | (_, .wait) => s
    | (_, .differ) => s.mismatch (s.pcOf c).toNat

/-- LP with count 0 (R379): the instruction at LE is fetched for its length. -/
def State.runSkip (s : State) (c : CoreId) (len : Nat) (le : Word) (r : Ret) : State :=
  match s.fetchAt c le.toNat with
  | (t, .ok h) => t.retire c len { r with dest := some (le + if bits h 14 2 = 3 then 4#32 else 2#32) }
  | (t, .err k) => t.except c slotFetch (k * 2 ^ 8) le.toNat
  | (_, .wait) => s

/-- MFS of CYCLE_LO or CYCLE_HI (R366, R418, R419). -/
def State.runCycle (s : State) (c : CoreId) (len : Nat) (high : Bool) (rd : Nat) (psr : Word) : State :=
  let now := s.dev.cycle
  let x := s.dev.core (s.dev.lead c)
  let sp := if high then [] else [(0x19, BitVec.ofNat 32 (now / 2 ^ 32))]
  let a := if high then 0x19 else 0x18
  let v := if high then x.cycHi.toNat else now % 2 ^ 32
  match s.dev.replayNext with
  | some e =>
    if e.store || e.addr != a || e.size != 0 then s.mismatch x.pc.toNat
    else State.retire { s with dev := s.dev.replayStep } c len { wr := [(rd, BitVec.ofNat 32 e.val)], psr := psr, sp := sp }
  | none =>
    State.retire { s with dev := s.dev.logAcc ⟨false, a, 0, v⟩ } c len
      { wr := [(rd, BitVec.ofNat 32 v)], psr := psr, sp := sp }

/-- SVC and BRK complete and then raise: the saved PC is the next one (R404, R405). While the entry must wait they wait
(R391). -/
def State.runTrap (s : State) (c : CoreId) (len slot synd : Nat) (r : Ret) : State :=
  if s.dev.entryHeld c then s else
  let s := s.retire c len r
  s.except c slot synd 0

/-- BRK (R392): it halts the cores into debug where that is allowed by R346, with imm7 recorded. -/
def State.runBrk (s : State) (c : CoreId) (len imm : Nat) (r : Ret) : State :=
  if s.dev.debugOpen then
    let d := ((s.dev.retire c len r).debugStep true).modCpu fun u => { u with brk := imm }
    { s with dev := d.each (d.pair c) fun k d => d.modCore k fun x => { x with debug := true } }
  else s.runTrap c len slotBrk (imm * 2 ^ 16) r

/-- An event with a priority above PSR.IPL is pending for a core that waits (R392). -/
def Dev.wfeEnds (d : Dev) (c : CoreId) : Bool := (d.topEvent (d.core (d.lead c)).ipl).isSome

/-- WFE (R392): it retires when such an event is pending; until then the core waits. -/
def State.runWait (s : State) (c : CoreId) (len : Nat) (r : Ret) : State :=
  if s.dev.wfeEnds c then s.retire c len r
  else { s with dev := s.dev.each (s.dev.pair c) fun k d => d.modCore k fun x => { x with wfe := true } }

/-- A core that waits in WFE retires it once an event is pending. -/
def State.wfeDone (s : State) (c : CoreId) : State :=
  let x := s.dev.core (s.dev.lead c)
  if x.wfe && s.dev.executes c && s.dev.wfeEnds c then s.retire c 2 { psr := x.psr } else s

/-- An instruction at an address it may be fetched from: the meaning `act` of each core that runs it is compared before
anything of it is released (R416); `run` carries it out. -/
def State.issue (s : State) (c : CoreId) (act : Dev → CoreSt → Act) (run : State → Act → State) : State :=
  let x := s.dev.core (s.dev.lead c)
  if s.dev.lockstep && (s.dev.cpu.a.pc != s.dev.cpu.b.pc || act s.dev s.dev.cpu.a != act s.dev s.dev.cpu.b) then
    s.mismatch s.dev.cpu.a.pc.toNat
  else run s (act s.dev x)

/-- ONE INSTRUCTION of `len` bytes on core `c` (R405): fetch first; then the exceptions, the access and the retirement
that its meaning asks for; then what waits for the boundary. A core that does not execute, or waits, does nothing. A
checkpoint that is due is taken first (R417). -/
def State.instrWith (s : State) (c : CoreId) (len : Nat) (act : Dev → CoreSt → Act) (run : State → Act → State) : State :=
  let s := s.wfeDone c
  if !s.dev.executes c || (s.dev.core (s.dev.lead c)).wfe then s else
  let s := { s with dev := s.dev.checkpointNow }
  match s.fetchAll c (s.pcOf c).toNat len with
  | (_, .wait) => s
  | (t, .err k) => (t.except c slotFetch (k * 2 ^ 8) (s.fetchFault c (s.pcOf c).toNat)).boundary
  | (t, .ok _) => (t.issue c act run).boundary

/-- EVENT_ENTRY (R406, R412): at an instruction boundary the pending event of highest priority is taken. -/
def execEventEntry (s : State) : Outcome := .next <|
  let s := s.wfeDone s.dev.eventCore
  match s.dev.takeable with
  | some k =>
    let c := s.dev.eventCore
    (s.enter c { slot := 16 + k, pc := (s.dev.core (s.dev.lead c)).pc, prio := some (s.dev.eventPrio k) }).hoFail
  | none => s

/-- WINDOW_CYCLE_LIMIT (R415): an open window reaches WINMAX cycles; it closes, and ATOMIC is raised with cause 3. Before
that nothing happens, nor in a replay, whose entry would drop what is still to be replayed (R419). A core that cannot take
the exception yet lets go of the banks it holds, so that no master waits longer (DEDUCED, log 82). -/
def execWindowCycleLimit (c : CoreId) (s : State) : Outcome := s.live fun s =>
  let k := s.dev.lead c
  let x := s.dev.core k
  if !x.aw || s.dev.cycle < x.winAt + s.dev.winMax k || s.dev.cpu.replay.isSome then s else
  if !s.dev.executes c || s.dev.entryHeld c then
    { s with dev := s.dev.each (s.dev.pair c) fun i d => d.modCore i fun x => { x with banks := 0 } } else
  let d := (s.dev.setCf k CORE_FLAGS_WIN_LIMIT 1).post 2 0x118 0xFF [x.pc.toNat]
  (State.enter { s with dev := d } c { slot := 7, pc := x.pc, synd := 3 * 2 ^ 28 }).hoFail

end Sys2Proof.Machine
end

