-- ==== Sys2Proof/Machine/CoreBlock.lean ====
section
/-! DEFINITION. The steps of the block instructions (R385-R388): a command runs one step, and the instruction is given
again until it retires. The return from an exception (R409). -/
namespace Sys2Proof.Machine

/-- The regions of R36 that take aligned words only, as [start, end). -/
def wordRegions : List (Nat × Nat) :=
  [(0x30000000, 0x30018000), (0x30020000, 0x30038000), (0x40000000, 0x40010000), (0x50000000, 0x50008000),
   (0x50010000, 0x50012000), (0x50020000, 0x50021000), (0xE0000000, 0xE0010000), (0xF0000000, 0xF0000400)]

/-- Some byte of the `n` bytes from `a` lies in such a region (R388). -/
def wordsOnly (a n : Nat) : Bool := wordRegions.any fun r => decide (a < r.2) && decide (r.1 < a + n)

/-- Load `n` units of `u` bytes from `a` upwards. -/
def State.loadUnits (s : State) (c : CoreId) (u : Nat) : Nat → Nat → State × AccAns × List Nat
  | 0, _ => (s, .ok 0, [])
  | n + 1, a =>
    match s.loadAcc c a u with
    | (t, .ok v) =>
      let p := State.loadUnits t c u n (a + u)
      (p.1, p.2.1, v :: p.2.2)
    | (t, e) => (t, e, [])

/-- Store units of `u` bytes from `a` upwards; those before a failing one stay stored (R387). -/
def State.storeUnits (s : State) (c : CoreId) (u : Nat) : Nat → List Nat → State × AccAns
  | _, [] => (s, .ok 0)
  | a, v :: l =>
    match s.storeAcc c a u v with
    | (t, .ok _) => State.storeUnits t c u (a + u) l
    | p => p

/-- Compare `n` units at `a` and `b` until the first difference: its byte index, from `j`, and whether the byte at `a` is
the greater (R386). -/
def State.compareUnits (s : State) (c : CoreId) (u : Nat) : Nat → Nat → Nat → Nat → State × AccAns × Option (Nat × Bool)
  | 0, _, _, _ => (s, .ok 0, none)
  | n + 1, a, b, j =>
    match s.loadAcc c a u with
    | (t, .ok v) =>
      match t.loadAcc c b u with
      | (t, .ok w) =>
        match (List.range u).find? fun i => bits v (8 * i) 8 != bits w (8 * i) 8 with
        | some i => (t, .ok 0, some (j + i, decide (bits v (8 * i) 8 > bits w (8 * i) 8)))
        | none => State.compareUnits t c u n (a + u) (b + u) (j + u)
      | (t, e) => (t, e, none)
    | (t, e) => (t, e, none)

/-- The registers after a step; for BCMP the difference found, if any. -/
structure BlockEnd where
  d : Nat
  s : Nat
  n : Nat
  diff : Option Bool := none
  deriving DecidableEq, Repr

/-- BMOVE copies downwards when the destination starts inside the source (R386). -/
def blockDown (op : BlockOp) (d s n : Nat) : Bool := op == .move && decide (d > s) && decide (d < s + n)

/-- The bytes of a step (R386). -/
def blockSize (down : Bool) (d n : Nat) : Nat :=
  if down then
    let k := (d + n) % 32
    if k = 0 || k > n then min 32 n else k
  else min n (32 - d % 32)

/-- The accesses of one step at `dst` and `src`, of `k` bytes in units of `u` (R386). -/
def State.blockMove (s : State) (c : CoreId) (op : BlockOp) (u k dst src fill : Nat) :
    State × AccAns × Option (Nat × Bool) :=
  match op with
  | .cmp => s.compareUnits c u (k / u) dst src 0
  | .fill =>
    let p := s.storeUnits c u dst (List.replicate (k / u) (fill * (if u = 4 then 0x01010101 else 1)))
    (p.1, p.2, none)
  | _ =>
    match s.loadUnits c u (k / u) src with
    | (t, .ok _, l) =>
      let p := t.storeUnits c u dst l
      (p.1, p.2, none)
    | (t, e, _) => (t, e, none)

/-- The registers after a step of `k` bytes (R386). -/
def blockAfter (op : BlockOp) (down : Bool) (k d s n : Nat) (diff : Option (Nat × Bool)) : BlockEnd :=
  match diff with
  | some (j, g) => { d := d + j, s := s + j, n := n - j, diff := some g }
  | none =>
    if down then { d := d, s := s, n := n - k }
    else { d := d + k, s := if op == .fill then s else s + k, n := n - k }

/-- PSR when a block instruction retires: BCMP sets Z, and C where it found a difference (R386). -/
def blockPsr (op : BlockOp) (p : Word) (diff : Option Bool) : Word :=
  let p := psrPut p 12 1 0
  match op, diff with
  | .cmp, some g => psrSet (psrSet p flagZ false) flagC g
  | .cmp, none => psrSet p flagZ true
  | _, _ => p

/-- The end of a step: the registers change together; the instruction retires when nothing is left or BCMP stops,
otherwise BK is 1 and PC stays (R386, R387). -/
def State.blockDone (s : State) (c : CoreId) (op : BlockOp) (d sr n : Nat) (e : BlockEnd) : State :=
  let wr := [(d, BitVec.ofNat 32 e.d), (sr, BitVec.ofNat 32 e.s), (n, BitVec.ofNat 32 e.n)]
  if e.n = 0 || e.diff.isSome then
    s.retire c 4 { wr := wr, psr := blockPsr op (s.dev.core (s.dev.lead c)).psr e.diff }
  else
    { s with dev := s.dev.each (s.dev.pair c) fun k d => d.modCore k fun x =>
        { (wr.foldl (fun y w => y.setGr w.1 w.2) x) with psr := psrPut x.psr 12 1 1 } }

/-- One step of a block instruction whose registers hold `vd`, `vs` and `vn` (R386-R388). -/
def State.runBlock (s : State) (c : CoreId) (op : BlockOp) (d sr n : Nat) (vd vs vn : Nat) : State :=
  let fill := op == .fill
  if vn = 0 then s.blockDone c op d sr n { d := vd, s := vs, n := 0 } else
  let down := blockDown op vd vs vn
  let k := blockSize down vd vn
  let dst := if down then vd + vn - k else vd
  let src := if down then vs + vn - k else vs
  let dstW := wordsOnly vd vn
  let srcW := !fill && wordsOnly vs vn
  let aligned := vd % 4 == 0 && vn % 4 == 0 && (fill || vs % 4 == 0)
  let err := fun (syn a : Nat) (st : Bool) => s.except c slotDataBus (syn * 2 ^ 8 + b2n st * 2 ^ 24) a
  if (dstW || srcW) && !aligned then
    if dstW then err synSize dst (op != .cmp) else err synSize src false
  else if !fill && decide (src + k > 2 ^ 32) then err synUnmapped (src % 2 ^ 32) false
  else if dst + k > 2 ^ 32 then err synUnmapped (dst % 2 ^ 32) (op != .cmp)
  else
    let u := if dst % 4 = 0 && k % 4 = 0 && (fill || src % 4 = 0) then 4 else 1
    match s.blockMove c op u k dst src (vs % 256) with
    | (t, .ok _, diff) => t.blockDone c op d sr n (blockAfter op down k vd vs vn diff)
    | (t, .exc slot synd faddr, _) => t.except c slot synd faddr
    | (_, .wait, _) => s
    | (_, .differ, _) => s.mismatch (s.pcOf c).toNat

/-! ### Return (R409, R410) -/

/-- ERET, once it may execute: from the TSB at TSBP, or from the emergency block while DBL is 1. Its reads are loads of the
core, logged and replayed as such (R418, R419); it waits while one of them must (R391), and one that ends in an error gives
DOUBLE with its address. -/
def State.eret (s : State) (c : CoreId) : State :=
  let k := s.dev.lead c
  let x := s.dev.core k
  let dbl := s.dev.cf k CORE_STAT_DBL = 1
  match s.loadUnits c 4 24 (if dbl then 0xE000FFA0 else x.tsbp.toNat) with
  | (t, .exc _ synd faddr, _) => t.double c { slot := 2, pc := x.pc, synd := synd, faddr := faddr % 2 ^ 32 }
  | (_, .wait, _) => s
  | (_, .differ, _) => s.mismatch x.pc.toNat
  | (t, .ok _, ws) =>
    let d := t.dev.each (t.dev.pair c) fun i d =>
      d.modCore i fun x => x.restored ws (if dbl then x.tsbp else x.tsbp + 0x60)
    let d := if dbl then d.setCf k CORE_STAT_DBL 0 else d
    { t with dev := d.modCpu fun u => { u with since := u.since + 1 } }

/-! ### Carrying an instruction out -/

/-- What the instruction asks for is done. -/
def State.perform (c : CoreId) (len : Nat) (s : State) : Act → State
  | .exc slot synd faddr => s.except c slot synd faddr
  | .ret r => s.retire c len r
  | .load a size signed rd r => s.runLoad c len a size signed rd r
  | .store a size v r => s.runStore c len a size v r
  | .skip le r => s.runSkip c len le r
  | .cycle high rd psr _ => s.runCycle c len high rd psr
  | .trap slot synd r => s.runTrap c len slot synd r
  | .brk imm r => s.runBrk c len imm r
  | .wait r => s.runWait c len r
  | .eret _ _ => s.eret c
  | .block op d sr n vd vs vn _ => s.runBlock c op d sr n vd.toNat vs.toNat vn.toNat

/-- An instruction of `len` bytes with meaning `act` on core `c`. -/
def State.instr (s : State) (c : CoreId) (len : Nat) (act : Dev → CoreSt → Act) : Outcome :=
  .next (s.instrWith c len act (State.perform c len))

end Sys2Proof.Machine
end

