-- ==== Sys2Proof/Machine/CoreAlu.lean ====
section
/-! DEFINITION. The arithmetic, logic, shift, bit-field and permutation instructions of the core (R370-R376, R382-R384).
A field `z` is one the encoding tables give as 0: another value is ILLEGAL (R369). -/
namespace Sys2Proof.Machine

/-! ### Shared forms -/

/-- A function of ALU on `a` and `b` (R374). -/
inductive AluOp where
  | add
  | sub
  | and
  | or
  | xor
  | andn
  | shift (k : Shift)
  | adc
  | sbc
  | min
  | max
  | minu
  | maxu
  deriving DecidableEq, Repr

/-- The result of an ALU function, with C and V where it changes them (R374, R375). -/
def AluOp.run (f : AluOp) (a b p : Word) : AluRes :=
  match f with
  | .add => addWith a b false
  | .sub => subWith a b true
  | .and => { r := a &&& b }
  | .or => { r := a ||| b }
  | .xor => { r := a ^^^ b }
  | .andn => { r := a &&& ~~~b }
  | .shift k => k.run a (bits b.toNat 0 8)
  | .adc => addWith a b (psrFlag p flagC)
  | .sbc => subWith a b (psrFlag p flagC)
  | .min => { r := if a.slt b then a else b }
  | .max => { r := if a.slt b then b else a }
  | .minu => { r := if a.ult b then a else b }
  | .maxu => { r := if a.ult b then b else a }

/-- rd := a f b; the flags follow where `sets` holds (R374). -/
def CoreSt.alu (x : CoreSt) (f : AluOp) (rd : Nat) (a b : Word) (sets : Bool) : Act :=
  let v := f.run a b x.psr
  .ret { wr := [(rd, v.r)], psr := if sets then v.flags x.psr else x.psr }

/-- The flags of a f b, and no write (R374). -/
def CoreSt.aluFlags (x : CoreSt) (f : AluOp) (a b : Word) : Act := .ret { psr := (f.run a b x.psr).flags x.psr }

/-- Fields that must be 0 (R369). -/
def needZero {w : Nat} (z : BitVec w) (a : Act) : Act := if z = 0 then a else .illegal

/-- A 16-bit instruction rd := rd f rs (R370). -/
def State.alu16 (s : State) (c : CoreId) (f : AluOp) (rd rs : Fin 16) : Outcome :=
  s.instr c 2 fun _ x => x.alu f rd (x.gr rd) (x.gr rs) false

/-- A 16-bit shift rd := rd shifted by all of rs (R370, R375). -/
def State.sh16 (s : State) (c : CoreId) (k : Shift) (rd rs : Fin 16) : Outcome :=
  s.instr c 2 fun _ x => x.put rd (k.value (x.gr rd) (x.gr rs).toNat)

/-- A 16-bit instruction rd := f rs (R370, R371). -/
def State.un16 (s : State) (c : CoreId) (rd rs : Fin 16) (f : Word → Word) : Outcome :=
  s.instr c 2 fun _ x => x.put rd (f (x.gr rs))

/-- A 32-bit ALU instruction (R374). -/
def State.alu32 (s : State) (c : CoreId) (f : AluOp) (rd rs1 rs2 : Fin 16) (sets : Bool) (z : BitVec 7) : Outcome :=
  s.instr c 4 fun _ x => needZero z (x.alu f rd (x.gr rs1) (x.gr rs2) sets)

/-- A MULDIV instruction: rd from rs1, rs2 and the old rd (R376). -/
def State.muldiv (s : State) (c : CoreId) (rd rs1 rs2 : Fin 16) (z : BitVec 8) (f : Word → Word → Word → Word) : Outcome :=
  s.instr c 4 fun _ x => needZero z (x.put rd (f (x.gr rs1) (x.gr rs2) (x.gr rd)))

/-- A BITOP instruction of one source (R383). -/
def State.bitop (s : State) (c : CoreId) (rd rs1 : Fin 16) (z : BitVec 12) (f : Word → Word) : Outcome :=
  s.instr c 4 fun _ x => needZero z (x.put rd (f (x.gr rs1)))

/-! ### The 16-bit instructions (R370, R371) -/

def execMov16 (c : CoreId) (rd rs : Fin 16) (s : State) : Outcome := s.un16 c rd rs id
def execAdd16 (c : CoreId) (rd rs : Fin 16) (s : State) : Outcome := s.alu16 c .add rd rs
def execSub16 (c : CoreId) (rd rs : Fin 16) (s : State) : Outcome := s.alu16 c .sub rd rs
def execAnd16 (c : CoreId) (rd rs : Fin 16) (s : State) : Outcome := s.alu16 c .and rd rs
def execOr16 (c : CoreId) (rd rs : Fin 16) (s : State) : Outcome := s.alu16 c .or rd rs
def execXor16 (c : CoreId) (rd rs : Fin 16) (s : State) : Outcome := s.alu16 c .xor rd rs
/-- CMP16 acts as SUB with S at 1 and no write of rd (R374). -/
def execCmp16 (c : CoreId) (rd rs : Fin 16) (s : State) : Outcome :=
  s.instr c 2 fun _ x => x.aluFlags .sub (x.gr rd) (x.gr rs)
/-- TST16 acts as AND with S at 1 and no write of rd (R374). -/
def execTst16 (c : CoreId) (rd rs : Fin 16) (s : State) : Outcome :=
  s.instr c 2 fun _ x => x.aluFlags .and (x.gr rd) (x.gr rs)
def execLsl16 (c : CoreId) (rd rs : Fin 16) (s : State) : Outcome := s.sh16 c .lsl rd rs
def execLsr16 (c : CoreId) (rd rs : Fin 16) (s : State) : Outcome := s.sh16 c .lsr rd rs
def execAsr16 (c : CoreId) (rd rs : Fin 16) (s : State) : Outcome := s.sh16 c .asr rd rs
def execRor16 (c : CoreId) (rd rs : Fin 16) (s : State) : Outcome := s.sh16 c .ror rd rs
def execNeg16 (c : CoreId) (rd rs : Fin 16) (s : State) : Outcome := s.un16 c rd rs fun a => 0 - a
def execNot16 (c : CoreId) (rd rs : Fin 16) (s : State) : Outcome := s.un16 c rd rs fun a => ~~~a
def execClz16 (c : CoreId) (rd rs : Fin 16) (s : State) : Outcome := s.un16 c rd rs clz
def execRev16 (c : CoreId) (rd rs : Fin 16) (s : State) : Outcome := s.un16 c rd rs revBytes
def execMovi16 (c : CoreId) (rd : Fin 16) (imm : BitVec 7) (s : State) : Outcome := s.instr c 2 fun _ x => x.put rd (sx imm)
def execAddi16 (c : CoreId) (rd : Fin 16) (imm : BitVec 7) (s : State) : Outcome :=
  s.instr c 2 fun _ x => x.alu .add rd (x.gr rd) (sx imm) false
/-- CMPI16 acts as SUB with S at 1 and no write of rd (R374). -/
def execCmpi16 (c : CoreId) (rd : Fin 16) (imm : BitVec 7) (s : State) : Outcome :=
  s.instr c 2 fun _ x => x.aluFlags .sub (x.gr rd) (sx imm)
def execShi16 (c : CoreId) (rd : Fin 16) (kind : Fin 4) (sh : Fin 32) (s : State) : Outcome :=
  s.instr c 2 fun _ x => x.put rd ((shiftKind kind).value (x.gr rd) sh)
def execSextb (c : CoreId) (rd rs : Fin 16) (s : State) : Outcome := s.un16 c rd rs fun a => sx (a.setWidth 8)
def execSexth (c : CoreId) (rd rs : Fin 16) (s : State) : Outcome := s.un16 c rd rs fun a => sx (a.setWidth 16)
def execZexth (c : CoreId) (rd rs : Fin 16) (s : State) : Outcome := s.un16 c rd rs fun a => zx (a.setWidth 16)

/-! ### ALU and MULDIV (R374-R376) -/

def execAdd (c : CoreId) (rd rs1 rs2 : Fin 16) (sets : Bool) (z : BitVec 7) (s : State) : Outcome :=
  s.alu32 c .add rd rs1 rs2 sets z
def execSub (c : CoreId) (rd rs1 rs2 : Fin 16) (sets : Bool) (z : BitVec 7) (s : State) : Outcome :=
  s.alu32 c .sub rd rs1 rs2 sets z
def execAnd (c : CoreId) (rd rs1 rs2 : Fin 16) (sets : Bool) (z : BitVec 7) (s : State) : Outcome :=
  s.alu32 c .and rd rs1 rs2 sets z
def execOr (c : CoreId) (rd rs1 rs2 : Fin 16) (sets : Bool) (z : BitVec 7) (s : State) : Outcome :=
  s.alu32 c .or rd rs1 rs2 sets z
def execXor (c : CoreId) (rd rs1 rs2 : Fin 16) (sets : Bool) (z : BitVec 7) (s : State) : Outcome :=
  s.alu32 c .xor rd rs1 rs2 sets z
def execAndn (c : CoreId) (rd rs1 rs2 : Fin 16) (sets : Bool) (z : BitVec 7) (s : State) : Outcome :=
  s.alu32 c .andn rd rs1 rs2 sets z
def execLsl (c : CoreId) (rd rs1 rs2 : Fin 16) (sets : Bool) (z : BitVec 7) (s : State) : Outcome :=
  s.alu32 c (.shift .lsl) rd rs1 rs2 sets z
def execLsr (c : CoreId) (rd rs1 rs2 : Fin 16) (sets : Bool) (z : BitVec 7) (s : State) : Outcome :=
  s.alu32 c (.shift .lsr) rd rs1 rs2 sets z
def execAsr (c : CoreId) (rd rs1 rs2 : Fin 16) (sets : Bool) (z : BitVec 7) (s : State) : Outcome :=
  s.alu32 c (.shift .asr) rd rs1 rs2 sets z
def execRor (c : CoreId) (rd rs1 rs2 : Fin 16) (sets : Bool) (z : BitVec 7) (s : State) : Outcome :=
  s.alu32 c (.shift .ror) rd rs1 rs2 sets z
def execAdc (c : CoreId) (rd rs1 rs2 : Fin 16) (sets : Bool) (z : BitVec 7) (s : State) : Outcome :=
  s.alu32 c .adc rd rs1 rs2 sets z
def execSbc (c : CoreId) (rd rs1 rs2 : Fin 16) (sets : Bool) (z : BitVec 7) (s : State) : Outcome :=
  s.alu32 c .sbc rd rs1 rs2 sets z
def execMin (c : CoreId) (rd rs1 rs2 : Fin 16) (sets : Bool) (z : BitVec 7) (s : State) : Outcome :=
  s.alu32 c .min rd rs1 rs2 sets z
def execMax (c : CoreId) (rd rs1 rs2 : Fin 16) (sets : Bool) (z : BitVec 7) (s : State) : Outcome :=
  s.alu32 c .max rd rs1 rs2 sets z
def execMinu (c : CoreId) (rd rs1 rs2 : Fin 16) (sets : Bool) (z : BitVec 7) (s : State) : Outcome :=
  s.alu32 c .minu rd rs1 rs2 sets z
def execMaxu (c : CoreId) (rd rs1 rs2 : Fin 16) (sets : Bool) (z : BitVec 7) (s : State) : Outcome :=
  s.alu32 c .maxu rd rs1 rs2 sets z

def execMul (c : CoreId) (rd rs1 rs2 : Fin 16) (z : BitVec 8) (s : State) : Outcome := s.muldiv c rd rs1 rs2 z fun a b _ => a * b
def execMulhs (c : CoreId) (rd rs1 rs2 : Fin 16) (z : BitVec 8) (s : State) : Outcome :=
  s.muldiv c rd rs1 rs2 z fun a b _ => mulHighS a b
def execMulhu (c : CoreId) (rd rs1 rs2 : Fin 16) (z : BitVec 8) (s : State) : Outcome :=
  s.muldiv c rd rs1 rs2 z fun a b _ => mulHighU a b
def execDivs (c : CoreId) (rd rs1 rs2 : Fin 16) (z : BitVec 8) (s : State) : Outcome :=
  s.muldiv c rd rs1 rs2 z fun a b _ => quotS a b
def execDivu (c : CoreId) (rd rs1 rs2 : Fin 16) (z : BitVec 8) (s : State) : Outcome :=
  s.muldiv c rd rs1 rs2 z fun a b _ => quotU a b
def execRems (c : CoreId) (rd rs1 rs2 : Fin 16) (z : BitVec 8) (s : State) : Outcome :=
  s.muldiv c rd rs1 rs2 z fun a b _ => remS a b
def execRemu (c : CoreId) (rd rs1 rs2 : Fin 16) (z : BitVec 8) (s : State) : Outcome :=
  s.muldiv c rd rs1 rs2 z fun a b _ => remU a b
/-- MAC adds to the old rd. -/
def execMac (c : CoreId) (rd rs1 rs2 : Fin 16) (z : BitVec 8) (s : State) : Outcome :=
  s.muldiv c rd rs1 rs2 z fun a b old => old + a * b

/-! ### Immediate forms (R372, R375, R382) -/

def execAddi (c : CoreId) (rd rs1 : Fin 16) (imm : Half) (s : State) : Outcome :=
  s.instr c 4 fun _ x => x.put rd (x.gr rs1 + sx imm)
def execAndi (c : CoreId) (rd rs1 : Fin 16) (imm : Half) (s : State) : Outcome :=
  s.instr c 4 fun _ x => x.put rd (x.gr rs1 &&& zx imm)
def execOri (c : CoreId) (rd rs1 : Fin 16) (imm : Half) (s : State) : Outcome :=
  s.instr c 4 fun _ x => x.put rd (x.gr rs1 ||| zx imm)
def execXori (c : CoreId) (rd rs1 : Fin 16) (imm : Half) (s : State) : Outcome :=
  s.instr c 4 fun _ x => x.put rd (x.gr rs1 ^^^ zx imm)
def execMovhi (c : CoreId) (rd : Fin 16) (z : BitVec 4) (imm : Half) (s : State) : Outcome :=
  s.instr c 4 fun _ x => needZero z (x.put rd (zx imm <<< 16))
def execCmpi (c : CoreId) (rs1 : Fin 16) (z : BitVec 4) (imm : Half) (s : State) : Outcome :=
  s.instr c 4 fun _ x => needZero z (x.aluFlags .sub (x.gr rs1) (sx imm))

/-- SHI: shift in [4:0], type in [6:5], S in [7] (R372, R375). -/
def execShi (c : CoreId) (rd rs1 : Fin 16) (imm : Half) (s : State) : Outcome :=
  s.instr c 4 fun _ x =>
    let i := imm.toNat
    if bits i 8 8 != 0 then .illegal else
    let v := (shiftKind (bits i 5 2)).run (x.gr rs1) (bits i 0 5)
    .ret { wr := [(rd, v.r)], psr := if bit i 7 then v.flags x.psr else x.psr }

def execBfx (c : CoreId) (rd rs1 : Fin 16) (imm : Half) (s : State) : Outcome :=
  s.instr c 4 fun _ x =>
    match fieldSel imm with
    | some f => x.put rd (f.extract (x.gr rs1))
    | none => .illegal

/-- BFI needs SG to be 0 (R382). -/
def execBfi (c : CoreId) (rd rs1 : Fin 16) (imm : Half) (s : State) : Outcome :=
  s.instr c 4 fun _ x =>
    match fieldSel imm with
    | some f => if f.sg then .illegal else x.put rd (f.insert (x.gr rd) (x.gr rs1))
    | none => .illegal

/-! ### BITOP and PERM (R383, R384) -/

def execClz (c : CoreId) (rd rs1 : Fin 16) (z : BitVec 12) (s : State) : Outcome := s.bitop c rd rs1 z clz
def execCls (c : CoreId) (rd rs1 : Fin 16) (z : BitVec 12) (s : State) : Outcome := s.bitop c rd rs1 z cls
def execCtz (c : CoreId) (rd rs1 : Fin 16) (z : BitVec 12) (s : State) : Outcome := s.bitop c rd rs1 z ctz
def execPopc (c : CoreId) (rd rs1 : Fin 16) (z : BitVec 12) (s : State) : Outcome := s.bitop c rd rs1 z popc
def execRev (c : CoreId) (rd rs1 : Fin 16) (z : BitVec 12) (s : State) : Outcome := s.bitop c rd rs1 z revBytes
def execRevh (c : CoreId) (rd rs1 : Fin 16) (z : BitVec 12) (s : State) : Outcome := s.bitop c rd rs1 z revHalves
def execRbit (c : CoreId) (rd rs1 : Fin 16) (z : BitVec 12) (s : State) : Outcome := s.bitop c rd rs1 z rbit
/-- PERMR takes its selectors from the old rd. -/
def execPermr (c : CoreId) (rd rs1 rs2 : Fin 16) (z : BitVec 8) (s : State) : Outcome :=
  s.muldiv c rd rs1 rs2 z permNibbles
def execPerm (c : CoreId) (rd rs1 rs2 : Fin 16) (func : BitVec 12) (s : State) : Outcome :=
  s.instr c 4 fun _ x => x.put rd (permBytes (x.gr rs1) (x.gr rs2) func.toNat)
def execAdr (c : CoreId) (rd : Fin 16) (z : BitVec 4) (imm : Half) (s : State) : Outcome :=
  s.instr c 4 fun _ x => needZero z (x.put rd (x.pc + sx imm))

end Sys2Proof.Machine
end

