-- ==== Sys2Proof/Machine/CoreFlow.lean ====
section
/-! DEFINITION. The control transfers, hardware loops and system instructions of the core (R366, R367, R370-R373,
R379-R381, R389-R392). -/
namespace Sys2Proof.Machine

/-! ### Transfers (R370-R373) -/

/-- A taken transfer that writes `wr`. -/
def CoreSt.go (x : CoreSt) (t : Word) (wr : List (Nat × Word)) : Act := .ret { wr := wr, psr := x.psr, dest := some t }

/-- A conditional branch; condition 0xF is ILLEGAL (R369, R373). -/
def CoreSt.branch {w : Nat} (x : CoreSt) (cond : Nat) (off : BitVec w) : Act :=
  match condHolds x.psr cond with
  | none => .illegal
  | some true => x.go (relTarget x.pc off) []
  | some false => .ret { psr := x.psr }

/-- An indirect transfer: an odd target gives ALIGN at this instruction (R371). -/
def CoreSt.jump (x : CoreSt) (t : Word) (wr : List (Nat × Word)) : Act :=
  if t.getLsbD 0 then .exc slotAlign 0 t.toNat else x.go t wr

def execBcc16 (c : CoreId) (cond : Fin 16) (off : BitVec 7) (s : State) : Outcome := s.instr c 2 fun _ x => x.branch cond off
def execBcc (c : CoreId) (cond : Fin 16) (off : BitVec 20) (s : State) : Outcome := s.instr c 4 fun _ x => x.branch cond off
def execBr16 (c : CoreId) (off : BitVec 11) (s : State) : Outcome := s.instr c 2 fun _ x => x.go (relTarget x.pc off) []
def execBr (c : CoreId) (off : BitVec 24) (s : State) : Outcome := s.instr c 4 fun _ x => x.go (relTarget x.pc off) []
def execCall16 (c : CoreId) (off : BitVec 11) (s : State) : Outcome :=
  s.instr c 2 fun _ x => x.go (relTarget x.pc off) [(14, x.pc + 2)]
def execCall (c : CoreId) (off : BitVec 24) (s : State) : Outcome :=
  s.instr c 4 fun _ x => x.go (relTarget x.pc off) [(14, x.pc + 4)]
def execJr (c : CoreId) (rs : Fin 16) (z : BitVec 4) (s : State) : Outcome :=
  s.instr c 2 fun _ x => needZero z (x.jump (x.gr rs) [])
def execCallr (c : CoreId) (rs : Fin 16) (z : BitVec 4) (s : State) : Outcome :=
  s.instr c 2 fun _ x => needZero z (x.jump (x.gr rs) [(14, x.pc + 2)])
def execRet (c : CoreId) (z : BitVec 8) (s : State) : Outcome := s.instr c 2 fun _ x => needZero z (x.jump (x.gr 14) [])

/-! ### Hardware loops (R379, R381, R392) -/

/-- ATOMIC inside an open window: the instruction is not allowed there (R390, R407). -/
def CoreSt.outside (x : CoreSt) (a : Act) : Act := if x.aw then .exc slotAtomic (1 * 2 ^ 28) 0 else a

/-- The numbers of LS, LE and LC of loop `l` (R366). -/
def lsNum (l : Nat) : Nat := 0x08 + 4 * l
def leNum (l : Nat) : Nat := 0x09 + 4 * l
def lcNum (l : Nat) : Nat := 0x0A + 4 * l

/-- LP (R379): loop 3 and the fields that must be 0 are ILLEGAL, then the nesting checks; a count of 0 skips the body. -/
def CoreSt.lp (x : CoreSt) (l : Nat) (r : Bool) (cnt : BitVec 9) (endoff : BitVec 12) : Act :=
  let ls := x.pc + 4
  let le := ls + 2#32 * zx endoff
  let count := if r then x.gr (bits cnt.toNat 0 4) else zx cnt
  let inner := (List.range 3).any fun m => decide (l < m) && x.lc.getD m 0 != 0
  let outer := l > 0 && x.lc.getD (l - 1) 0 != 0 && (x.le.getD (l - 1) 0).ult le
  if l = 3 || (r && bits cnt.toNat 4 5 != 0) || inner || outer then .illegal
  else x.outside <|
    let w : Ret := { psr := x.psr, sp := [(lsNum l, ls), (leNum l, le), (lcNum l, count)] }
    if count = 0 then .skip le w else .ret w

def execLp (c : CoreId) (l : Fin 4) (r : Bool) (cnt : BitVec 9) (endoff : BitVec 12) (s : State) : Outcome :=
  s.instr c 4 fun _ x => x.lp l r cnt endoff

/-- LPCLR: LC_l := 0 for each l of the mask (R392). -/
def execLpclr (c : CoreId) (imm : BitVec 7) (s : State) : Outcome :=
  s.instr c 2 fun _ x =>
    if bits imm.toNat 3 4 != 0 then .illegal
    else x.outside (.ret { psr := x.psr, sp := ((List.range 3).filter fun l => bit imm.toNat l).map fun l => (lcNum l, 0) })

/-! ### Special registers (R365-R367) -/

/-- CORE_ID as core `c` reads it (R366, R420). -/
def Dev.coreId (d : Dev) (c : CoreId) : Word := if d.lockstep then 0x10 else if d.lead c == .a then 0 else 1

/-- What MFS of register `k` asks for; none for an unlisted number (R366). -/
def Dev.mfs (d : Dev) (c : CoreId) (x : CoreSt) (rd k : Nat) : Option Act :=
  match k with
  | 0x00 => some (x.put rd x.psr)
  | 0x01 => some (if x.sup then x.put rd x.tsbp else .exc slotPriv 0 0)
  | 0x02 => some (x.put rd x.atomMax)
  | 0x08 => some (x.put rd (x.ls.getD 0 0))
  | 0x09 => some (x.put rd (x.le.getD 0 0))
  | 0x0A => some (x.put rd (x.lc.getD 0 0))
  | 0x0C => some (x.put rd (x.ls.getD 1 0))
  | 0x0D => some (x.put rd (x.le.getD 1 0))
  | 0x0E => some (x.put rd (x.lc.getD 1 0))
  | 0x10 => some (x.put rd (x.ls.getD 2 0))
  | 0x11 => some (x.put rd (x.le.getD 2 0))
  | 0x12 => some (x.put rd (x.lc.getD 2 0))
  | 0x18 => some (.cycle false rd x.psr 0)
  | 0x19 => some (.cycle true rd x.psr x.cycHi)
  | 0x1A => some (x.put rd x.instret)
  | 0x20 => some (x.put rd (d.coreId c))
  | _ => none

def execMfs (c : CoreId) (rd : Fin 16) (z : BitVec 4) (imm : Half) (s : State) : Outcome :=
  s.instr c 4 fun d x => needZero z ((d.mfs c x rd imm.toNat).getD .illegal)

/-- The bits of PSR that MTS writes: N, Z, C and V, and in supervisor state IE and IPL (R365). -/
def psrMask (sup : Bool) : Word := if sup then 0xF000001E else 0xF0000000

/-- What MTS of register `k` asks for; none for an unlisted number (R366, R367). A supervisor write of a register that is
RO has no effect (R13). -/
def CoreSt.mts (x : CoreSt) (k : Nat) (v : Word) : Option Act :=
  let only := fun (a : Act) => if x.sup then a else .exc slotPriv 0 0
  match k with
  | 0x00 => some (.ret { psr := (x.psr &&& ~~~psrMask x.sup) ||| (v &&& psrMask x.sup) })
  | 0x01 => some (only (.ret { psr := x.psr, sp := [(0x01, v)] }))
  | 0x02 => some (only (.ret { psr := x.psr, sp := [(0x02, v)] }))
  | 0x18 => some (only (.ret { psr := x.psr }))
  | 0x19 => some (only (.ret { psr := x.psr }))
  | 0x1A => some (only (.ret { psr := x.psr }))
  | 0x20 => some (only (.ret { psr := x.psr }))
  | k =>
    if [0x08, 0x09, 0x0A, 0x0C, 0x0D, 0x0E, 0x10, 0x11, 0x12].contains k then some (.ret { psr := x.psr, sp := [(k, v)] })
    else none

def execMts (c : CoreId) (rs1 : Fin 16) (z : BitVec 4) (imm : Half) (s : State) : Outcome :=
  s.instr c 4 fun _ x => needZero z ((x.mts imm.toNat (x.gr rs1)).getD .illegal)

/-! ### System instructions (R389, R390, R392) -/

/-- A supervisor instruction (R367, R392). -/
def CoreSt.priv (x : CoreSt) (a : Act) : Act := if x.sup then a else .exc slotPriv 0 0

def execNop (c : CoreId) (imm : BitVec 7) (s : State) : Outcome := s.instr c 2 fun _ x => needZero imm (.ret { psr := x.psr })

/-- SYNC: every store of this model has reached its place when its instruction retires. -/
def execSync (c : CoreId) (imm : BitVec 7) (s : State) : Outcome := s.instr c 2 fun _ x => needZero imm (.ret { psr := x.psr })

def execSvc (c : CoreId) (imm : BitVec 7) (s : State) : Outcome :=
  s.instr c 2 fun _ x => .trap slotSvc (imm.toNat * 2 ^ 16) { psr := x.psr }
def execBrk (c : CoreId) (imm : BitVec 7) (s : State) : Outcome := s.instr c 2 fun _ x => .brk imm.toNat { psr := x.psr }
def execWfe (c : CoreId) (imm : BitVec 7) (s : State) : Outcome :=
  s.instr c 2 fun _ x => needZero imm (x.priv (x.outside (.wait { psr := x.psr })))

/-- PSR with a window of `n` instructions open, or with none (R389). -/
def psrWindow (p : Word) (n : Nat) : Word := psrPut (psrPut p 5 1 (b2n (n != 0))) 6 6 n

/-- ATOM (R389, R390): n of 0 or above 32 is ILLEGAL; in user state n above ATOM_MAX is ATOMIC. -/
def execAtom (c : CoreId) (imm : BitVec 7) (s : State) : Outcome :=
  s.instr c 2 fun d x =>
    let n := imm.toNat
    if n = 0 || n > 32 then .exc slotIllegal (4 * 2 ^ 28) 0
    else x.outside (if !x.sup && n > x.atomMax.toNat then .exc slotAtomic (2 * 2 ^ 28) 0
      else .ret { psr := psrWindow x.psr n, opens := some d.cycle })

/-- ATEND closes an open window; outside one it acts as NOP (R389). -/
def execAtend (c : CoreId) (imm : BitVec 7) (s : State) : Outcome :=
  s.instr c 2 fun _ x => needZero imm (.ret { psr := psrWindow x.psr 0 })

def execEret (c : CoreId) (imm : BitVec 7) (s : State) : Outcome :=
  s.instr c 2 fun _ x => needZero imm (x.priv (x.outside (.eret x.tsbp x.psr)))

end Sys2Proof.Machine
end

