-- ==== Sys2Proof/Machine/CoreMem.lean ====
section
/-! DEFINITION. The loads, stores and block instructions of the core (R370-R372, R377, R378, R385-R388). -/
namespace Sys2Proof.Machine

/-! ### Shared forms (R377) -/

/-- rd := the `size` bytes at `a`. -/
def CoreSt.ld (x : CoreSt) (rd : Nat) (a : Word) (size : Nat) (signed : Bool) : Act :=
  .load a.toNat size signed rd { psr := x.psr }

/-- The `size` bytes at `a` := rd. -/
def CoreSt.st (x : CoreSt) (rd : Nat) (a : Word) (size : Nat) : Act := .store a.toNat size (x.gr rd).toNat { psr := x.psr }

/-- A 16-bit load or store at g[rs] + size × u3 (R370). -/
def CoreSt.at16 (x : CoreSt) (rs : Nat) (size : Nat) (u : Fin 8) : Word := x.gr rs + BitVec.ofNat 32 (size * u)

/-- A 32-bit load at rs1 + sext(imm16) (R372). -/
def State.ld32 (s : State) (c : CoreId) (rd rs1 : Fin 16) (imm : Half) (size : Nat) (signed : Bool) : Outcome :=
  s.instr c 4 fun _ x => x.ld rd (x.gr rs1 + sx imm) size signed

/-- A 32-bit store at rs1 + sext(imm16) (R372). -/
def State.st32 (s : State) (c : CoreId) (rd rs1 : Fin 16) (imm : Half) (size : Nat) : Outcome :=
  s.instr c 4 fun _ x => x.st rd (x.gr rs1 + sx imm) size

/-! ### 16-bit loads and stores (R370, R371) -/

def execLdw16 (c : CoreId) (rd rs : Fin 16) (u : Fin 8) (s : State) : Outcome :=
  s.instr c 2 fun _ x => x.ld rd (x.at16 rs 4 u) 4 false
def execStw16 (c : CoreId) (rd rs : Fin 16) (u : Fin 8) (s : State) : Outcome :=
  s.instr c 2 fun _ x => x.st rd (x.at16 rs 4 u) 4
def execLdhu16 (c : CoreId) (rd rs : Fin 16) (u : Fin 8) (s : State) : Outcome :=
  s.instr c 2 fun _ x => x.ld rd (x.at16 rs 2 u) 2 false
def execSth16 (c : CoreId) (rd rs : Fin 16) (u : Fin 8) (s : State) : Outcome :=
  s.instr c 2 fun _ x => x.st rd (x.at16 rs 2 u) 2
def execLdbu16 (c : CoreId) (rd rs : Fin 16) (u : Fin 8) (s : State) : Outcome :=
  s.instr c 2 fun _ x => x.ld rd (x.at16 rs 1 u) 1 false
def execStb16 (c : CoreId) (rd rs : Fin 16) (u : Fin 8) (s : State) : Outcome :=
  s.instr c 2 fun _ x => x.st rd (x.at16 rs 1 u) 1
def execLdwsp (c : CoreId) (rd : Fin 16) (u : Fin 128) (s : State) : Outcome :=
  s.instr c 2 fun _ x => x.ld rd (x.gr 15 + BitVec.ofNat 32 (4 * u)) 4 false
def execStwsp (c : CoreId) (rd : Fin 16) (u : Fin 128) (s : State) : Outcome :=
  s.instr c 2 fun _ x => x.st rd (x.gr 15 + BitVec.ofNat 32 (4 * u)) 4

/-- PUSH: one that faults leaves g15 as it was (R371). -/
def execPush (c : CoreId) (rd : Fin 16) (z : BitVec 4) (s : State) : Outcome :=
  s.instr c 2 fun _ x =>
    let sp := x.gr 15 - 4
    needZero z (.store sp.toNat 4 (x.gr rd).toNat { wr := [(15, sp)], psr := x.psr })

/-- POP: with rd = g15 it is ILLEGAL (R371). -/
def execPop (c : CoreId) (rd : Fin 16) (z : BitVec 4) (s : State) : Outcome :=
  s.instr c 2 fun _ x =>
    if rd = 15 then .illegal
    else needZero z (.load (x.gr 15).toNat 4 false rd { wr := [(15, x.gr 15 + 4)], psr := x.psr })

/-! ### 32-bit loads and stores (R372) -/

def execLdw (c : CoreId) (rd rs1 : Fin 16) (imm : Half) (s : State) : Outcome := s.ld32 c rd rs1 imm 4 false
def execLdh (c : CoreId) (rd rs1 : Fin 16) (imm : Half) (s : State) : Outcome := s.ld32 c rd rs1 imm 2 true
def execLdhu (c : CoreId) (rd rs1 : Fin 16) (imm : Half) (s : State) : Outcome := s.ld32 c rd rs1 imm 2 false
def execLdb (c : CoreId) (rd rs1 : Fin 16) (imm : Half) (s : State) : Outcome := s.ld32 c rd rs1 imm 1 true
def execLdbu (c : CoreId) (rd rs1 : Fin 16) (imm : Half) (s : State) : Outcome := s.ld32 c rd rs1 imm 1 false
def execStw (c : CoreId) (rd rs1 : Fin 16) (imm : Half) (s : State) : Outcome := s.st32 c rd rs1 imm 4
def execSth (c : CoreId) (rd rs1 : Fin 16) (imm : Half) (s : State) : Outcome := s.st32 c rd rs1 imm 2
def execStb (c : CoreId) (rd rs1 : Fin 16) (imm : Half) (s : State) : Outcome := s.st32 c rd rs1 imm 1

/-- XMEM's access (R378): the write-back of MODE 1 and 2 happens when the access completes; a store with rd = rs1 stores
the value from before it. -/
def CoreSt.xmem (x : CoreSt) (rd rs1 rs2 : Fin 16) (f : XForm) : Act :=
  let sum := x.gr rs1 + x.gr rs2 <<< f.scale
  let ea := if f.mode = 1 then x.gr rs1 else sum
  let r : Ret := { wr := if f.mode = 0 then [] else [(rs1.val, sum)], psr := x.psr }
  if f.st then .store ea.toNat f.size (x.gr rd).toNat r
  else if f.mode != 0 && rd == rs1 then .illegal
  else .load ea.toNat f.size f.signed rd r

def execXmem (c : CoreId) (rd rs1 rs2 : Fin 16) (func : BitVec 12) (s : State) : Outcome :=
  s.instr c 4 fun _ x =>
    match xform func with
    | some f => x.xmem rd rs1 rs2 f
    | none => .illegal

/-! ### Block instructions (R385, R390) -/

/-- A block instruction: three different registers; not inside a window. -/
def State.blockIns (s : State) (c : CoreId) (op : BlockOp) (rd rs1 rs2 : Fin 16) (z : BitVec 8) : Outcome :=
  s.instr c 4 fun _ x =>
    if rd == rs1 || rd == rs2 || rs1 == rs2 then .illegal
    else needZero z (if x.aw then .exc slotAtomic (1 * 2 ^ 28) 0
      else .block op rd rs1 rs2 (x.gr rd) (x.gr rs1) (x.gr rs2) x.psr)

def execBcopy (c : CoreId) (rd rs1 rs2 : Fin 16) (z : BitVec 8) (s : State) : Outcome := s.blockIns c .copy rd rs1 rs2 z
def execBmove (c : CoreId) (rd rs1 rs2 : Fin 16) (z : BitVec 8) (s : State) : Outcome := s.blockIns c .move rd rs1 rs2 z
def execBfill (c : CoreId) (rd rs1 rs2 : Fin 16) (z : BitVec 8) (s : State) : Outcome := s.blockIns c .fill rd rs1 rs2 z
def execBcmp (c : CoreId) (rd rs1 rs2 : Fin 16) (z : BitVec 8) (s : State) : Outcome := s.blockIns c .cmp rd rs1 rs2 z

end Sys2Proof.Machine
end

