-- ==== Sys2Proof/Machine/Dma.lean ====
section
/-! DEFINITION. The DMA controller (R457-R464): DMA_DESCRIPTOR runs a channel until its descriptor ends, its burst is used
up or an access must wait. -/
namespace Sys2Proof.Machine

/-! ### The descriptor (R457-R459) -/

/-- A descriptor as fetched. -/
structure Desc where
  src : Nat
  dst : Nat
  len : Nat
  ctl : Nat
  next : Nat
  crc : Nat
  deriving DecidableEq, Repr

/-- The words of a descriptor. -/
def descOf (l : List Nat) : Desc :=
  ⟨l.getD 0 0, l.getD 1 0, l.getD 2 0 % 2 ^ 24, l.getD 3 0, l.getD 4 0, l.getD 5 0⟩

def Desc.sfix (x : Desc) : Bool := bit x.ctl 0
def Desc.dfix (x : Desc) : Bool := bit x.ctl 1
def Desc.crcKind (x : Desc) : Nat := bits x.ctl 2 2
def Desc.seeded (x : Desc) : Bool := bit x.ctl 4
def Desc.appends (x : Desc) : Bool := bit x.ctl 5 && x.crcKind != 0
def Desc.ie (x : Desc) : Bool := bit x.ctl 6
def Desc.isLast (x : Desc) : Bool := bit x.ctl 7
def Desc.trig (x : Desc) : Nat := bits x.ctl 9 7
def Desc.trigEn (x : Desc) : Bool := bit x.ctl 16

/-- The address lies in a region with narrow access; a hole counts as one, since its accesses end in UNMAPPED. -/
def narrowAt (a : Nat) : Bool :=
  match regionOf a with
  | some r => r.narrow
  | none => true

/-- A side that must be word-aligned. -/
def wordSide (a len : Nat) : Bool := a % 4 == 0 && len % 4 == 0

/-- The syndrome of the checks of step 2 (R459): 10 DESC, then 2 SIZE with its side; none when all pass. -/
def Desc.bad (x : Desc) : Option (Nat × Bool) :=
  if (x.ctl &&& 0xFFFE0100) != 0 || x.crcKind == 3 then some (10, false)
  else if (x.sfix && !wordSide x.src x.len) || (x.dfix && !wordSide x.dst x.len) then some (10, false)
  else if x.appends && x.dfix && x.crcKind == 2 then some (10, false)
  else if !x.sfix && !x.dfix && decide (x.src < x.dst) && decide (x.dst < x.src + x.len) then some (10, false)
  else if !narrowAt x.src && !wordSide x.src x.len then some (2, false)
  else if !narrowAt x.dst && !wordSide x.dst x.len then some (2, true)
  else none

/-! ### The funnel (R460) -/

/-- The size of the next access on a side: words on a fixed side or without narrow access. -/
def sideSize (words : Bool) (a n : Nat) : Nat :=
  if words then 4
  else if a % 2 = 1 || n = 1 then 1
  else if a % 4 = 2 || n < 4 then 2
  else 4

/-- How a transfer ended: complete, a bus error (syndrome, side, address), a wait, or the end of the burst. -/
inductive MoveEnd where
  | done
  | err (k : Nat) (dst : Bool) (a : Nat)
  | wait
  | pause
  deriving DecidableEq, Repr

/-- The little-endian bytes of an access. -/
def wordBytes (v size : Nat) : List Nat := (List.range size).map fun i => bits v (8 * i) 8

/-- The accesses of a transfer: a destination access goes first when the funnel holds its bytes, a source access when it
has room (R460); it pauses where `top` bytes written would be passed (R464). -/
def State.dmaMove (x : Desc) (top : Nat) : Nat → State → Move → State × Move × MoveEnd
  | 0, s, t => (s, t, .done)
  | fuel + 1, s, t =>
    let ds := sideSize (x.dfix || !narrowAt x.dst) t.da t.dn
    let ss := sideSize (x.sfix || !narrowAt x.src) t.sa t.sn
    if t.dn > 0 && t.moved.length + ds > top then (s, t, .pause)
    else if t.dn > 0 && t.funnel.length ≥ ds then
      match s.busWrite .dma t.da ds (leNat (t.funnel.take ds)) with
      | (s, .ok _) =>
        State.dmaMove x top fuel s
          { t with da := if x.dfix then t.da else t.da + ds, dn := t.dn - ds, funnel := t.funnel.drop ds
                   moved := (t.funnel.take ds).reverse ++ t.moved }
      | (s, .err k) => (s, t, .err k true t.da)
      | (s, .wait) => (s, t, .wait)
    else if t.sn > 0 && t.funnel.length + ss ≤ 8 then
      match s.busRead .dma t.sa ss with
      | (s, .ok v) =>
        State.dmaMove x top fuel s
          { t with sa := if x.sfix then t.sa else t.sa + ss, sn := t.sn - ss, funnel := t.funnel ++ wordBytes v ss }
      | (s, .err k) => (s, t, .err k false t.sa)
      | (s, .wait) => (s, t, .wait)
    else (s, t, .done)

/-- Write bytes at an incrementing destination, by the access rule. -/
def State.dmaAppend (words : Bool) : Nat → State → Nat → List Nat → State × MoveEnd
  | 0, s, _, _ => (s, .done)
  | _, s, _, [] => (s, .done)
  | fuel + 1, s, a, l =>
    let k := if words && l.length ≥ 4 then 4 else sideSize false a l.length
    match s.busWrite .dma a k (leNat (l.take k)) with
    | (s, .ok _) => State.dmaAppend words fuel s (a + k) (l.drop k)
    | (s, .err e) => (s, .err e true a)
    | (s, .wait) => (s, .wait)

/-! ### The CRC (R461) -/

/-- The CRC of the moved bytes. -/
def Desc.result (x : Desc) (l : List Nat) : Nat :=
  if x.crcKind = 1 then crc32cStep (if x.seeded then x.crc ^^^ 0xFFFFFFFF else 0xFFFFFFFF) l ^^^ 0xFFFFFFFF
  else crcMsb 16 0x1021 (if x.seeded then x.crc % 2 ^ 16 else 0xFFFF) (l.flatMap (msbBits 8))

/-! ### One descriptor (R459, R462) -/

/-- Fetch `k` more words from `a`: the words, or the failing address; none on a wait. -/
def State.dmaFetch : Nat → State → Nat → List Nat → State × Option (List Nat × Option Nat)
  | 0, s, _, l => (s, some (l, none))
  | k + 1, s, a, l =>
    match s.busRead .dma a 4 with
    | (s, .ok v) => State.dmaFetch k s (a + 4) (l ++ [v])
    | (s, .err _) => (s, some (l, some a))
    | (s, .wait) => (s, none)

/-- The channel goes on at NEXT, or becomes IDLE with END (R459). -/
def Dev.dmaNext (d : Dev) (n : Nat) (x : Desc) : Dev :=
  let d := d.dmaHold n [] {}
  if x.isLast then (d.dmaIdle n).raise CHn_FLAGS_END n
  else (d.setF CHn_STAT_STATE n 1).setR CHn_CUR n (x.next - x.next % 32)

/-- Write STATUS `v`, then `k`; an error stops the channel, a wait undoes the command (R462). -/
def State.dmaPut (s0 : State) (n : Nat) (s : State) (v : Nat) (k : State → State) : State :=
  let a := s.dev.r CHn_CUR n + 0x18
  match s.busWrite .dma a 4 v with
  | (s, .ok _) => k s
  | (s, .err _) => { s with dev := s.dev.dmaError n a }
  | (_, .wait) => s0

/-- A bad descriptor: BAD, BADCNT, ERRADDR, STATUS; the channel goes on (R462). -/
def State.dmaBad (s0 : State) (n : Nat) (x : Desc) (s : State) (bytes synd : Nat) (dst : Bool) (a : Nat) : State :=
  let st := bytes + synd * 2 ^ 24 + b2n dst * 2 ^ 28 + 2 ^ 30
  let d := (s.dev.raise CHn_FLAGS_BAD n).setR CHn_BADCNT n (satAdd 16 (s.dev.r CHn_BADCNT n) 1)
  State.dmaPut s0 n { s with dev := d.setR CHn_ERRADDR n a } st fun s => { s with dev := s.dev.dmaNext n x }

/-- A complete descriptor: the CRC word, whose bus error makes it bad, STATUS, DONE, the next (R459, R462). -/
def State.dmaDone (s0 : State) (n : Nat) (x : Desc) (s : State) (bytes crc : Nat) : State :=
  let fin := fun (s : State) => State.dmaPut s0 n s (bytes + 2 ^ 31) fun s =>
    let d := (s.dev.raiseIf x.ie CHn_FLAGS_DONE n).inc CHn_STAT_DESCS n
    { s with dev := d.dmaNext n x }
  if x.crcKind = 0 then fin s else
  let a := s.dev.r CHn_CUR n + 0x14
  match s.busWrite .dma a 4 crc with
  | (s, .ok _) => fin s
  | (s, .err k) => State.dmaBad s0 n x s bytes k true a
  | (_, .wait) => s0

/-- The bytes of a burst (R464, R468): values below 8 act as 8. -/
def Dev.dmaBurst (d : Dev) : Nat := max 8 (d.f DMA_XARB_BURST)

/-- The transfer of a checked and triggered descriptor with words `l` goes on from `t0` (R459-R462), for at most a burst
(R464), whose bytes are those written to the destination (DESIGN CHOICE, log 27). Where it pauses, or an access must wait, the
channel holds what is left to do. -/
def State.dmaRun (s0 : State) (n : Nat) (l : List Nat) (t0 : Move) (s : State) : State :=
  let x := descOf l
  let s := { s with dev := s.dev.setF CHn_STAT_STATE n 3 }
  match State.dmaMove x (t0.moved.length + s.dev.dmaBurst) (2 * x.len + 2) s t0 with
  | (s, t, .wait) => { s with dev := s.dev.dmaHold n l t }
  | (s, t, .pause) => { s with dev := s.dev.dmaHold n l t }
  | (s, t, .err k dst a) => State.dmaBad s0 n x s t.moved.length k dst a
  | (s, t, .done) =>
    let crc := x.result t.moved.reverse
    if !x.appends then State.dmaDone s0 n x s x.len crc else
    match State.dmaAppend (x.dfix || !narrowAt x.dst) 5 s t.da (wordBytes crc (if x.crcKind = 1 then 4 else 2)) with
    | (_, .wait) | (_, .pause) => s0
    | (s, .err k dst a) => State.dmaBad s0 n x s x.len k dst a
    | (s, .done) => State.dmaDone s0 n x s x.len crc

/-- Steps 2 and 3 of R459 on the fetched words: a bad descriptor moves nothing; with TRIGEN the channel waits for its
event in WAIT. -/
def State.dmaGo (s0 : State) (n : Nat) (l : List Nat) (s : State) : State :=
  let x := descOf l
  match x.bad with
  | some (k, dst) => State.dmaBad s0 n x s 0 k dst (if k = 10 then s.dev.r CHn_CUR n else if dst then x.dst else x.src)
  | none =>
    if x.trigEn && !s.dev.eventRaised x.trig then
      { s with dev := (s.dev.setF CHn_STAT_STATE n 2).dmaHold n l {} }
    else State.dmaRun s0 n l { sa := x.src, sn := x.len, da := x.dst, dn := x.len } s

/-- Channel `n` is ready: in FETCH, in WAIT with its event raised, or in MOVE (R459, R464). -/
def Dev.dmaReady (d : Dev) (n : Nat) : Bool :=
  let st := d.f CHn_STAT_STATE n
  st == 1 || st == 3 || (st == 2 && d.eventRaised (descOf (d.dma.getD n {}).desc).trig)

/-- How far channel `n` stands behind the channel served last in the rotation: 0 for the one after it. Before the first
service the rotation begins with channel 0 (DESIGN CHOICE, log 27). -/
def Dev.dmaTurn (d : Dev) (n : Nat) : Nat :=
  match (List.range 16).find? fun k => (d.dma.getD k {}).last with
  | some k => (n + 15 - k) % 16
  | none => n

/-- A ready channel is served before channel `n` (R464): one of higher PRIO, or of equal PRIO and earlier in the rotation. -/
def Dev.dmaBehind (d : Dev) (n : Nat) : Bool :=
  (List.range 16).any fun k => k != n && d.dmaReady k &&
    (if d.b CHn_CTRL_PRIO k = d.b CHn_CTRL_PRIO n then decide (d.dmaTurn k < d.dmaTurn n) else d.b CHn_CTRL_PRIO k)

/-- Channel `n` is the one served last. -/
def Dev.dmaServed (d : Dev) (n : Nat) : Dev :=
  { d with dma := .ofFn fun k => { d.dma.getD k {} with last := k == n } }

/-- DMA_DESCRIPTOR (R459-R464): a channel in FETCH fetches its descriptor and runs it, one in WAIT runs it once its event is
raised, one in MOVE goes on, and one whose abort waits in WRITEBACK writes its STATUS. It ends with the descriptor, with the
burst, or with an access that must wait (R391, R442), after which it may be sent again; while a ready channel is served before
this one it has no effect. -/
def execDmaDescriptor (n : Fin 16) (s : State) : Outcome := s.live fun s =>
  if s.dev.dmaBehind n || s.dev.f CHn_STAT_STATE n = 0 || s.dev.f CHn_STAT_STATE n ≥ 5 then s else
  let s := { s with dev := s.dev.dmaServed n }
  match s.dev.f CHn_STAT_STATE n with
  | 1 =>
    let a := s.dev.r CHn_CUR n
    match State.dmaFetch 8 s a [] with
    | (_, none) => s
    | (t, some (_, some bad)) => { t with dev := t.dev.dmaError n bad }
    | (t, some (l, none)) => (State.dmaGo s n l t).boundary
  | 2 => (State.dmaGo s n (s.dev.dma.getD n {}).desc s).boundary
  | 3 =>
    let c := s.dev.dma.getD n {}
    (State.dmaRun s n c.desc c.move s).boundary
  | 4 => s.dmaAbort n
  | _ => s

/-- DMA_START (R463, R469): CHn_CTRL.START. -/
def execDmaStart (n : Fin 16) (s : State) : Outcome := s.onDev fun d => d.busOk.dmaBegin n

/-- DMA_ABORT (R463): CHn_CTRL.ABORT. -/
def execDmaAbort (n : Fin 16) (s : State) : Outcome := s.live fun s => State.dmaAbort { s with dev := s.dev.busOk } n

end Sys2Proof.Machine
end

