-- ==== Sys2Proof/Machine/HostBus.lean ====
section
/-! DEFINITION. The host port's transactions (R488-R493, R496-R500): the PMBus commands and Murvasia's own, the alert
response, the bus timeouts. -/
namespace Sys2Proof.Machine

/-! ### One transaction (R489, R490, R496) -/

/-- A transaction addressed to the device: without an address it is not acknowledged, and while the device stretches SCL
the bus carries no other. -/
def State.hostOn (s : State) (f : State → State) : Outcome := s.live fun s =>
  if !s.dev.b HB_STAT_ADDR_VALID || s.dev.b HB_STAT_STRETCH then s
  else State.boundary (f { s with dev := (s.dev.inc HB_CNT_TRANS).modHost fun h => { h with ack := true, resp := [] } })

/-- A command code or a transaction the port does not support (R490). -/
def Dev.hostReject (d : Dev) : Dev := d.hostNak.cmlLatch cmlCommand

/-- A read of `len` bytes whose data `f` gives; `w` are the bytes written after the command code. While PAGE is 0xFF every
byte reads 0xFF and nothing is read (R493). -/
def State.readPart (s : State) (code : Nat) (w : List Nat) (len : Nat) (f : State → Dev × List Nat) : State :=
  if s.dev.f HB_STAT_PAGE = 0xFF then
    { s with dev := (s.dev.cmlLatch cmlData).respond code w (List.replicate len 0xFF) }
  else
    let p := f s
    { s with dev := p.1.respond code w p.2 }

/-- A write reaches its effect `g` unless something refuses it (R490, R493, R496). -/
def State.writePart (s : State) (x : HostXact) (free : Nat) (paged : Bool) (g : State → State) : State :=
  match s.dev.writeRefused x free paged with
  | some d => { s with dev := d }
  | none => g s

/-- The transaction is a write that ended before its `len` data bytes: cut by a STOP, it has no effect (R490). -/
def xactCut (x : HostXact) (len : Nat) : Bool := !x.read && (x.data.isNone || decide ((xactBytes x).length < len))

/-- A write of `len` data bytes; more of them are no transaction of the command. -/
def State.writeBytes (s : State) (x : HostXact) (len free : Nat) (paged : Bool) (g : State → State) : State :=
  if xactCut x len then s
  else if !x.read && (xactBytes x).length == len then s.writePart x free paged g
  else { s with dev := s.dev.hostReject }

/-- A command that is only read. -/
def State.readOnly (s : State) (x : HostXact) (code len : Nat) (f : State → Dev × List Nat) : Outcome :=
  s.hostOn fun s =>
    if x.read && x.data.isNone then s.readPart code [] len f
    else if xactCut x 1 then s
    else { s with dev := s.dev.hostReject }

/-- A command that is only written, with `len` data bytes. -/
def State.writeOnly (s : State) (x : HostXact) (len free : Nat) (paged : Bool) (g : State → State) : Outcome :=
  s.hostOn fun s => s.writeBytes x len free paged g

/-- A command that is read or written, with `len` data bytes either way. -/
def State.readWrite (s : State) (x : HostXact) (code len free : Nat) (paged : Bool) (f : State → Dev × List Nat)
    (g : State → State) : Outcome :=
  s.hostOn fun s => if x.read && x.data.isNone then s.readPart code [] len f else s.writeBytes x len free paged g

/-- A command read by the hardware and written by firmware, with at most `len` data bytes (R491-R493). -/
def State.readFwWrite (s : State) (x : HostXact) (code len : Nat) (v : Dev → Nat → Nat) : Outcome :=
  s.hostOn fun s =>
    if x.read && x.data.isNone then
      s.readPart code [] len fun s => (s.dev, leBytes len (v s.dev (s.dev.f HB_STAT_PAGE)))
    else { s with dev := if !x.read && decide ((xactBytes x).length ≤ len) then s.dev.fwTake code x else s.dev.hostReject }

/-- A read of `len` bytes of a value that follows the device's state and the page. -/
def State.readValue (s : State) (x : HostXact) (code len : Nat) (v : Dev → Nat → Nat) : Outcome :=
  s.readOnly x code len fun s => (s.dev, leBytes len (v s.dev (s.dev.f HB_STAT_PAGE)))

/-- A block read of register words, least significant byte first (R497). -/
def State.readWords (s : State) (x : HostXact) (code n : Nat) (v : Dev → Nat → List Nat) : Outcome :=
  s.readOnly x code (4 * n + 1) fun s => (s.dev, 4 * n :: (v s.dev (s.dev.f HB_STAT_PAGE)).flatMap (leBytes 4))

/-! ### The PMBus commands (R493-R496) -/

/-- PAGE: a rail 0 to 7, or 0xFF. -/
def execPage (x : HostXact) (s : State) : Outcome :=
  s.readWrite x 0x00 1 0x40 false (fun s => (s.dev, [s.dev.f HB_STAT_PAGE])) fun s =>
    let v := leNat (xactBytes x)
    { s with dev := if v < 8 || v = 0xFF then s.dev.setF HB_STAT_PAGE 0 v else s.dev.cmlLatch cmlData }

/-- OPERATION: reads RAIL_CTRL.EN; with PAGE 0xFF a write names every rail. -/
def execOperation (x : HostXact) (s : State) : Outcome :=
  s.readFwWrite x cmdOperation 1 fun d n => 0x80 * d.f RAIL_CTRL_EN n

def execOnOffConfig (x : HostXact) (s : State) : Outcome :=
  s.readValue x 0x02 1 fun d n => if d.b RAIL_PWM_ENPIN_USE n then 0x1E else 0x1A

/-- CLEAR_FAULTS of the page, or of every page, and of STATUS_CML (R496). -/
def Dev.clearFaults (d : Dev) : Dev :=
  let p := d.f HB_STAT_PAGE
  let d := d.modHost fun h => { h with cml := 0 }
  (d.each (if p = 0xFF then List.range 8 else [p % 8]) fun n d => d.clearPage n).alertScan

def execClearFaults (x : HostXact) (s : State) : Outcome :=
  s.writeOnly x 0 0x00 false fun s => { s with dev := s.dev.clearFaults }

/-- WRITE_PROTECT takes 0x00, 0x20, 0x40 and 0x80 (R496). -/
def execWriteProtect (x : HostXact) (s : State) : Outcome :=
  s.readWrite x 0x10 1 0x80 false (fun s => (s.dev, [s.dev.f HB_STAT_WP])) fun s =>
    let v := leNat (xactBytes x)
    { s with dev := if [0x00, 0x20, 0x40, 0x80].contains v then s.dev.setF HB_STAT_WP 0 v else s.dev.cmlLatch cmlData }

def execCapability (x : HostXact) (s : State) : Outcome := s.readValue x 0x19 1 fun _ _ => 0xD0
def execVoutMode (x : HostXact) (s : State) : Outcome := s.readValue x 0x20 1 fun _ _ => 0x14

def execVoutCommand (x : HostXact) (s : State) : Outcome :=
  s.readFwWrite x cmdVoutCommand 2 fun d n => linear16 (d.f RAIL_VTARGET_VTARGET n)
def execVoutTransitionRate (x : HostXact) (s : State) : Outcome :=
  s.readFwWrite x cmdTransitionRate 2 fun d n => linear11 (d.f RAIL_SLEW_SLEW n) 10 (-4)
def execVoutDroop (x : HostXact) (s : State) : Outcome :=
  s.readFwWrite x cmdDroop 2 fun d n => linear11 (d.f RAIL_LOADLINE_LL n) 1000 (-10)

def execStatusByte (x : HostXact) (s : State) : Outcome := s.readValue x 0x78 1 Dev.stByte
def execStatusWord (x : HostXact) (s : State) : Outcome := s.readValue x 0x79 2 Dev.stWord
def execStatusVout (x : HostXact) (s : State) : Outcome := s.readValue x 0x7A 1 Dev.stVout
def execStatusIout (x : HostXact) (s : State) : Outcome := s.readValue x 0x7B 1 Dev.stIout
def execStatusInput (x : HostXact) (s : State) : Outcome := s.readValue x 0x7C 1 Dev.stInput
def execStatusTemperature (x : HostXact) (s : State) : Outcome := s.readValue x 0x7D 1 Dev.stTemp
def execStatusCml (x : HostXact) (s : State) : Outcome := s.readValue x 0x7E 1 fun d _ => d.host.cml
def execStatusMfrSpecific (x : HostXact) (s : State) : Outcome := s.readValue x 0x80 1 Dev.stMfr

def execReadVin (x : HostXact) (s : State) : Outcome :=
  s.readValue x 0x88 2 fun d n => linear11 (d.f RAIL_VIN_VIN n) 1000 (-10)
/-- READ_VOUT: 0 while RAIL_VSENSE.VALID is 0. -/
def execReadVout (x : HostXact) (s : State) : Outcome :=
  s.readValue x 0x8B 2 fun d n => if d.b RAIL_VSENSE_VALID n then linear16 (d.f RAIL_VSENSE_VSENSE n) else 0
/-- READ_IOUT: IT of R56 or R211, 62.5 mA. -/
def execReadIout (x : HostXact) (s : State) : Outcome :=
  s.readValue x 0x8C 2 fun d n => linear11 (d.rail n).lp.it 16 (-4)

/-- The highest TSEN reading of the clusters of a rail's slices on this device; the spec gives a rail without slices no
reading: a free value. -/
def Dev.hotCluster (d : Dev) (n : Nat) : Dev × Nat :=
  match ((d.slicesOf n).map (· / 4)).eraseDups.map fun k => d.fs CL_STAT_TEMP k with
  | [] => (d.fresh 16).swap
  | t :: l => (d, linear11 (l.foldl max t) 64 (-6))

def execReadTemperature1 (x : HostXact) (s : State) : Outcome := s.readOnly x 0x8D 2 fun s =>
  let p := s.dev.hotCluster (s.dev.f HB_STAT_PAGE)
  (p.1, leBytes 2 p.2)

/-- READ_TEMPERATURE_2: the higher die temperature, housekeeping channels 17 and 18. -/
def execReadTemperature2 (x : HostXact) (s : State) : Outcome :=
  s.readValue x 0x8E 2 fun d _ => linear11 (max (toS 16 (d.accum.hk.getD 17 0)) (toS 16 (d.accum.hk.getD 18 0))) 64 (-6)

def execPmbusRevision (x : HostXact) (s : State) : Outcome := s.readValue x 0x98 1 fun _ _ => 0x33

/-- MFR_ID: "MURV". -/
def execMfrId (x : HostXact) (s : State) : Outcome :=
  s.readOnly x 0x99 5 fun s => (s.dev, [4, 0x4D, 0x55, 0x52, 0x56])
/-- MFR_MODEL: "SK7216". -/
def execMfrModel (x : HostXact) (s : State) : Outcome :=
  s.readOnly x 0x9A 7 fun s => (s.dev, [6, 0x53, 0x4B, 0x37, 0x32, 0x31, 0x36])

/-! ### Murvasia's own commands (R497, R498) -/

def execMfrDeviceState (x : HostXact) (s : State) : Outcome :=
  s.readWords x 0xD0 4 fun d _ => [d.r SYSCTL_MODE, d.r CHAIN_STAT, d.r SECURE_STAT, d.r SECURE_BOOTSEQ]

/-- MFR_LOG_NEXT: the slot in 2 bytes and the entry's 32; slot 0xFFFF and zeros where no entry is unread (R498). -/
def execMfrLogNext (x : HostXact) (s : State) : Outcome := s.readOnly x 0xD1 35 fun s =>
  let p := s.dev.logNext true
  (p.1, 34 :: (if bit p.2 31 then leBytes 2 p.2 ++ s.mem.bytes 32 (slotAddr (bits p.2 0 11))
    else 0xFF :: 0xFF :: List.replicate 32 0))

/-- MFR_LOG_ACK: a slot the host pin does not hold latches CML invalid-data and ACK_REJ (R498). -/
def execMfrLogAck (x : HostXact) (s : State) : Outcome := s.writeOnly x 2 0x00 false fun s =>
  let k := leNat (xactBytes x)
  let held := s.dev.log.pinHost == some k
  { s with dev := if held then s.dev.logAck true k else (s.dev.raise LOG_FLAGS_ACK_REJ).cmlLatch cmlData }

def execMfrLogStatus (x : HostXact) (s : State) : Outcome := s.readWords x 0xD3 8 fun d _ =>
  [d.r LOG_STAT, d.r LOG_UNREAD, d.r LOG_SEQ] ++ ((List.range 4).map fun c => d.r LOG_LOSS c) ++ [d.r LOG_INCID]

def execMfrRailStatus (x : HostXact) (s : State) : Outcome := s.readWords x 0xD4 6 fun d n =>
  [d.r RAIL_STAT n, d.r RAIL_FLAGS n, d.r RAIL_GCAUSE n, d.r RAIL_SEQSTAT n, d.r RAIL_BOUND n, d.r HMRAIL_STAT n]

/-- The addresses MFR_READ_REG reads (R498). -/
def hostReadable (a : Nat) : Bool :=
  let inside := decide (0x40000000 ≤ a && a < 0x40010000) || decide (0x50000000 ≤ a && a < 0x50008000) ||
    decide (0x50010000 ≤ a && a < 0x50012000) || decide (0x50020000 ≤ a && a < 0x50021000) ||
    decide (0xF0000000 ≤ a && a < 0xF0000100)
  let changes := match regAt a with
    | some (g, _, _) => g.rc || [LOG_NEXT.base, ACCUMu_AVG.base, STITCHe_SIN.base].contains g.base
    | none => false
  inside && a % 4 == 0 && !changes

/-- MFR_READ_REG: the address out, the register back; a refused address returns 0 and latches CML invalid-data. It is
served while REGRD_EN is 1 only (R497, R498). One that ends before its four address bytes or its read has no effect
(R490). -/
def execMfrReadReg (x : HostXact) (s : State) : Outcome := s.hostOn fun s =>
  if !s.dev.b HB_CTRL_REGRD_EN || (x.data.isNone && x.read) || decide ((xactBytes x).length > 4) then
    { s with dev := s.dev.hostReject }
  else if !x.read || decide ((xactBytes x).length < 4) then s
  else
    s.readPart 0xD5 (4 :: xactBytes x) 5 fun s =>
      let a := leNat (xactBytes x)
      if hostReadable a then
        let p := s.dev.readBlock a
        (p.1, 4 :: leBytes 4 p.2)
      else (s.dev.cmlLatch cmlData, [4, 0, 0, 0, 0])

/-- MFR_SAFE_RETURN: 0xC3A5 requests the return of R304. -/
def execMfrSafeReturn (x : HostXact) (s : State) : Outcome := s.writeOnly x 2 0x00 false fun s =>
  { s with dev := if leNat (xactBytes x) = 0xC3A5 then s.dev.askReturn else s.dev.cmlLatch cmlData }

/-- MFR_FW_MAILBOX: a block of at most 32 bytes to or from firmware (R497). -/
def execMfrFwMailbox (x : HostXact) (s : State) : Outcome := s.hostOn fun s =>
  if (x.read && x.data.isNone) || (x.data.isSome && !x.read && decide ((xactBytes x).length ≤ 32)) then
    { s with dev := s.dev.fwTake cmdMailbox x }
  else if xactCut x 0 then s
  else { s with dev := s.dev.hostReject }

/-- UNSUPPORTED_COMMAND (R490): a code or a transaction that is not listed. -/
def execUnsupportedCommand (_code : Byte) (s : State) : Outcome := s.hostOn fun s =>
  { s with dev := s.dev.hostReject }

/-! ### The alert response (R499) -/

/-- ALERT_N is low (R499). -/
def Dev.alertLow (d : Dev) : Bool := d.f HB_ALERT_PENDING != 0 && d.b HB_STAT_ADDR_VALID

/-- ALERT_RESPONSE: a device with a PENDING bit answers with its address; when it wins, every PENDING bit clears. DESIGN
CHOICE (log 77): a device without an address acknowledges it too (R489), and what it answers is free. -/
def execAlertResponse (won : Bool) (s : State) : Outcome := s.onDev fun d =>
  if d.b HB_STAT_STRETCH || d.f HB_ALERT_PENDING = 0 then d
  else if won then
    let (a, d) := if d.b HB_STAT_ADDR_VALID then (d.f HB_STAT_ADDR, d) else d.fresh 7
    let d := d.modHost fun h => { h with ack := true, resp := [2 * a] }
    (d.setF HB_ALERT_PENDING 0 0).raise HB_FLAGS_ARA_WON
  else d.modHost fun h => { h with resp := [] }

/-! ### Firmware's answer and the timeouts (R491, R492, R500) -/

/-- FW_ACK (R492): a write of HB_FWACK. -/
def execFwAck (v : Word) (s : State) : Outcome := s.onDev fun d => d.busOk.fwAckWrite v.toNat

/-- The longest stretch, in cycles of 400 MHz: FWTO × 100 µs, of which values above 240 act as 240 (R491, R502). -/
def Dev.stretchMax (d : Dev) : Nat := 40000 * min 240 (d.f HB_XTO_FWTO)

/-- FW_TIMEOUT (R491): a command that waits is not acknowledged; an offered read is answered with 0xFF; the offer itself
stays until firmware ends it. No effect before a stretch has lasted FWTO. -/
def Dev.fwExpire (d : Dev) : Dev :=
  if !d.b HB_STAT_STRETCH || d.now < d.host.stretchAt + d.stretchMax then d else
  let code := match d.host.xact with
    | some (k, _) => k
    | none => d.f HB_FWCMD_CODE
  let d := match d.host.xact with
    | some _ => d.modHost fun h => { h with xact := none, ack := false }
    | none => d.modHost fun h => { h with resp := [] }
  let d := ((d.setB HB_STAT_STRETCH 0 false).cmlLatch cmlOther).raise HB_FLAGS_FW_TIMEOUT
  d.post 2 0x051 code [d.r HB_FWCMD]

def execFwTimeout (s : State) : Outcome := s.onDev Dev.fwExpire

/-- A stuck line is reported: SRC 0 for SCL, 1 for SDA (R500). -/
def Dev.hostStuck (d : Dev) (src : Nat) : Dev :=
  let d := ((d.cmlLatch cmlOther).raise HB_FLAGS_STUCK).incSat HB_CNT_STUCK
  d.post 2 0x050 src [d.r HB_STAT]

/-- SMBUS_SCL_TIMEOUT: the device releases the bus; the transaction has no effect. -/
def execSmbusSclTimeout (s : State) : Outcome := s.onDev fun d =>
  if !d.b HB_STAT_ADDR_VALID then d else
  (((d.modHost fun h => { h with xact := none }).setB HB_STAT_STRETCH 0 false).hostStuck 0)

/-- SMBUS_SDA_STUCK: while the device drives neither line. -/
def execSmbusSdaStuck (s : State) : Outcome := s.onDev fun d => if d.b HB_STAT_STRETCH then d else d.hostStuck 1

/-- SMBUS_STUCK_CLEAR: both lines have been high, SCL not held by the device. -/
def execSmbusStuckClear (s : State) : Outcome := s.onDev fun d =>
  if d.b HB_STAT_STRETCH then d else d.raise HB_FLAGS_STUCK_CLR

end Sys2Proof.Machine
end

