-- ==== Sys2Proof/Machine/Tick.lean ====
section
/-! DEFINITION. What one FCLK cycle does whatever is commanded (assumption 2): the counts of time (R136, R196, R197, R280),
the messages the ring calls for by time (R206), the timers (R519), the levels at the balls and their edges (R528, R529), the
slow clock (R316, R322, R325), and what waits for a condition (R491, R499). The opcode table has no row for it: it is the
step on an empty queue. -/
namespace Sys2Proof.Machine

/-- HM_TIME and RT count; LOG_EPOCH counts the wraps of RT (R197, R280). They stand while the fabric clock stands. -/
def Dev.tickTime (d : Dev) : Dev :=
  if d.fabricStopped then d else
  let t := (d.r CHAIN_RTIME + 1) % 2 ^ 32
  let d := (d.setR HM_TIME 0 (d.r HM_TIME + 1)).setR CHAIN_RTIME 0 t
  let d := { d with hm := { d.hm with cyc := d.hm.cyc + 1 } }
  if t = 0 then d.setR LOG_EPOCH 0 (d.r LOG_EPOCH + 1) else d

/-- CHAIN_HOLD shows the holdover time in µs until LOCKED, which EXPIRED never is (R195, R196). -/
def Dev.tickHold (d : Dev) : Dev :=
  let st := d.f CHAIN_STAT_CKSTATE
  if st = ckLocked then d
  else
    let k := d.chain.holdCyc + 1
    (d.modChain fun c => { c with holdCyc := k }).setR CHAIN_HOLD 0 (min 4095 (k / 400))

/-- Cycles of 256 superframes (R200, R206). -/
abbrev frames256 : Nat := 262144

/-- The root's RT_SET, once every 256 superframes: it names the next superframe whose count is 0, and goes before what else
waits for the slots of a general owner from the first of them on, so that it has left by then (R200, R206). -/
def Dev.tickRtSet (d : Dev) : Dev :=
  let t := d.r CHAIN_RTIME
  let p := t / frames256
  if !d.isRoot || d.fabricStopped || d.chain.rtSent = p + 1 || t % frames256 ≥ 32 then d else
  let next := (p + 1) * frames256 % 2 ^ 32
  (d.modChain fun c => { c with rtSent := p + 1 }).sendFirst 1 0
    (next * 2 ^ 8 + d.f CHAIN_STAT_M % 16 * 2 ^ 4 + b2n d.chain.enumOk * 2 ^ 3)

/-- While an admission runs, the lead repeats SPAN_TARGET every 64 superframes (R220). -/
def Dev.tickTarget (d : Dev) : Dev :=
  if d.fabricStopped then d else
  d.each [0, 1] fun c d =>
    if (d.span c).cmd = 2 && d.now ≥ (d.span c).targetAt + 65536 then d.repeatTarget c else d

/-- The ring in one cycle: RT is corrected, the lanes, the boundaries of the channels whose rail does not run here (R189,
R197, R212). -/
def Dev.tickLanes (d : Dev) : Dev :=
  if d.fabricStopped then d else ((((d.slewRt).tickLane 0).tickLane 1).countBoundaries 0).countBoundaries 1

/-- A member of a spanning rail sends SPAN_READY every 256 superframes, and when its FREE count has changed (R206); so does
a device that waits in ARMED for its admission (R220). -/
def Dev.tickReady (d : Dev) : Dev :=
  d.each [0, 1] fun c d =>
    if !d.inSpan c || d.fabricStopped then d else
    let n := d.f CHAIN_SPANc_STAT_RAIL c
    let free := (d.freeSpares n).length
    let member := bit (d.f CHAIN_SPANc_MEMB_MEMBERS c) d.pos || (d.rail n).phase == .armed
    if member && (d.now ≥ (d.span c).readyAt + frames256 || (d.span c).freeSent != some free) then
      (d.modSpan c fun s => { s with freeSent := some free, readyAt := d.now }).sendReady c free (d.staffed n) ((d.rail n).phase == .armed)
    else d

/-- A slow edge (R316, R322, R325). -/
def Dev.slowEdge (d : Dev) : Dev :=
  ((d.modMode fun m => { m with edges := m.edges + 1, good := m.good + 1 }).bdTimeAdd 1).wdogEdge

/-- A slow edge that is due while OSC_OK is 0 comes or is missing, which is free, and ends the run of good ones (R316). -/
def Dev.slowMaybe (d : Dev) : Dev :=
  let (x, d) := d.fresh 1
  if bit x 0 then d.slowEdge else d.modMode fun m => { m with good := 0 }

/-- The slow clock of 32,768 Hz advances by one cycle of 400 MHz (R43); each of its edges counts (R313, R322, R325). -/
def Dev.tickSlow (d : Dev) : Dev :=
  let p := d.mode.phase + 32768
  if p < 400000000 then d.modMode fun m => { m with phase := p }
  else
    let d := d.modMode fun m => { m with phase := p - 400000000 }
    if d.b BD_STAT_OSC_OK then d.slowEdge else d.slowMaybe

/-- A supply below its warning threshold may have risen again: which is free (R296). -/
def Dev.tickSupply (d : Dev) : Dev :=
  if d.f SYSCTL_SUPPLY_WARN = 0 then d else
  let (x, d) := d.fresh 8
  d.setF SYSCTL_SUPPLY_WARN 0 (d.f SYSCTL_SUPPLY_WARN &&& x)

/-- The main domain in one cycle. -/
def Dev.tickMain (d : Dev) : Dev :=
  let d := d.tickTime.handedDue.relaysDue.tickHold.tickLanes.tickRtSet.tickTarget.tickReady.tickSupply
  let d := if d.now % d.cclk = 0 then d.timerCycle.gpCycle.modCpu fun u => { u with cyc := u.cyc + 1 } else d
  d.flashProgress.alertScan.fwResume

/-- One FCLK cycle: in DORMANT only the slow clock runs (R43). -/
def Dev.tick (d : Dev) : Dev :=
  if d.mode.dormant then { d with now := d.now + 1 }.tickSlow
  else { d.gpBalls with now := d.now + 1 }.tickMain.tickSlow

/-- The step on an empty queue (assumption 2). -/
def State.tick (s : State) : State := State.verifyTick { s with dev := s.dev.tick }

end Sys2Proof.Machine
end

