-- ==== Sys2Proof/Machine/Dispatch.lean ====
section
/-! DEFINITION. The meaning of every command: one arm for each row of the opcode table, in its order. -/
namespace Sys2Proof.Machine

def exec (i : Instr) (s : State) : Host.Outcome State Fault Refusal :=
  match i with
  | .registerWrite m addr size v => Sys2Proof.Machine.execRegisterWrite m addr size v s
  | .decision n vs raws cf => Sys2Proof.Machine.execDecision n vs raws cf s
  | .housekeepingSlot ch code => Sys2Proof.Machine.execHousekeepingSlot ch code s
  | .railVtargetWrite n v => Sys2Proof.Machine.execRailVtargetWrite n v s
  | .railSlewWrite n v => Sys2Proof.Machine.execRailSlewWrite n v s
  | .railLoadlineWrite n v => Sys2Proof.Machine.execRailLoadlineWrite n v s
  | .railIlimitWrite n v => Sys2Proof.Machine.execRailIlimitWrite n v s
  | .railSoftstartWrite n v => Sys2Proof.Machine.execRailSoftstartWrite n v s
  | .railTeCoutWrite n v => Sys2Proof.Machine.execRailTeCoutWrite n v s
  | .railPwmWrite n v => Sys2Proof.Machine.execRailPwmWrite n v s
  | .railAddshedWrite n v => Sys2Proof.Machine.execRailAddshedWrite n v s
  | .railEnable n => Sys2Proof.Machine.execRailEnable n s
  | .railDisable n => Sys2Proof.Machine.execRailDisable n s
  | .tonDelayExpiry n => Sys2Proof.Machine.execTonDelayExpiry n s
  | .prebiasMeasurement n vs => Sys2Proof.Machine.execPrebiasMeasurement n vs s
  | .powerGoodQualified n => Sys2Proof.Machine.execPowerGoodQualified n s
  | .expertCommit n => Sys2Proof.Machine.execExpertCommit n s
  | .commitTakeForce n => Sys2Proof.Machine.execCommitTakeForce n s
  | .expertRevert n => Sys2Proof.Machine.execExpertRevert n s
  | .slicePeriodBoundary idx => Sys2Proof.Machine.execSlicePeriodBoundary idx s
  | .intentFrame frame => Sys2Proof.Machine.execIntentFrame frame s
  | .intentFrameTruncated edges => Sys2Proof.Machine.execIntentFrameTruncated edges s
  | .intentFrameLong => Sys2Proof.Machine.execIntentFrameLong s
  | .intentPortStuck ck d0 d1 => Sys2Proof.Machine.execIntentPortStuck ck d0 d1 s
  | .intentPortUnstuck => Sys2Proof.Machine.execIntentPortUnstuck s
  | .hmRelayLoWrite v => Sys2Proof.Machine.execHmRelayLoWrite v s
  | .hmPortEnWrite en => Sys2Proof.Machine.execHmPortEnWrite en s
  | .predictionBiasStart n => Sys2Proof.Machine.execPredictionBiasStart n s
  | .scheduleSegment n => Sys2Proof.Machine.execScheduleSegment n s
  | .predictionMiss n => Sys2Proof.Machine.execPredictionMiss n s
  | .reversal n => Sys2Proof.Machine.execReversal n s
  | .predictionEnd n => Sys2Proof.Machine.execPredictionEnd n s
  | .observationExpiry n => Sys2Proof.Machine.execObservationExpiry n s
  | .signatureLearn n => Sys2Proof.Machine.execSignatureLearn n s
  | .signatureAgeTick n => Sys2Proof.Machine.execSignatureAgeTick n s
  | .hmrailClear n => Sys2Proof.Machine.execHmrailClear n s
  | .signatureRead n e => Sys2Proof.Machine.execSignatureRead n e s
  | .signatureWrite n e => Sys2Proof.Machine.execSignatureWrite n e s
  | .signatureExchange n e => Sys2Proof.Machine.execSignatureExchange n e s
  | .railTeCountRead n => Sys2Proof.Machine.execRailTeCountRead n s
  | .periodBoundary n => Sys2Proof.Machine.execPeriodBoundary n s
  | .sliceForceFault idx => Sys2Proof.Machine.execSliceForceFault idx s
  | .stageFaultSample k low => Sys2Proof.Machine.execStageFaultSample k low s
  | .attributionWindowClose k low => Sys2Proof.Machine.execAttributionWindowClose k low s
  | .enpinLow n => Sys2Proof.Machine.execEnpinLow n s
  | .dischargeTimeout n => Sys2Proof.Machine.execDischargeTimeout n s
  | .calOffsetDone idx => Sys2Proof.Machine.execCalOffsetDone idx s
  | .calPulseEnd idx => Sys2Proof.Machine.execCalPulseEnd idx s
  | .calResult idx => Sys2Proof.Machine.execCalResult idx s
  | .calZmaxExpiry idx => Sys2Proof.Machine.execCalZmaxExpiry idx s
  | .sliceReadmit idx => Sys2Proof.Machine.execSliceReadmit idx s
  | .sliceCalNow idx => Sys2Proof.Machine.execSliceCalNow idx s
  | .ringCell lane cell late => Sys2Proof.Machine.execRingCell lane cell late s
  | .laneRun lane => Sys2Proof.Machine.execLaneRun lane s
  | .laneFailed lane => Sys2Proof.Machine.execLaneFailed lane s
  | .clockValid port => Sys2Proof.Machine.execClockValid port s
  | .refClockLost => Sys2Proof.Machine.execRefClockLost s
  | .relockDone => Sys2Proof.Machine.execRelockDone s
  | .clockListenDone => Sys2Proof.Machine.execClockListenDone s
  | .holdoverExpired => Sys2Proof.Machine.execHoldoverExpired s
  | .rtSet payload latency => Sys2Proof.Machine.execRtSet payload latency s
  | .positionWaitTimeout => Sys2Proof.Machine.execPositionWaitTimeout s
  | .spanStart src ch payload => Sys2Proof.Machine.execSpanStart src ch payload s
  | .spanPlan src ch payload => Sys2Proof.Machine.execSpanPlan src ch payload s
  | .spanTarget src ch payload => Sys2Proof.Machine.execSpanTarget src ch payload s
  | .spanXfer src ch payload => Sys2Proof.Machine.execSpanXfer src ch payload s
  | .sigRelay src ch payload latency => Sys2Proof.Machine.execSigRelay src ch payload latency s
  | .leadMove src ch payload => Sys2Proof.Machine.execLeadMove src ch payload s
  | .spanReady src ch payload => Sys2Proof.Machine.execSpanReady src ch payload s
  | .spanCause src ch payload => Sys2Proof.Machine.execSpanCause src ch payload s
  | .withdrawn src ch payload => Sys2Proof.Machine.execWithdrawn src ch payload s
  | .enumStart => Sys2Proof.Machine.execEnumStart s
  | .enumTimeout => Sys2Proof.Machine.execEnumTimeout s
  | .spanBegin ch => Sys2Proof.Machine.execSpanBegin ch s
  | .spanAutoEnter ch => Sys2Proof.Machine.execSpanAutoEnter ch s
  | .spanAutoExit ch => Sys2Proof.Machine.execSpanAutoExit ch s
  | .leadTakeover ch => Sys2Proof.Machine.execLeadTakeover ch s
  | .spancmdWithdraw ch pos => Sys2Proof.Machine.execSpancmdWithdraw ch pos s
  | .spancmdAdmit ch pos => Sys2Proof.Machine.execSpancmdAdmit ch pos s
  | .spancmdMoveLead ch => Sys2Proof.Machine.execSpancmdMoveLead ch s
  | .spancmdAbort ch => Sys2Proof.Machine.execSpancmdAbort ch s
  | .chainSpanCntRead ch => Sys2Proof.Machine.execChainSpanCntRead ch s
  | .scrubStep => Sys2Proof.Machine.execScrubStep s
  | .planeWrite m addr v => Sys2Proof.Machine.execPlaneWrite m addr v s
  | .fabricEnable sel => Sys2Proof.Machine.execFabricEnable sel s
  | .fabricDisable => Sys2Proof.Machine.execFabricDisable s
  | .deviceSwap plane => Sys2Proof.Machine.execDeviceSwap plane s
  | .railSwap n plane => Sys2Proof.Machine.execRailSwap n plane s
  | .deviceDryRun plane => Sys2Proof.Machine.execDeviceDryRun plane s
  | .railDryRun n plane => Sys2Proof.Machine.execRailDryRun n plane s
  | .girthCheck en => Sys2Proof.Machine.execGirthCheck en s
  | .swapSectionsTakeForce => Sys2Proof.Machine.execSwapSectionsTakeForce s
  | .accumRestart u => Sys2Proof.Machine.execAccumRestart u s
  | .accumAvgRead u => Sys2Proof.Machine.execAccumAvgRead u s
  | .accumXrouteWrite u v => Sys2Proof.Machine.execAccumXrouteWrite u v s
  | .openWireTest kind index => Sys2Proof.Machine.execOpenWireTest kind index s
  | .openWireTestEnd => Sys2Proof.Machine.execOpenWireTestEnd s
  | .captureStart n => Sys2Proof.Machine.execCaptureStart n s
  | .sweepStart n => Sys2Proof.Machine.execSweepStart n s
  | .calPassStart n => Sys2Proof.Machine.execCalPassStart n s
  | .lopAbort => Sys2Proof.Machine.execLopAbort s
  | .captureTimeout => Sys2Proof.Machine.execCaptureTimeout s
  | .passWaitTimeout => Sys2Proof.Machine.execPassWaitTimeout s
  | .logWrite => Sys2Proof.Machine.execLogWrite s
  | .incidentClose => Sys2Proof.Machine.execIncidentClose s
  | .logSwpost v => Sys2Proof.Machine.execLogSwpost v s
  | .logNextRead => Sys2Proof.Machine.execLogNextRead s
  | .logAck v => Sys2Proof.Machine.execLogAck v s
  | .logRelease => Sys2Proof.Machine.execLogRelease s
  | .logClrloss => Sys2Proof.Machine.execLogClrloss s
  | .porAssert supply => Sys2Proof.Machine.execPorAssert supply s
  | .porRelease strap root => Sys2Proof.Machine.execPorRelease strap root s
  | .brownoutWarning w => Sys2Proof.Machine.execBrownoutWarning w s
  | .batReset => Sys2Proof.Machine.execBatReset s
  | .modecmdStandby => Sys2Proof.Machine.execModecmdStandby s
  | .modecmdSafe key => Sys2Proof.Machine.execModecmdSafe key s
  | .modecmdBoot key => Sys2Proof.Machine.execModecmdBoot key s
  | .safeReturn => Sys2Proof.Machine.execSafeReturn s
  | .resetNLow => Sys2Proof.Machine.execResetNLow s
  | .softwareReset v => Sys2Proof.Machine.execSoftwareReset v s
  | .debugReset => Sys2Proof.Machine.execDebugReset s
  | .sysReset => Sys2Proof.Machine.execSysReset s
  | .wake source => Sys2Proof.Machine.execWake source s
  | .sleepS0 => Sys2Proof.Machine.execSleepS0 s
  | .sleepS1Makeup => Sys2Proof.Machine.execSleepS1Makeup s
  | .timerWake => Sys2Proof.Machine.execTimerWake s
  | .alarmMatch => Sys2Proof.Machine.execAlarmMatch s
  | .slowClockFail => Sys2Proof.Machine.execSlowClockFail s
  | .slowClockOk => Sys2Proof.Machine.execSlowClockOk s
  | .watchdogHalf => Sys2Proof.Machine.execWatchdogHalf s
  | .watchdogExpiry => Sys2Proof.Machine.execWatchdogExpiry s
  | .watchdogKick v => Sys2Proof.Machine.execWatchdogKick v s
  | .bdTimeLoWrite v => Sys2Proof.Machine.execBdTimeLoWrite v s
  | .bdTimeLoad => Sys2Proof.Machine.execBdTimeLoad s
  | .bdTimeLoRead => Sys2Proof.Machine.execBdTimeLoRead s
  | .bdClear key => Sys2Proof.Machine.execBdClear key s
  | .pllLock => Sys2Proof.Machine.execPllLock s
  | .bootPllTimeout => Sys2Proof.Machine.execBootPllTimeout s
  | .kmac => Sys2Proof.Machine.execKmac s
  | .kdf => Sys2Proof.Machine.execKdf s
  | .verify => Sys2Proof.Machine.execVerify s
  | .verifySlot => Sys2Proof.Machine.execVerifySlot s
  | .attest => Sys2Proof.Machine.execAttest s
  | .minverRaise => Sys2Proof.Machine.execMinverRaise s
  | .lcAdvance => Sys2Proof.Machine.execLcAdvance s
  | .provision => Sys2Proof.Machine.execProvision s
  | .ownerKey => Sys2Proof.Machine.execOwnerKey s
  | .secureOpEnd why => Sys2Proof.Machine.execSecureOpEnd why s
  | .secureOpAbort => Sys2Proof.Machine.execSecureOpAbort s
  | .debugUnlock keyidx pk sig => Sys2Proof.Machine.execDebugUnlock keyidx pk sig s
  | .jtagPinDrive levels => Sys2Proof.Machine.execJtagPinDrive levels s
  | .tamper source => Sys2Proof.Machine.execTamper source s
  | .mov16 c rd rs => Sys2Proof.Machine.execMov16 c rd rs s
  | .add16 c rd rs => Sys2Proof.Machine.execAdd16 c rd rs s
  | .sub16 c rd rs => Sys2Proof.Machine.execSub16 c rd rs s
  | .and16 c rd rs => Sys2Proof.Machine.execAnd16 c rd rs s
  | .or16 c rd rs => Sys2Proof.Machine.execOr16 c rd rs s
  | .xor16 c rd rs => Sys2Proof.Machine.execXor16 c rd rs s
  | .cmp16 c rd rs => Sys2Proof.Machine.execCmp16 c rd rs s
  | .tst16 c rd rs => Sys2Proof.Machine.execTst16 c rd rs s
  | .lsl16 c rd rs => Sys2Proof.Machine.execLsl16 c rd rs s
  | .lsr16 c rd rs => Sys2Proof.Machine.execLsr16 c rd rs s
  | .asr16 c rd rs => Sys2Proof.Machine.execAsr16 c rd rs s
  | .ror16 c rd rs => Sys2Proof.Machine.execRor16 c rd rs s
  | .neg16 c rd rs => Sys2Proof.Machine.execNeg16 c rd rs s
  | .not16 c rd rs => Sys2Proof.Machine.execNot16 c rd rs s
  | .clz16 c rd rs => Sys2Proof.Machine.execClz16 c rd rs s
  | .rev16 c rd rs => Sys2Proof.Machine.execRev16 c rd rs s
  | .movi16 c rd imm => Sys2Proof.Machine.execMovi16 c rd imm s
  | .addi16 c rd imm => Sys2Proof.Machine.execAddi16 c rd imm s
  | .cmpi16 c rd imm => Sys2Proof.Machine.execCmpi16 c rd imm s
  | .shi16 c rd kind sh => Sys2Proof.Machine.execShi16 c rd kind sh s
  | .ldw16 c rd rs u => Sys2Proof.Machine.execLdw16 c rd rs u s
  | .stw16 c rd rs u => Sys2Proof.Machine.execStw16 c rd rs u s
  | .ldhu16 c rd rs u => Sys2Proof.Machine.execLdhu16 c rd rs u s
  | .sth16 c rd rs u => Sys2Proof.Machine.execSth16 c rd rs u s
  | .ldbu16 c rd rs u => Sys2Proof.Machine.execLdbu16 c rd rs u s
  | .stb16 c rd rs u => Sys2Proof.Machine.execStb16 c rd rs u s
  | .ldwsp c rd u => Sys2Proof.Machine.execLdwsp c rd u s
  | .stwsp c rd u => Sys2Proof.Machine.execStwsp c rd u s
  | .bcc16 c cond off => Sys2Proof.Machine.execBcc16 c cond off s
  | .br16 c off => Sys2Proof.Machine.execBr16 c off s
  | .call16 c off => Sys2Proof.Machine.execCall16 c off s
  | .jr c rs z => Sys2Proof.Machine.execJr c rs z s
  | .callr c rs z => Sys2Proof.Machine.execCallr c rs z s
  | .ret c z => Sys2Proof.Machine.execRet c z s
  | .push c rd z => Sys2Proof.Machine.execPush c rd z s
  | .pop c rd z => Sys2Proof.Machine.execPop c rd z s
  | .sextb c rd rs => Sys2Proof.Machine.execSextb c rd rs s
  | .sexth c rd rs => Sys2Proof.Machine.execSexth c rd rs s
  | .zexth c rd rs => Sys2Proof.Machine.execZexth c rd rs s
  | .nop c imm => Sys2Proof.Machine.execNop c imm s
  | .sync c imm => Sys2Proof.Machine.execSync c imm s
  | .svc c imm => Sys2Proof.Machine.execSvc c imm s
  | .brk c imm => Sys2Proof.Machine.execBrk c imm s
  | .wfe c imm => Sys2Proof.Machine.execWfe c imm s
  | .atom c imm => Sys2Proof.Machine.execAtom c imm s
  | .atend c imm => Sys2Proof.Machine.execAtend c imm s
  | .eret c imm => Sys2Proof.Machine.execEret c imm s
  | .lpclr c imm => Sys2Proof.Machine.execLpclr c imm s
  | .add c rd rs1 rs2 sets z => Sys2Proof.Machine.execAdd c rd rs1 rs2 sets z s
  | .sub c rd rs1 rs2 sets z => Sys2Proof.Machine.execSub c rd rs1 rs2 sets z s
  | .and c rd rs1 rs2 sets z => Sys2Proof.Machine.execAnd c rd rs1 rs2 sets z s
  | .or c rd rs1 rs2 sets z => Sys2Proof.Machine.execOr c rd rs1 rs2 sets z s
  | .xor c rd rs1 rs2 sets z => Sys2Proof.Machine.execXor c rd rs1 rs2 sets z s
  | .andn c rd rs1 rs2 sets z => Sys2Proof.Machine.execAndn c rd rs1 rs2 sets z s
  | .lsl c rd rs1 rs2 sets z => Sys2Proof.Machine.execLsl c rd rs1 rs2 sets z s
  | .lsr c rd rs1 rs2 sets z => Sys2Proof.Machine.execLsr c rd rs1 rs2 sets z s
  | .asr c rd rs1 rs2 sets z => Sys2Proof.Machine.execAsr c rd rs1 rs2 sets z s
  | .ror c rd rs1 rs2 sets z => Sys2Proof.Machine.execRor c rd rs1 rs2 sets z s
  | .adc c rd rs1 rs2 sets z => Sys2Proof.Machine.execAdc c rd rs1 rs2 sets z s
  | .sbc c rd rs1 rs2 sets z => Sys2Proof.Machine.execSbc c rd rs1 rs2 sets z s
  | .min c rd rs1 rs2 sets z => Sys2Proof.Machine.execMin c rd rs1 rs2 sets z s
  | .max c rd rs1 rs2 sets z => Sys2Proof.Machine.execMax c rd rs1 rs2 sets z s
  | .minu c rd rs1 rs2 sets z => Sys2Proof.Machine.execMinu c rd rs1 rs2 sets z s
  | .maxu c rd rs1 rs2 sets z => Sys2Proof.Machine.execMaxu c rd rs1 rs2 sets z s
  | .mul c rd rs1 rs2 z => Sys2Proof.Machine.execMul c rd rs1 rs2 z s
  | .mulhs c rd rs1 rs2 z => Sys2Proof.Machine.execMulhs c rd rs1 rs2 z s
  | .mulhu c rd rs1 rs2 z => Sys2Proof.Machine.execMulhu c rd rs1 rs2 z s
  | .divs c rd rs1 rs2 z => Sys2Proof.Machine.execDivs c rd rs1 rs2 z s
  | .divu c rd rs1 rs2 z => Sys2Proof.Machine.execDivu c rd rs1 rs2 z s
  | .rems c rd rs1 rs2 z => Sys2Proof.Machine.execRems c rd rs1 rs2 z s
  | .remu c rd rs1 rs2 z => Sys2Proof.Machine.execRemu c rd rs1 rs2 z s
  | .mac c rd rs1 rs2 z => Sys2Proof.Machine.execMac c rd rs1 rs2 z s
  | .addi c rd rs1 imm => Sys2Proof.Machine.execAddi c rd rs1 imm s
  | .andi c rd rs1 imm => Sys2Proof.Machine.execAndi c rd rs1 imm s
  | .ori c rd rs1 imm => Sys2Proof.Machine.execOri c rd rs1 imm s
  | .xori c rd rs1 imm => Sys2Proof.Machine.execXori c rd rs1 imm s
  | .movhi c rd z imm => Sys2Proof.Machine.execMovhi c rd z imm s
  | .cmpi c rs1 z imm => Sys2Proof.Machine.execCmpi c rs1 z imm s
  | .shi c rd rs1 imm => Sys2Proof.Machine.execShi c rd rs1 imm s
  | .bfx c rd rs1 imm => Sys2Proof.Machine.execBfx c rd rs1 imm s
  | .bfi c rd rs1 imm => Sys2Proof.Machine.execBfi c rd rs1 imm s
  | .clz c rd rs1 z => Sys2Proof.Machine.execClz c rd rs1 z s
  | .cls c rd rs1 z => Sys2Proof.Machine.execCls c rd rs1 z s
  | .ctz c rd rs1 z => Sys2Proof.Machine.execCtz c rd rs1 z s
  | .popc c rd rs1 z => Sys2Proof.Machine.execPopc c rd rs1 z s
  | .rev c rd rs1 z => Sys2Proof.Machine.execRev c rd rs1 z s
  | .revh c rd rs1 z => Sys2Proof.Machine.execRevh c rd rs1 z s
  | .rbit c rd rs1 z => Sys2Proof.Machine.execRbit c rd rs1 z s
  | .permr c rd rs1 rs2 z => Sys2Proof.Machine.execPermr c rd rs1 rs2 z s
  | .perm c rd rs1 rs2 func => Sys2Proof.Machine.execPerm c rd rs1 rs2 func s
  | .adr c rd z imm => Sys2Proof.Machine.execAdr c rd z imm s
  | .ldw c rd rs1 imm => Sys2Proof.Machine.execLdw c rd rs1 imm s
  | .ldh c rd rs1 imm => Sys2Proof.Machine.execLdh c rd rs1 imm s
  | .ldhu c rd rs1 imm => Sys2Proof.Machine.execLdhu c rd rs1 imm s
  | .ldb c rd rs1 imm => Sys2Proof.Machine.execLdb c rd rs1 imm s
  | .ldbu c rd rs1 imm => Sys2Proof.Machine.execLdbu c rd rs1 imm s
  | .stw c rd rs1 imm => Sys2Proof.Machine.execStw c rd rs1 imm s
  | .sth c rd rs1 imm => Sys2Proof.Machine.execSth c rd rs1 imm s
  | .stb c rd rs1 imm => Sys2Proof.Machine.execStb c rd rs1 imm s
  | .xmem c rd rs1 rs2 func => Sys2Proof.Machine.execXmem c rd rs1 rs2 func s
  | .bcc c cond off => Sys2Proof.Machine.execBcc c cond off s
  | .br c off => Sys2Proof.Machine.execBr c off s
  | .call c off => Sys2Proof.Machine.execCall c off s
  | .lp c l r cnt endoff => Sys2Proof.Machine.execLp c l r cnt endoff s
  | .mfs c rd z imm => Sys2Proof.Machine.execMfs c rd z imm s
  | .mts c rs1 z imm => Sys2Proof.Machine.execMts c rs1 z imm s
  | .bcopy c rd rs1 rs2 z => Sys2Proof.Machine.execBcopy c rd rs1 rs2 z s
  | .bmove c rd rs1 rs2 z => Sys2Proof.Machine.execBmove c rd rs1 rs2 z s
  | .bfill c rd rs1 rs2 z => Sys2Proof.Machine.execBfill c rd rs1 rs2 z s
  | .bcmp c rd rs1 rs2 z => Sys2Proof.Machine.execBcmp c rd rs1 rs2 z s
  | .eventEntry => Sys2Proof.Machine.execEventEntry s
  | .windowCycleLimit c => Sys2Proof.Machine.execWindowCycleLimit c s
  | .checkpoint => Sys2Proof.Machine.execCheckpoint s
  | .selfTestEnd passA passB us => Sys2Proof.Machine.execSelfTestEnd passA passB us s
  | .hoSplit c bank key => Sys2Proof.Machine.execHoSplit c bank key s
  | .hoXfer c mask => Sys2Proof.Machine.execHoXfer c mask s
  | .hoPark c key => Sys2Proof.Machine.execHoPark c key s
  | .hoJoin c key => Sys2Proof.Machine.execHoJoin c key s
  | .joinComplete => Sys2Proof.Machine.execJoinComplete s
  | .hoAbort c key => Sys2Proof.Machine.execHoAbort c key s
  | .eventSwset v => Sys2Proof.Machine.execEventSwset v s
  | .eventSwclr v => Sys2Proof.Machine.execEventSwclr v s
  | .cacheInvI => Sys2Proof.Machine.execCacheInvI s
  | .cacheInvBtb => Sys2Proof.Machine.execCacheInvBtb s
  | .ramScrubStep => Sys2Proof.Machine.execRamScrubStep s
  | .flashProgram key => Sys2Proof.Machine.execFlashProgram key s
  | .flashErase key => Sys2Proof.Machine.execFlashErase key s
  | .flashSuspend key => Sys2Proof.Machine.execFlashSuspend key s
  | .eraseSuspended => Sys2Proof.Machine.execEraseSuspended s
  | .flashResume key => Sys2Proof.Machine.execFlashResume key s
  | .flashBcheck key => Sys2Proof.Machine.execFlashBcheck key s
  | .flashMread key lvl => Sys2Proof.Machine.execFlashMread key lvl s
  | .flashAbort key => Sys2Proof.Machine.execFlashAbort key s
  | .flashCommandEnd ok pulses => Sys2Proof.Machine.execFlashCommandEnd ok pulses s
  | .dmaStart n => Sys2Proof.Machine.execDmaStart n s
  | .dmaDescriptor n => Sys2Proof.Machine.execDmaDescriptor n s
  | .dmaAbort n => Sys2Proof.Machine.execDmaAbort n s
  | .stitchStart mask => Sys2Proof.Machine.execStitchStart mask s
  | .stitchSyncStart mask restart => Sys2Proof.Machine.execStitchSyncStart mask restart s
  | .stitchGroupStart => Sys2Proof.Machine.execStitchGroupStart s
  | .stitchStop e => Sys2Proof.Machine.execStitchStop e s
  | .stitchClockRestart mask => Sys2Proof.Machine.execStitchClockRestart mask s
  | .bra e cond arg target ins => Sys2Proof.Machine.execBra e cond arg target ins s
  | .dbnz e c target ins => Sys2Proof.Machine.execDbnz e c target ins s
  | .waitl e pol pin ins => Sys2Proof.Machine.execWaitl e pol pin ins s
  | .waite e pol pin ins => Sys2Proof.Machine.execWaite e pol pin ins s
  | .waitf e pol flag clr ins => Sys2Proof.Machine.execWaitf e pol flag clr ins s
  | .waitt e n ins => Sys2Proof.Machine.execWaitt e n ins s
  | .sho e cm steps ins => Sys2Proof.Machine.execSho e cm steps ins s
  | .stitchShi e cm steps ins => Sys2Proof.Machine.execStitchShi e cm steps ins s
  | .pin e pin act ins => Sys2Proof.Machine.execPin e pin act ins s
  | .pset e dirs v ins => Sys2Proof.Machine.execPset e dirs v ins s
  | .ldc e c fill v ins => Sys2Proof.Machine.execLdc e c fill v ins s
  | .xfer e dst src fn ins => Sys2Proof.Machine.execXfer e dst src fn ins s
  | .pub e ins => Sys2Proof.Machine.execPub e ins s
  | .empty e ins => Sys2Proof.Machine.execEmpty e ins s
  | .setf e fl ins => Sys2Proof.Machine.execSetf e fl ins s
  | .clrf e fl ins => Sys2Proof.Machine.execClrf e fl ins s
  | .evt e ins => Sys2Proof.Machine.execEvt e ins s
  | .halt e ins => Sys2Proof.Machine.execHalt e ins s
  | .shcfg0 e outb inb width k ins => Sys2Proof.Machine.execShcfg0 e outb inb width k ins s
  | .shcfg1 e outb inb width k ins => Sys2Proof.Machine.execShcfg1 e outb inb width k ins s
  | .post e sin ins => Sys2Proof.Machine.execPost e sin ins s
  | .relay e ins => Sys2Proof.Machine.execRelay e ins s
  | .stitchSoutWrite e v => Sys2Proof.Machine.execStitchSoutWrite e v s
  | .stitchSinRead e => Sys2Proof.Machine.execStitchSinRead e s
  | .stitchHsset e mask => Sys2Proof.Machine.execStitchHsset e mask s
  | .stitchHsclr e mask => Sys2Proof.Machine.execStitchHsclr e mask s
  | .stitchInject e v => Sys2Proof.Machine.execStitchInject e v s
  | .stitchImemWrite e w v => Sys2Proof.Machine.execStitchImemWrite e w v s
  | .page x => Sys2Proof.Machine.execPage x s
  | .operation x => Sys2Proof.Machine.execOperation x s
  | .onOffConfig x => Sys2Proof.Machine.execOnOffConfig x s
  | .clearFaults x => Sys2Proof.Machine.execClearFaults x s
  | .writeProtect x => Sys2Proof.Machine.execWriteProtect x s
  | .capability x => Sys2Proof.Machine.execCapability x s
  | .voutMode x => Sys2Proof.Machine.execVoutMode x s
  | .voutCommand x => Sys2Proof.Machine.execVoutCommand x s
  | .voutTransitionRate x => Sys2Proof.Machine.execVoutTransitionRate x s
  | .voutDroop x => Sys2Proof.Machine.execVoutDroop x s
  | .statusByte x => Sys2Proof.Machine.execStatusByte x s
  | .statusWord x => Sys2Proof.Machine.execStatusWord x s
  | .statusVout x => Sys2Proof.Machine.execStatusVout x s
  | .statusIout x => Sys2Proof.Machine.execStatusIout x s
  | .statusInput x => Sys2Proof.Machine.execStatusInput x s
  | .statusTemperature x => Sys2Proof.Machine.execStatusTemperature x s
  | .statusCml x => Sys2Proof.Machine.execStatusCml x s
  | .statusMfrSpecific x => Sys2Proof.Machine.execStatusMfrSpecific x s
  | .readVin x => Sys2Proof.Machine.execReadVin x s
  | .readVout x => Sys2Proof.Machine.execReadVout x s
  | .readIout x => Sys2Proof.Machine.execReadIout x s
  | .readTemperature1 x => Sys2Proof.Machine.execReadTemperature1 x s
  | .readTemperature2 x => Sys2Proof.Machine.execReadTemperature2 x s
  | .pmbusRevision x => Sys2Proof.Machine.execPmbusRevision x s
  | .mfrId x => Sys2Proof.Machine.execMfrId x s
  | .mfrModel x => Sys2Proof.Machine.execMfrModel x s
  | .mfrDeviceState x => Sys2Proof.Machine.execMfrDeviceState x s
  | .mfrLogNext x => Sys2Proof.Machine.execMfrLogNext x s
  | .mfrLogAck x => Sys2Proof.Machine.execMfrLogAck x s
  | .mfrLogStatus x => Sys2Proof.Machine.execMfrLogStatus x s
  | .mfrRailStatus x => Sys2Proof.Machine.execMfrRailStatus x s
  | .mfrReadReg x => Sys2Proof.Machine.execMfrReadReg x s
  | .mfrSafeReturn x => Sys2Proof.Machine.execMfrSafeReturn x s
  | .mfrFwMailbox x => Sys2Proof.Machine.execMfrFwMailbox x s
  | .alertResponse won => Sys2Proof.Machine.execAlertResponse won s
  | .fwAck v => Sys2Proof.Machine.execFwAck v s
  | .fwTimeout => Sys2Proof.Machine.execFwTimeout s
  | .smbusSclTimeout => Sys2Proof.Machine.execSmbusSclTimeout s
  | .smbusSdaStuck => Sys2Proof.Machine.execSmbusSdaStuck s
  | .smbusStuckClear => Sys2Proof.Machine.execSmbusStuckClear s
  | .uartRxCharacter u samples => Sys2Proof.Machine.execUartRxCharacter u samples s
  | .uartBreakRx u len => Sys2Proof.Machine.execUartBreakRx u len s
  | .uartLineFault u => Sys2Proof.Machine.execUartLineFault u s
  | .uartLineOk u => Sys2Proof.Machine.execUartLineOk u s
  | .uartTxFrame u readback => Sys2Proof.Machine.execUartTxFrame u readback s
  | .uartRetry u readback => Sys2Proof.Machine.execUartRetry u readback s
  | .uartTxqWrite u v => Sys2Proof.Machine.execUartTxqWrite u v s
  | .uartRxqRead u => Sys2Proof.Machine.execUartRxqRead u s
  | .uartBreakSend u v => Sys2Proof.Machine.execUartBreakSend u v s
  | .uartEnClear u => Sys2Proof.Machine.execUartEnClear u s
  | .qspiCommand v => Sys2Proof.Machine.execQspiCommand v s
  | .qspiAbort => Sys2Proof.Machine.execQspiAbort s
  | .qspiPoll status => Sys2Proof.Machine.execQspiPoll status s
  | .qspiPollTimeout => Sys2Proof.Machine.execQspiPollTimeout s
  | .qspiCommandEnd data => Sys2Proof.Machine.execQspiCommandEnd data s
  | .qspiWindowRead m addr size line => Sys2Proof.Machine.execQspiWindowRead m addr size line s
  | .qspiSpill ok => Sys2Proof.Machine.execQspiSpill ok s
  | .timerMatch t => Sys2Proof.Machine.execTimerMatch t s
  | .timerWrap t => Sys2Proof.Machine.execTimerWrap t s
  | .timerOneshotDone t => Sys2Proof.Machine.execTimerOneshotDone t s
  | .timerCtrlWrite t v => Sys2Proof.Machine.execTimerCtrlWrite t v s
  | .timerCountWrite t v => Sys2Proof.Machine.execTimerCountWrite t v s
  | .timerGstartWrite v => Sys2Proof.Machine.execTimerGstartWrite v s
  | .timerGset mask => Sys2Proof.Machine.execTimerGset mask s
  | .timerGclr mask => Sys2Proof.Machine.execTimerGclr mask s
  | .gpioSet k v => Sys2Proof.Machine.execGpioSet k v s
  | .gpioClr k v => Sys2Proof.Machine.execGpioClr k v s
  | .gpioEdge j level => Sys2Proof.Machine.execGpioEdge j level s
  | .headCell lane => Sys2Proof.Machine.execHeadCell lane s
  | .spanTargetEffect ch => Sys2Proof.Machine.execSpanTargetEffect ch s
  | .rootReferenceFail => Sys2Proof.Machine.execRootReferenceFail s
  | .unsupportedCommand code => Sys2Proof.Machine.execUnsupportedCommand code s
  | .coreDebugAccess wr addr size v halt => Sys2Proof.Machine.execCoreDebugAccess wr addr size v halt s

end Sys2Proof.Machine
end

