-- ==== Sys2Proof/Machine/Pins.lean ====
section
/-! DEFINITION. The digital balls of the package (R536-R538, R549, R556): what the device drives on each, its pull, its cell
of the boundary-scan register. -/
namespace Sys2Proof.Machine

/-- The balls of types PWM3, IO, I, O, IS, OD and SMB (R536, R537). -/
inductive Ball where
  | pwm (i : Fin 32)
  | gp (j : Fin 40)
  | qspiIo (k : Fin 4)
  | qspiCs
  | qspiSck
  | tdo
  | addr (k : Fin 3)
  | tck
  | tms
  | tdi
  | trst
  | intCk
  | intD (k : Fin 2)
  | chainRoot
  | en (n : Fin 8)
  | stgflt (k : Fin 8)
  | resetN
  | faultN
  | pgood
  | scl
  | sda
  | alertN
  deriving DecidableEq, Repr, Inhabited

/-- What the device puts on a ball: high impedance, a level, or levels that change within a transfer. -/
inductive BallLevel where
  | z
  | low
  | high
  | moving
  deriving DecidableEq, Repr, Inhabited

/-- A pull to VSS or to the ball's supply. -/
inductive Pull where
  | down
  | up
  deriving DecidableEq, Repr, Inhabited

def BallLevel.of (v : Bool) : BallLevel := if v then .high else .low

/-- A ball that can drive: PWM3, IO, O, OD or SMB (R537). -/
def Ball.output : Ball → Bool
  | .pwm _ | .gp _ | .qspiIo _ | .qspiCs | .qspiSck | .tdo | .faultN | .pgood | .scl | .sda | .alertN => true
  | .addr _ | .tck | .tms | .tdi | .trst | .intCk | .intD _ | .chainRoot | .en _ | .stgflt _ | .resetN => false

/-- A ball that only pulls low or releases: OD or SMB (R537). -/
def Ball.openDrain : Ball → Bool
  | .faultN | .pgood | .scl | .sda | .alertN => true
  | _ => false

/-- The ball's cell of the boundary-scan register (R556), which has 112. DESIGN CHOICE (log 83): their order. -/
def Ball.cell : Ball → Nat
  | .pwm i => i
  | .gp j => 32 + j
  | .qspiIo k => 72 + k
  | .qspiCs => 76
  | .qspiSck => 77
  | .tdo => 78
  | .addr k => 79 + k
  | .tck => 82
  | .tms => 83
  | .tdi => 84
  | .trst => 85
  | .intCk => 86
  | .intD k => 87 + k
  | .chainRoot => 89
  | .en n => 90 + n
  | .stgflt k => 98 + k
  | .resetN => 106
  | .faultN => 107
  | .pgood => 108
  | .scl => 109
  | .sda => 110
  | .alertN => 111

/-- The internal pull of a ball (R536, R549): of a general pin the one its function selects, of the others the table's. -/
def Dev.ballPull (d : Dev) : Ball → Option Pull
  | .gp j => if !d.mode.dormant && d.gpPull j then some .up else none
  | .qspiCs | .qspiIo _ | .tms | .tdi | .resetN | .stgflt _ | .intD _ => some .up
  | .qspiSck | .tck | .trst | .addr _ | .intCk | .chainRoot | .en _ => some .down
  | .pwm _ | .tdo | .faultN | .pgood | .scl | .sda | .alertN => none

/-- An open-drain ball for the level `v`. -/
def BallLevel.od (v : Bool) : BallLevel := if v then .z else .low

/-- What the device's own functions put on a ball (R149, R171, R491, R499, R513, R527, R536, R538). While the QSPI
controller is off its balls are high impedance; between its transfers chip select is high and the clock, of SPI mode 0, low.
A row brings a whole transaction of the host bus, so the device drives SDA between no two rows. TDO is driven in shift
states only, which no row enters. -/
def Dev.ballOwn (d : Dev) (vddio : Bool) : Ball → BallLevel
  | .pwm i =>
    let lv := d.f SLICE_STAT_LEVEL i
    if lv = lvHigh then .high else if lv = lvLow then .low else .z
  | .gp j =>
    let b := d.gpio.balls.headD (0, 0)
    if bit b.1 j then .of (bit b.2 j) else .z
  | .qspiCs => if !d.b QSPI_CTRL_EN then .z else .of (!bit d.qsStat 0)
  | .qspiSck => if !d.b QSPI_CTRL_EN then .z else if bit d.qsStat 0 then .moving else .low
  | .qspiIo _ => if d.b QSPI_CTRL_EN && bit d.qsStat 0 then .moving else .z
  | .faultN => match d.odPin vddio d.faultN with | some v => .od v | none => .z
  | .pgood => match d.odPin vddio d.pgood with | some v => .od v | none => .z
  | .scl => .od !d.b HB_STAT_STRETCH
  | .alertN => .od !d.alertLow
  | _ => .z

/-- What is on a ball: under power-on reset its reset state (R536, R538); else what a pin-driving JTAG instruction holds
there, on a ball that can drive (R346, R556); else the device's own. -/
def Dev.ballLevel (d : Dev) (vddio : Bool) (b : Ball) : BallLevel :=
  if d.mode.dormant then (match b with | .faultN | .pgood => d.ballOwn vddio b | _ => .z)
  else match d.sec.jtagDrive with
    | some v => if !b.output then .z else if b.openDrain then .od (bit v b.cell) else .of (bit v b.cell)
    | none => d.ballOwn vddio b

end Sys2Proof.Machine
end

