-- ==== Sys2Proof/Safety.lean ====
section
/-! DEFINITION. The terms in which claims about the device are stated: answering a next state, what two states share, and
the conditions under which a core runs an instruction to its end. -/
namespace Sys2Proof.Machine

/-! ### Outcomes -/

/-- Command `i` on state `s` completes in a state of which `P` holds. -/
def Completes (i : Instr) (s : State) (P : State → Prop) : Prop := ∃ t, exec i s = .next t ∧ P t

/-! ### What stays -/

/-- Every byte of memory reads as before. -/
def SameMem (s t : State) : Prop := ∀ a, t.mem.read a = s.mem.read a

/-- Every byte of memory outside the `n` bytes from key `k` reads as before. -/
def SameMemBut (s t : State) (k n : Nat) : Prop := ∀ a, a < k ∨ k + n ≤ a → t.mem.read a = s.mem.read a

/-- Every register outside the addresses `l` reads as before. -/
def SameRegsBut (s t : State) (l : List Nat) : Prop := ∀ a, a ∉ l → t.dev.rd a = s.dev.rd a

/-- The core pair is as before. -/
def SameCpu (s t : State) : Prop := t.dev.cpu = s.dev.cpu

/-- The queue of waiting commands is as before. -/
def SameQueue (s t : State) : Prop := t.pending = s.pending

/-! ### The memory's canonical form -/

/-- The invariant of the addressed memories: addresses rise strictly, and no entry equals what an unlisted byte reads
as. -/
def MemInv (s : State) : Prop := s.mem.wf = true

/-! ### A core that runs an instruction to its end -/

/-- The main supplies are present (R43). -/
def Powered (s : State) : Prop := s.dev.mode.dormant = false

/-- Nothing waits for the next instruction boundary: no SAFE exception, no handover whose core B has halted (R404,
R425). -/
def Calm (s : State) : Prop :=
  s.dev.cpu.safeDue = false ∧ (s.dev.split = false ∨ s.dev.cpu.b.halted = false)

/-- The core that stands for `c`. -/
def State.lead (s : State) (c : CoreId) : CoreSt := s.dev.core (s.dev.lead c)

/-- Both cores of a pair in lockstep hold the same registers, as R416 compares them. -/
def Alike (s : State) : Prop := s.dev.lockstep = true → s.dev.cpu.a = s.dev.cpu.b

/-- The instruction of `len` bytes at the PC of core `c` can be fetched without changing anything (R35, R37). -/
def Fetches (s : State) (c : CoreId) (len : Nat) : Prop :=
  ∃ v, s.fetchAll c (s.pcOf c).toNat len = (s, .ok v)

/-- Core `c` runs the instruction of `len` bytes at its PC: it executes, does not wait, can fetch it, is alike its peer, no
checkpoint is due first, and nothing else waits for the boundary. -/
structure Ready (s : State) (c : CoreId) (len : Nat) : Prop where
  runs : s.dev.executes c = true
  awake : (s.lead c).wfe = false
  fetch : Fetches s c len
  alike : Alike s
  calm : Calm s
  settled : s.dev.checkpointDue = false

/-- Core `c` stands outside every atomic window (R389). -/
def NoWindow (s : State) (c : CoreId) : Prop := (s.lead c).aw = false

/-! ### An instruction that retires -/

/-- PSR without the fields AW and AWCNT of an open window (R365). -/
def psrRest (p : Word) : Word := p &&& 0xFFFFF01F

/-- PSR goes from `p` to `q` by one instruction retired inside an open window: AWCNT counts it, and the last one of the
count closes the window, with AW and AWCNT 0 (R389). -/
def WindowStep (p q : Word) : Prop :=
  if bits p.toNat 6 6 ≤ 1 then bits q.toNat 5 7 = 0 else bit q.toNat 5 = true ∧ bits q.toNat 6 6 = bits p.toNat 6 6 - 1

/-- No loop of core `x` that is active ends at its PC (R380). -/
def NoLoopEnd (x : CoreSt) : Prop := ∀ l < 3, x.lc.getD l 0 = 0 ∨ x.le.getD l 0 ≠ x.pc

/-- Every general register but those of `l` is as before. -/
def SameGrBut (x y : CoreSt) (l : List Nat) : Prop := ∀ i < 16, i ∉ l → y.gr i = x.gr i

/-- What an instruction leaves of a core beside its general registers, PC, PSR and loop counts: TSBP, ATOM_MAX, LS, LE,
CYCLE_HI and the core's own modes. -/
def SameSpecial (x y : CoreSt) : Prop :=
  y.tsbp = x.tsbp ∧ y.atomMax = x.atomMax ∧ y.ls = x.ls ∧ y.le = x.le ∧ y.cycHi = x.cycHi ∧ y.run = x.run ∧
    y.halted = x.halted ∧ y.debug = x.debug

/-- What an instruction of core `c` leaves beside the memory: every register of the device, everything else of it, the
core that does not run it, the checkpoint and the logs. -/
def SameButCores (s t : State) (c : CoreId) : Prop :=
  (∀ a, t.dev.rd a = s.dev.rd a) ∧ { t.dev with cpu := s.dev.cpu } = s.dev ∧
    (∀ k, k ∉ s.dev.pair c → t.dev.core k = s.dev.core k) ∧
    { t.dev.cpu with a := s.dev.cpu.a, b := s.dev.cpu.b, since := s.dev.cpu.since } = s.dev.cpu

/-- The frame of an instruction of core `c` that reaches no memory: memory, queue and everything of `SameButCores`. -/
def OnlyCore (s t : State) (c : CoreId) : Prop := SameMem s t ∧ SameQueue s t ∧ SameButCores s t c

/-- Core state `y` follows `x` by the retirement of an instruction of `len` bytes that is no taken transfer: the registers
of `wr` take their values and no other changes, PSR outside the window count is `psr` (all of it outside a window), PC goes
on to the next instruction with the loop counts as they are unless a loop ends here (R380), INSTRET counts it, and so does
a window that was open and that `psr` leaves open (R389). -/
structure Retired (x y : CoreSt) (len : Nat) (wr : List (Nat × Word)) (psr : Word) : Prop where
  wrote : ∀ w ∈ wr, y.gr w.1 = w.2
  kept : SameGrBut x y (wr.map (·.1))
  psrIs : psrRest y.psr = psrRest psr
  psrAll : x.aw = false → y.psr = psr
  next : NoLoopEnd x → y.pc = x.pc + BitVec.ofNat 32 len ∧ y.lc = x.lc
  special : SameSpecial x y
  counted : y.instret = x.instret + 1
  window : x.aw = true → bit psr.toNat 5 = true → WindowStep psr y.psr

/-- The same for a taken transfer to `dest`, which makes no loop-end test (R381). -/
structure Jumped (x y : CoreSt) (dest : Word) (wr : List (Nat × Word)) : Prop where
  wrote : ∀ w ∈ wr, y.gr w.1 = w.2
  kept : SameGrBut x y (wr.map (·.1))
  psrIs : psrRest y.psr = psrRest x.psr
  pcIs : y.pc = dest
  lcIs : y.lc = x.lc
  special : SameSpecial x y
  counted : y.instret = x.instret + 1
  window : x.aw = true → WindowStep x.psr y.psr

/-- On every ready core, instruction `i` of `len` bytes on core `c` retires, writes the registers `wr` and leaves PSR at
`psr`, both functions of the core before it; memory, queue, device registers and everything else stay. -/
def RetiresWith (i : Instr) (c : CoreId) (len : Nat) (wr : CoreSt → List (Nat × Word)) (psr : CoreSt → Word) : Prop :=
  ∀ s, Ready s c len → Completes i s fun t =>
    OnlyCore s t c ∧ ∀ k ∈ s.dev.pair c, Retired (s.dev.core k) (t.dev.core k) len (wr (s.dev.core k)) (psr (s.dev.core k))

/-- On every ready core, `i` writes `v` to general register `rd` and no flag. -/
def Puts (i : Instr) (c : CoreId) (len : Nat) (rd : Nat) (v : CoreSt → Word) : Prop :=
  RetiresWith i c len (fun x => [(rd, v x)]) fun x => x.psr

/-- The four flags of PSR at the given values, the rest of PSR as it was: `none` leaves a flag (R374). -/
def withFlags (p : Word) (n z : Bool) (c v : Option Bool) : Word :=
  let put := fun (p : Word) (k : Nat) (b : Bool) => if b then p ||| (1#32 <<< k) else p &&& ~~~(1#32 <<< k)
  let p := put (put p 31 n) 30 z
  let p := match c with
    | some b => put p 29 b
    | none => p
  match v with
  | some b => put p 28 b
  | none => p

/-- Instruction `i` is an ALU function of g[rs1], g[rs2] and PSR: rd takes `r`; where `sets` holds, N and Z are those of
the result, and C and V are what `cf` and `vf` give, `none` leaving them; otherwise no flag changes (R374). -/
def AluDoes (i : Instr) (c : CoreId) (rd rs1 rs2 : Nat) (sets : Bool) (r : Word → Word → Word → Word)
    (cf vf : Word → Word → Word → Option Bool) : Prop :=
  RetiresWith i c 4 (fun x => [(rd, r (x.gr rs1) (x.gr rs2) x.psr)]) fun x =>
    let v := r (x.gr rs1) (x.gr rs2) x.psr
    if sets then withFlags x.psr v.msb (v == 0) (cf (x.gr rs1) (x.gr rs2) x.psr) (vf (x.gr rs1) (x.gr rs2) x.psr)
    else x.psr

/-- Instruction `i` sets the flags of a - b and writes no register (R374). -/
def Compares (i : Instr) (c : CoreId) (len : Nat) (a b : CoreSt → Word) : Prop :=
  RetiresWith i c len (fun _ => []) fun x =>
    withFlags x.psr (a x - b x).msb (a x == b x) (some (decide ((b x).toNat ≤ (a x).toNat))) (some ((a x).ssubOverflow (b x)))

/-- `RetiresWith`, on the cores of which `pre` holds. -/
def RetiresIf (i : Instr) (c : CoreId) (len : Nat) (pre : CoreSt → Prop) (wr : CoreSt → List (Nat × Word))
    (psr : CoreSt → Word) : Prop :=
  ∀ s, Ready s c len → pre (s.lead c) → Completes i s fun t =>
    OnlyCore s t c ∧ ∀ k ∈ s.dev.pair c, Retired (s.dev.core k) (t.dev.core k) len (wr (s.dev.core k)) (psr (s.dev.core k))

/-- On every ready core of which `pre` holds, `i` is a taken transfer to `dest` that writes the registers `wr`. -/
def Jumps (i : Instr) (c : CoreId) (len : Nat) (pre : CoreSt → Prop) (dest : CoreSt → Word)
    (wr : CoreSt → List (Nat × Word)) : Prop :=
  ∀ s, Ready s c len → pre (s.lead c) → Completes i s fun t =>
    OnlyCore s t c ∧ ∀ k ∈ s.dev.pair c, Jumped (s.dev.core k) (t.dev.core k) (dest (s.dev.core k)) (wr (s.dev.core k))

/-- What an instruction of `len` bytes leaves that writes no general register, where the special registers are said
apart: the general registers, PSR outside the window count at `psr`, the modes of the core, INSTRET counted. -/
structure Moved (x y : CoreSt) (psr : Word) : Prop where
  kept : SameGrBut x y []
  psrIs : psrRest y.psr = psrRest psr
  modes : y.run = x.run ∧ y.halted = x.halted ∧ y.debug = x.debug
  counted : y.instret = x.instret + 1

/-- Loop `l` of a core is set up: LS, LE and LC take the values given, and those of the other loops stay (R366, R379). -/
def LoopSet (x y : CoreSt) (l : Nat) (ls le lc : Word) : Prop :=
  ∀ m < 3, y.ls.getD m 0 = (if m = l then ls else x.ls.getD m 0) ∧ y.le.getD m 0 = (if m = l then le else x.le.getD m 0) ∧
    y.lc.getD m 0 = (if m = l then lc else x.lc.getD m 0)

/-- The nesting that LP of loop `l` with end `le` needs: no loop inside it is active, and it ends no later than an active
loop around it (R379). -/
def Nests (x : CoreSt) (l : Nat) (le : Word) : Prop :=
  (∀ m < 3, l < m → x.lc.getD m 0 = 0) ∧
    (0 < l → x.lc.getD (l - 1) 0 = 0 ∨ le.toNat ≤ (x.le.getD (l - 1) 0).toNat)

/-- Some event of a priority above `ipl` is pending (R412, R413). -/
def EventAbove (d : Dev) (ipl : Nat) : Prop := ∃ k < 128, d.eventPending k = true ∧ ipl < d.eventPrio k

/-- The RAM word at `k` holds no error. -/
def WordClean (s : State) (k : Nat) : Prop := k ∉ s.dev.flash.ue ∧ k ∉ s.dev.flash.ce

/-! ### Taking an exception (R404-R407) -/

/-- The core that stands for `c` can take exception `n`: its new TSB lies in SRAM, it is not in the emergency block
(R410), and no window of another core holds the bank of the TSB (R391). -/
def CanEnter (s : State) (c : CoreId) : Prop :=
  tsbInSram ((s.lead c).tsbp - 0x60).toNat = true ∧ s.dev.cf (s.dev.lead c) CORE_STAT_DBL = 0 ∧ s.dev.entryHeld c = false

/-- From `s` the cores that run for `c` have taken exception `n` with `pc` saved, the upper bits of SYND and FADDR as
given, `x` the registers saved: the TSB at the new TSBP holds PC, PSR, SYND, FADDR, g0 to g15, CYCLE and the number of the
checkpoint; no other byte of memory changes; S is 1, IE, AW, AWCNT and BK are 0, the rest of PSR stays; PC is at the
vector slot; the general and loop registers stay; of the device's registers only CORE_CKPT changes. -/
structure Entered (s t : State) (c : CoreId) (n : Nat) (pc : Word) (synd faddr : Nat) : Prop where
  savedPc : t.mem.readN 4 ((s.lead c).tsbp - 0x60).toNat = pc.toNat
  savedPsr : t.mem.readN 4 (((s.lead c).tsbp - 0x60).toNat + 4) = (s.lead c).psr.toNat
  savedSynd : t.mem.readN 4 (((s.lead c).tsbp - 0x60).toNat + 8) = n + synd
  savedFaddr : t.mem.readN 4 (((s.lead c).tsbp - 0x60).toNat + 12) = faddr
  savedGr : ∀ i < 16, t.mem.readN 4 (((s.lead c).tsbp - 0x60).toNat + 16 + 4 * i) = ((s.lead c).gr i).toNat
  savedCycle : t.mem.readN 4 (((s.lead c).tsbp - 0x60).toNat + 0x50) = s.dev.cycle % 2 ^ 32
  savedCkpt : t.mem.readN 4 (((s.lead c).tsbp - 0x60).toNat + 0x54) =
    if s.dev.split then s.dev.cr (s.dev.lead c) CORE_CKPT else (s.dev.r CORE_CKPT + 1) % 2 ^ 32
  memory : SameMemBut s t ((s.lead c).tsbp - 0x60).toNat 0x60
  queue : SameQueue s t
  regs : SameRegsBut s t [CORE_CKPT.addr 0]
  ckpt : t.dev.r CORE_CKPT = if s.dev.split then s.dev.r CORE_CKPT else (s.dev.r CORE_CKPT + 1) % 2 ^ 32
  other : ∀ k, k ∉ s.dev.pair c → t.dev.core k = s.dev.core k
  tsbp : ∀ k ∈ s.dev.pair c, (t.dev.core k).tsbp = (s.dev.core k).tsbp - 0x60
  psr : ∀ k ∈ s.dev.pair c, (t.dev.core k).psr = (s.dev.core k).psr &&& 0xFFFFE01D ||| 1
  vector : ∀ k ∈ s.dev.pair c,
    (t.dev.core k).pc = BitVec.ofNat 32 (s.dev.cr (s.dev.lead c) CORE_VBASE + 0x100 + 16 * n)
  gr : ∀ k ∈ s.dev.pair c, ∀ i < 16, (t.dev.core k).gr i = (s.dev.core k).gr i
  loops : ∀ k ∈ s.dev.pair c, (t.dev.core k).ls = (s.dev.core k).ls ∧ (t.dev.core k).le = (s.dev.core k).le ∧
    (t.dev.core k).lc = (s.dev.core k).lc

/-- On every ready core of which `pre` holds and which can take an exception, `i` raises exception `n` at its own address,
with the upper bits of SYND and FADDR as given, and has no other effect. -/
def Raises (i : Instr) (c : CoreId) (len : Nat) (pre : CoreSt → Prop) (n : Nat) (synd faddr : CoreSt → Nat) : Prop :=
  ∀ s, Ready s c len → CanEnter s c → pre (s.lead c) →
    Completes i s fun t => Entered s t c n (s.pcOf c) (synd (s.lead c)) (faddr (s.lead c))

/-! ### Accesses to SRAM (R377, R431) -/

/-- Core `c` can access the `size` bytes of SRAM at `a`: inside SRAM, aligned, the bank not held by another core's window
(R391), the word without an error, and no replay in progress (R419). -/
structure SramFor (s : State) (c : CoreId) (a size : Nat) : Prop where
  low : 0x20000000 ≤ a
  high : a + size ≤ 0x20080000
  aligned : a % size = 0
  free : s.dev.bankHeld (s.dev.coreMaster c) (sramBank a) = false
  clean : WordClean s (a - a % 4)
  noReplay : s.dev.cpu.replay = none

/-- The frame of an instruction of core `c` that accesses SRAM: the queue, every register of the device, everything else of
it but the core pair, and the core that does not run it. -/
def AccessFrame (s t : State) (c : CoreId) : Prop :=
  SameQueue s t ∧ (∀ a, t.dev.rd a = s.dev.rd a) ∧ { t.dev with cpu := s.dev.cpu } = s.dev ∧
    ∀ k, k ∉ s.dev.pair c → t.dev.core k = s.dev.core k

/-- `i` loads `size` bytes of SRAM at `ea` into rd, extended by sign or by zero, and writes the registers `upd` besides. -/
def LoadsFrom (i : Instr) (c : CoreId) (len size : Nat) (signed : Bool) (rd : Nat) (ea : CoreSt → Word)
    (upd : CoreSt → List (Nat × Word)) : Prop :=
  ∀ s, Ready s c len → SramFor s c (ea (s.lead c)).toNat size → Completes i s fun t =>
    SameMem s t ∧ AccessFrame s t c ∧ ∀ k ∈ s.dev.pair c,
      let v := s.mem.readN size (ea (s.lead c)).toNat
      Retired (s.dev.core k) (t.dev.core k) len
        (upd (s.dev.core k) ++ [(rd, if signed then (BitVec.ofNat (8 * size) v).signExtend 32 else BitVec.ofNat 32 v)])
        (s.dev.core k).psr

/-- `i` stores the low `size` bytes of rd in SRAM at `ea`, and writes the registers `upd` besides. -/
def StoresTo (i : Instr) (c : CoreId) (len size : Nat) (rd : Nat) (ea : CoreSt → Word)
    (upd : CoreSt → List (Nat × Word)) : Prop :=
  ∀ s, Ready s c len → SramFor s c (ea (s.lead c)).toNat size → Completes i s fun t =>
    t.mem.readN size (ea (s.lead c)).toNat = ((s.lead c).gr rd).toNat % 2 ^ (8 * size) ∧
    SameMemBut s t (ea (s.lead c)).toNat size ∧ AccessFrame s t c ∧ ∀ k ∈ s.dev.pair c,
      Retired (s.dev.core k) (t.dev.core k) len (upd (s.dev.core k)) (s.dev.core k).psr

/-! ### Commands that act on the device alone -/

/-- On every powered device of which `pre` holds, command `i` completes: the memories and the queue keep their contents,
and `post` holds of the device before and after. -/
def Acts (i : Instr) (pre : State → Prop) (post : Dev → Dev → Prop) : Prop :=
  ∀ s, Powered s → pre s → Completes i s fun t => SameMem s t ∧ SameQueue s t ∧ post s.dev t.dev

/-- The registers of the device outside the addresses `l` read as before. -/
def OnlyRegs (l : List Nat) (d t : Dev) : Prop := ∀ a, a ∉ l → t.rd a = d.rd a

/-- `Acts`, where the device changes in the registers of the addresses `l` and in the answer of the bus, and in nothing
else. -/
def ActsOn (i : Instr) (pre : State → Prop) (l : List Nat) (post : Dev → Dev → Prop) : Prop :=
  Acts i pre fun d t => OnlyRegs l d t ∧ { t with regs := d.regs, act := d.act, bus := d.bus } = d ∧ post d t

/-- The fabric domain has its clock (R22, R25). -/
def FabricRuns (s : State) : Prop := s.dev.fabricStopped = false

/-- The commands that are happenings of the fabric domain: of the rails, slices and housekeeping, Hawkmoth, the ring, the
swap instants, the measurements and the stitch engines (R22). -/
def fabricRow : Instr → Bool
  | .decision .. | .housekeepingSlot .. | .tonDelayExpiry .. | .prebiasMeasurement .. | .powerGoodQualified ..
  | .commitTakeForce .. | .slicePeriodBoundary .. | .intentFrame .. | .intentFrameTruncated .. | .intentFrameLong
  | .intentPortStuck .. | .intentPortUnstuck | .predictionBiasStart .. | .scheduleSegment .. | .predictionMiss ..
  | .reversal .. | .predictionEnd .. | .observationExpiry .. | .signatureLearn .. | .signatureAgeTick ..
  | .periodBoundary .. | .stageFaultSample .. | .attributionWindowClose .. | .enpinLow .. | .dischargeTimeout ..
  | .calOffsetDone .. | .calPulseEnd .. | .calResult .. | .calZmaxExpiry .. | .ringCell .. | .laneRun .. | .laneFailed ..
  | .holdoverExpired | .rtSet .. | .positionWaitTimeout | .spanStart .. | .spanPlan .. | .spanTarget .. | .spanXfer ..
  | .sigRelay .. | .leadMove .. | .spanReady .. | .spanCause .. | .withdrawn .. | .enumStart | .enumTimeout
  | .spanBegin .. | .spanAutoEnter .. | .spanAutoExit .. | .leadTakeover .. | .swapSectionsTakeForce | .openWireTestEnd
  | .captureTimeout | .passWaitTimeout | .stitchGroupStart | .bra .. | .dbnz .. | .waitl .. | .waite .. | .waitf ..
  | .waitt .. | .sho .. | .stitchShi .. | .pin .. | .pset .. | .ldc .. | .xfer .. | .pub .. | .empty .. | .setf ..
  | .clrf .. | .evt .. | .halt .. | .shcfg0 .. | .shcfg1 .. | .post .. | .relay .. | .headCell .. | .spanTargetEffect .. => true
  | _ => false

/-- `Acts`, for a happening of the fabric domain, which needs that domain's clock. -/
def Runs (i : Instr) (pre : State → Prop) (post : Dev → Dev → Prop) : Prop := Acts i (fun s => FabricRuns s ∧ pre s) post

/-- `ActsOn`, for a happening of the fabric domain. -/
def RunsOn (i : Instr) (pre : State → Prop) (l : List Nat) (post : Dev → Dev → Prop) : Prop :=
  ActsOn i (fun s => FabricRuns s ∧ pre s) l post

/-- On every powered device of which `pre` holds, in a mode other than SAFE, `i` makes it enter SAFE with `cause`, and the
shutdown-cause record of BD_REG says so (R302, R319). -/
def EntersSafe (i : Instr) (pre : State → Prop) (cause : Nat) : Prop :=
  ∀ s, Powered s → pre s → s.dev.modeNow ≠ modeSafe → Completes i s fun t =>
    SameQueue s t ∧ t.dev.modeNow = modeSafe ∧ t.dev.f SYSCTL_MODE_SAFE_CAUSE = cause ∧
      bits (t.dev.r BD_REG (2 * s.dev.f BD_STAT_SREC_NEXT)) 0 8 = cause

/-- A boot that is cold or not finds the fuses and the factory calibration in order, the device not SCRAPPED and the PLL not
locked: the ROM waits in step 2 (R333, R334). A cold boot reads the calibration rows, another one keeps what was found (R450,
R456). -/
structure RomWaits (s : State) (cold : Bool) : Prop where
  pll : s.dev.b SYSCTL_CLK_PLL_LOCK = false
  cal : if cold then s.mem.completeFuses.fcalOk 0 = true ∨ s.mem.completeFuses.fcalOk 1 = true
    else s.dev.b FLASHC_STAT_FCAL_OK = true
  fuses : s.mem.completeFuses.fuseWrong = false
  alive : s.mem.completeFuses.lifecycle ≠ lcScrapped

/-! ### Entries of the log, and commands without effect -/

/-- An entry of class `cls`, TYPE `typ` and SRC `src` with the words `data` has arrived at the intake queue, where the queue
had room for it (R289). -/
def Arrives (d t : Dev) (cls typ src : Nat) (data : List Nat) : Prop :=
  d.log.intake.length < 40 → ∃ e ∈ t.log.intake, e.cls = cls ∧ e.typ = typ ∧ e.src = src ∧ e.data = data

/-- On every state of which `pre` holds, command `i` completes and changes nothing. -/
def NoEffect (i : Instr) (pre : State → Prop) : Prop := ∀ s, pre s → exec i s = .next s

/-- A bus write that SAFE does not refuse (R303). -/
def Unlocked (s : State) : Prop := s.dev.modeNow ≠ modeSafe

/-- Every register of the device reads as before. -/
def SameRegs (d t : Dev) : Prop := ∀ a, t.rd a = d.rd a

/-- `Acts`, where the device changes in the registers of the addresses `l` and in the host port, and in nothing else. -/
def ActsOnHost (i : Instr) (pre : State → Prop) (l : List Nat) (post : Dev → Dev → Prop) : Prop :=
  Acts i pre fun d t => OnlyRegs l d t ∧ { t with regs := d.regs, act := d.act, host := d.host } = d ∧ post d t

end Sys2Proof.Machine
end

