-- ==== Sys2Proof/WellFormed.lean ====
section
/-! DEFINITION. The commands a sender may give: what the operands' types leave open, checked. `exec` is total on the
others too. -/
namespace Sys2Proof

/-- A bus access is of 1, 2 or 4 bytes (R36). -/
def sizeOk (size : Nat) : Bool := size == 1 || size == 2 || size == 4

/-- A host transaction has a write part, a read part or both, and at most 32 data bytes (R488). -/
def HostXact.wf (x : HostXact) : Bool := (x.read || x.data.isSome) && decide ((x.data.getD []).length ≤ 32)

/-- A stitch instruction runs for at least one tick, each with its pin sample (R470). -/
def samplesOk (ins : List (BitVec 8)) : Bool := !ins.isEmpty

/-- A time since a cell left its sender fits 32 bits of RT (R197). -/
def latencyOk (n : Nat) : Bool := decide (n < 2 ^ 32)

/-- The command is well formed. -/
def Instr.wf : Instr → Bool
  | .registerWrite _ _ size _ => sizeOk size
  | .decision _ _ raws _ => raws.length == 32
  | .prebiasMeasurement _ vs => decide (vs.length ≤ 64)
  | .intentFrameTruncated edges => decide (0 < edges) && decide (edges < 20)
  | .ringCell _ _ late => latencyOk late
  | .rtSet _ latency => latencyOk latency
  | .sigRelay _ _ _ latency => latencyOk latency
  | .debugUnlock _ pk _ => pk.length == 1793
  | .bra _ _ _ _ ins => samplesOk ins
  | .dbnz _ _ _ ins => samplesOk ins
  | .waitl _ _ _ ins => samplesOk ins
  | .waite _ _ _ ins => samplesOk ins
  | .waitf _ _ _ _ ins => samplesOk ins
  | .waitt _ _ ins => samplesOk ins
  | .sho _ _ _ ins => samplesOk ins
  | .stitchShi _ _ _ ins => samplesOk ins
  | .pin _ _ _ ins => samplesOk ins
  | .pset _ _ _ ins => samplesOk ins
  | .ldc _ _ _ _ ins => samplesOk ins
  | .xfer _ _ _ _ ins => samplesOk ins
  | .pub _ ins => samplesOk ins
  | .empty _ ins => samplesOk ins
  | .setf _ _ ins => samplesOk ins
  | .clrf _ _ ins => samplesOk ins
  | .evt _ ins => samplesOk ins
  | .halt _ ins => samplesOk ins
  | .shcfg0 _ _ _ _ _ ins => samplesOk ins
  | .shcfg1 _ _ _ _ _ ins => samplesOk ins
  | .post _ _ ins => samplesOk ins
  | .relay _ ins => samplesOk ins
  | .page x => x.wf
  | .operation x => x.wf
  | .onOffConfig x => x.wf
  | .clearFaults x => x.wf
  | .writeProtect x => x.wf
  | .capability x => x.wf
  | .voutMode x => x.wf
  | .voutCommand x => x.wf
  | .voutTransitionRate x => x.wf
  | .voutDroop x => x.wf
  | .statusByte x => x.wf
  | .statusWord x => x.wf
  | .statusVout x => x.wf
  | .statusIout x => x.wf
  | .statusInput x => x.wf
  | .statusTemperature x => x.wf
  | .statusCml x => x.wf
  | .statusMfrSpecific x => x.wf
  | .readVin x => x.wf
  | .readVout x => x.wf
  | .readIout x => x.wf
  | .readTemperature1 x => x.wf
  | .readTemperature2 x => x.wf
  | .pmbusRevision x => x.wf
  | .mfrId x => x.wf
  | .mfrModel x => x.wf
  | .mfrDeviceState x => x.wf
  | .mfrLogNext x => x.wf
  | .mfrLogAck x => x.wf
  | .mfrLogStatus x => x.wf
  | .mfrRailStatus x => x.wf
  | .mfrReadReg x => x.wf
  | .mfrSafeReturn x => x.wf
  | .mfrFwMailbox x => x.wf
  | .uartRxCharacter _ samples => !samples.isEmpty && samples.length % 16 == 0
  | .qspiWindowRead _ _ size line => sizeOk size && line.length == 32
  | .coreDebugAccess _ _ size _ _ => sizeOk size
  | _ => true

end Sys2Proof
end

