-- ==== Sys2Proof/Certificates/Slice0/Obligations.lean ====
section
/-! DEFINITION. The statements for the provers: what the commands of each family do, in the terms of Safety, from the rules
of spec/; the step; the invariant of the addressed memories. -/
open Sys2Proof Sys2Proof.Machine

/-- A step on a queue with `c` at its front is `c` on the state with the queue's rest. -/
def Obligations.StepRunsFront : Prop :=
  ∀ (c : Instr) (rest : List Instr) (s : State), s.pending = c :: rest → step s = exec c { s with pending := rest }

/-! ### The core: arithmetic (R370-R376) -/

/-- R374 (its twelve rows that are no shift): each ALU function of two registers writes its result to rd on a ready core,
sets N, Z, C and V as the table says where S is 1, leaves PSR where S is 0, and leaves everything else. -/
def Obligations.AluFunctionsRetire : Prop :=
  ∀ (c : CoreId) (rd rs1 rs2 : Fin 16) (sets : Bool),
    AluDoes (.add c rd rs1 rs2 sets 0) c rd rs1 rs2 sets (fun a b _ => a + b)
      (fun a b _ => some (decide (2 ^ 32 ≤ a.toNat + b.toNat))) (fun a b _ => some (a.saddOverflow b)) ∧
    AluDoes (.sub c rd rs1 rs2 sets 0) c rd rs1 rs2 sets (fun a b _ => a - b)
      (fun a b _ => some (decide (b.toNat ≤ a.toNat))) (fun a b _ => some (a.ssubOverflow b)) ∧
    AluDoes (.and c rd rs1 rs2 sets 0) c rd rs1 rs2 sets (fun a b _ => a &&& b) (fun _ _ _ => none) (fun _ _ _ => none) ∧
    AluDoes (.or c rd rs1 rs2 sets 0) c rd rs1 rs2 sets (fun a b _ => a ||| b) (fun _ _ _ => none) (fun _ _ _ => none) ∧
    AluDoes (.xor c rd rs1 rs2 sets 0) c rd rs1 rs2 sets (fun a b _ => a ^^^ b) (fun _ _ _ => none) (fun _ _ _ => none) ∧
    AluDoes (.andn c rd rs1 rs2 sets 0) c rd rs1 rs2 sets (fun a b _ => a &&& ~~~b) (fun _ _ _ => none) (fun _ _ _ => none) ∧
    AluDoes (.adc c rd rs1 rs2 sets 0) c rd rs1 rs2 sets (fun a b p => a + b + BitVec.ofNat 32 (p.getLsbD 29).toNat)
      (fun a b p => some (decide (2 ^ 32 ≤ a.toNat + b.toNat + (p.getLsbD 29).toNat)))
      (fun a b p => some (decide ((a + b + BitVec.ofNat 32 (p.getLsbD 29).toNat).toInt ≠
        a.toInt + b.toInt + (p.getLsbD 29).toNat))) ∧
    AluDoes (.sbc c rd rs1 rs2 sets 0) c rd rs1 rs2 sets (fun a b p => a - b - BitVec.ofNat 32 (!p.getLsbD 29).toNat)
      (fun a b p => some (decide (b.toNat + (!p.getLsbD 29).toNat ≤ a.toNat)))
      (fun a b p => some (decide ((a - b - BitVec.ofNat 32 (!p.getLsbD 29).toNat).toInt ≠
        a.toInt - b.toInt - (!p.getLsbD 29).toNat))) ∧
    AluDoes (.min c rd rs1 rs2 sets 0) c rd rs1 rs2 sets (fun a b _ => if a.toInt ≤ b.toInt then a else b)
      (fun _ _ _ => none) (fun _ _ _ => none) ∧
    AluDoes (.max c rd rs1 rs2 sets 0) c rd rs1 rs2 sets (fun a b _ => if a.toInt ≤ b.toInt then b else a)
      (fun _ _ _ => none) (fun _ _ _ => none) ∧
    AluDoes (.minu c rd rs1 rs2 sets 0) c rd rs1 rs2 sets (fun a b _ => if a.toNat ≤ b.toNat then a else b)
      (fun _ _ _ => none) (fun _ _ _ => none) ∧
    AluDoes (.maxu c rd rs1 rs2 sets 0) c rd rs1 rs2 sets (fun a b _ => if a.toNat ≤ b.toNat then b else a)
      (fun _ _ _ => none) (fun _ _ _ => none)

/-- R374 and R375, the shifts: the amount is bits [7:0] of rs2; C is the last bit shifted out, unchanged for a shift of 0.
That a rotation by a multiple of 32 counts as a rotation of 0 is the model's reading (log entry 11). -/
def Obligations.ShiftsRetire : Prop :=
  ∀ (c : CoreId) (rd rs1 rs2 : Fin 16) (sets : Bool),
    AluDoes (.lsl c rd rs1 rs2 sets 0) c rd rs1 rs2 sets (fun a b _ => a <<< (b.toNat % 256))
      (fun a b _ => if b.toNat % 256 = 0 then none else
        some (decide (b.toNat % 256 ≤ 32) && a.getLsbD (32 - b.toNat % 256))) (fun _ _ _ => none) ∧
    AluDoes (.lsr c rd rs1 rs2 sets 0) c rd rs1 rs2 sets (fun a b _ => a >>> (b.toNat % 256))
      (fun a b _ => if b.toNat % 256 = 0 then none else some (a.getLsbD (b.toNat % 256 - 1))) (fun _ _ _ => none) ∧
    AluDoes (.asr c rd rs1 rs2 sets 0) c rd rs1 rs2 sets (fun a b _ => a.sshiftRight (b.toNat % 256))
      (fun a b _ => if b.toNat % 256 = 0 then none else some ((a.sshiftRight (b.toNat % 256 - 1)).getLsbD 0))
      (fun _ _ _ => none) ∧
    AluDoes (.ror c rd rs1 rs2 sets 0) c rd rs1 rs2 sets (fun a b _ => a.rotateRight (b.toNat % 256))
      (fun a b _ => if b.toNat % 32 = 0 then none else some (a.rotateRight (b.toNat % 256)).msb) (fun _ _ _ => none)

/-- R376: each MULDIV function writes rd and changes no flag. -/
def Obligations.MulDivRetire : Prop :=
  ∀ (c : CoreId) (rd rs1 rs2 : Fin 16),
    Puts (.mul c rd rs1 rs2 0) c 4 rd (fun x => x.gr rs1 * x.gr rs2) ∧
    Puts (.mulhs c rd rs1 rs2 0) c 4 rd
      (fun x => ((x.gr rs1).signExtend 64 * (x.gr rs2).signExtend 64).extractLsb' 32 32) ∧
    Puts (.mulhu c rd rs1 rs2 0) c 4 rd
      (fun x => ((x.gr rs1).zeroExtend 64 * (x.gr rs2).zeroExtend 64).extractLsb' 32 32) ∧
    Puts (.divs c rd rs1 rs2 0) c 4 rd
      (fun x => if x.gr rs2 = 0 then 0xFFFFFFFF#32 else BitVec.ofInt 32 ((x.gr rs1).toInt.tdiv (x.gr rs2).toInt)) ∧
    Puts (.divu c rd rs1 rs2 0) c 4 rd (fun x => if x.gr rs2 = 0 then 0xFFFFFFFF#32 else x.gr rs1 / x.gr rs2) ∧
    Puts (.rems c rd rs1 rs2 0) c 4 rd
      (fun x => if x.gr rs2 = 0 then x.gr rs1 else BitVec.ofInt 32 ((x.gr rs1).toInt.tmod (x.gr rs2).toInt)) ∧
    Puts (.remu c rd rs1 rs2 0) c 4 rd (fun x => if x.gr rs2 = 0 then x.gr rs1 else x.gr rs1 % x.gr rs2) ∧
    Puts (.mac c rd rs1 rs2 0) c 4 rd (fun x => x.gr rd + x.gr rs1 * x.gr rs2)

/-- R370, R371 and R374: the 16-bit register forms write rd and change no flag; CMP16, CMPI16 and CMPI set the flags of a
subtraction, TST16 sets N and Z of an AND and leaves C and V, and none of these writes a register. The 16-bit shifts shift by
all of g[rs]. -/
def Obligations.ShortFormsAndCompares : Prop :=
  (∀ (c : CoreId) (rd rs : Fin 16) (imm : BitVec 7) (sh : Fin 32),
     Puts (.mov16 c rd rs) c 2 rd (fun x => x.gr rs) ∧
     Puts (.add16 c rd rs) c 2 rd (fun x => x.gr rd + x.gr rs) ∧
     Puts (.sub16 c rd rs) c 2 rd (fun x => x.gr rd - x.gr rs) ∧
     Puts (.and16 c rd rs) c 2 rd (fun x => x.gr rd &&& x.gr rs) ∧
     Puts (.or16 c rd rs) c 2 rd (fun x => x.gr rd ||| x.gr rs) ∧
     Puts (.xor16 c rd rs) c 2 rd (fun x => x.gr rd ^^^ x.gr rs) ∧
     Puts (.lsl16 c rd rs) c 2 rd (fun x => x.gr rd <<< (x.gr rs).toNat) ∧
     Puts (.lsr16 c rd rs) c 2 rd (fun x => x.gr rd >>> (x.gr rs).toNat) ∧
     Puts (.asr16 c rd rs) c 2 rd (fun x => (x.gr rd).sshiftRight (x.gr rs).toNat) ∧
     Puts (.ror16 c rd rs) c 2 rd (fun x => (x.gr rd).rotateRight (x.gr rs).toNat) ∧
     Puts (.neg16 c rd rs) c 2 rd (fun x => -x.gr rs) ∧
     Puts (.not16 c rd rs) c 2 rd (fun x => ~~~x.gr rs) ∧
     Puts (.clz16 c rd rs) c 2 rd (fun x => (x.gr rs).clz) ∧
     Puts (.rev16 c rd rs) c 2 rd (fun x => (x.gr rs).extractLsb' 0 8 ++ (x.gr rs).extractLsb' 8 8 ++
       (x.gr rs).extractLsb' 16 8 ++ (x.gr rs).extractLsb' 24 8) ∧
     Puts (.movi16 c rd imm) c 2 rd (fun _ => imm.signExtend 32) ∧
     Puts (.addi16 c rd imm) c 2 rd (fun x => x.gr rd + imm.signExtend 32) ∧
     Puts (.shi16 c rd 0 sh) c 2 rd (fun x => x.gr rd <<< sh.val) ∧
     Puts (.shi16 c rd 1 sh) c 2 rd (fun x => x.gr rd >>> sh.val) ∧
     Puts (.shi16 c rd 2 sh) c 2 rd (fun x => (x.gr rd).sshiftRight sh.val) ∧
     Puts (.shi16 c rd 3 sh) c 2 rd (fun x => (x.gr rd).rotateRight sh.val) ∧
     Puts (.sextb c rd rs) c 2 rd (fun x => ((x.gr rs).extractLsb' 0 8).signExtend 32) ∧
     Puts (.sexth c rd rs) c 2 rd (fun x => ((x.gr rs).extractLsb' 0 16).signExtend 32) ∧
     Puts (.zexth c rd rs) c 2 rd (fun x => x.gr rs &&& 0xFFFF#32)) ∧
  (∀ (c : CoreId) (rd rs : Fin 16) (imm : BitVec 7) (imm16 : Half),
     Compares (.cmp16 c rd rs) c 2 (fun x => x.gr rd) (fun x => x.gr rs) ∧
     Compares (.cmpi16 c rd imm) c 2 (fun x => x.gr rd) (fun _ => imm.signExtend 32) ∧
     Compares (.cmpi c rs 0 imm16) c 4 (fun x => x.gr rs) (fun _ => imm16.signExtend 32) ∧
     RetiresWith (.tst16 c rd rs) c 2 (fun _ => []) fun x =>
       withFlags x.psr (x.gr rd &&& x.gr rs).msb (x.gr rd &&& x.gr rs == 0) none none)

/-- R372, R375 and R382, the immediate forms: ADDI, ANDI, ORI, XORI, MOVHI and ADR write rd; SHI shifts and sets the flags
where its S bit is 1; BFX extracts and BFI inserts the field of width w at lsb. That a rotation of 0 leaves C is R374's. -/
def Obligations.ImmediateFormsRetire : Prop :=
  ∀ (c : CoreId) (rd rs1 : Fin 16) (imm : Half),
    Puts (.addi c rd rs1 imm) c 4 rd (fun x => x.gr rs1 + imm.signExtend 32) ∧
    Puts (.andi c rd rs1 imm) c 4 rd (fun x => x.gr rs1 &&& imm.zeroExtend 32) ∧
    Puts (.ori c rd rs1 imm) c 4 rd (fun x => x.gr rs1 ||| imm.zeroExtend 32) ∧
    Puts (.xori c rd rs1 imm) c 4 rd (fun x => x.gr rs1 ^^^ imm.zeroExtend 32) ∧
    Puts (.movhi c rd 0 imm) c 4 rd (fun _ => imm ++ 0#16) ∧
    Puts (.adr c rd 0 imm) c 4 rd (fun x => x.pc + imm.signExtend 32) ∧
    (∀ (k : Fin 4) (sh : Fin 32) (sets : Bool),
      let v := fun a : Word =>
        if k = 0 then a <<< sh.val else if k = 1 then a >>> sh.val else if k = 2 then a.sshiftRight sh.val
        else a.rotateRight sh.val
      let out := fun a : Word =>
        if k = 0 then a.getLsbD (32 - sh) else if k = 3 then (v a).msb else a.getLsbD (sh - 1)
      RetiresWith (.shi c rd rs1 (BitVec.ofNat 16 (sh + 32 * k + 128 * sets.toNat))) c 4 (fun x => [(rd, v (x.gr rs1))])
        fun x => if sets then
            withFlags x.psr (v (x.gr rs1)).msb (v (x.gr rs1) == 0)
              (if sh = 0 then none else some (out (x.gr rs1))) none
          else x.psr) ∧
    (∀ (lsb : Fin 32) (w : Nat), 1 ≤ w → lsb + w ≤ 32 →
      Puts (.bfx c rd rs1 (BitVec.ofNat 16 (lsb + 32 * (w - 1)))) c 4 rd
        (fun x => ((x.gr rs1).extractLsb' lsb w).zeroExtend 32) ∧
      Puts (.bfx c rd rs1 (BitVec.ofNat 16 (lsb + 32 * (w - 1) + 1024))) c 4 rd
        (fun x => ((x.gr rs1).extractLsb' lsb w).signExtend 32) ∧
      Puts (.bfi c rd rs1 (BitVec.ofNat 16 (lsb + 32 * (w - 1)))) c 4 rd (fun x =>
        let mask : Word := BitVec.ofNat 32 (2 ^ w - 1) <<< lsb.val
        (x.gr rd &&& ~~~mask) ||| (x.gr rs1 <<< lsb.val &&& mask)))

/-- R383 and R384: BITOP and PERM write rd and change no flag. `src` is the eight bytes of rs1 and rs2. -/
def Obligations.BitAndByteFunctionsRetire : Prop :=
  ∀ (c : CoreId) (rd rs1 rs2 : Fin 16) (func : BitVec 12),
    let byte := fun (v : Word) (j : Nat) => v.extractLsb' (8 * j) 8
    let src := fun (x : CoreSt) (k : Nat) => if k < 4 then byte (x.gr rs1) k else byte (x.gr rs2) (k - 4)
    Puts (.clz c rd rs1 0) c 4 rd (fun x => (x.gr rs1).clz) ∧
    (∃ f : Word → Word, Puts (.cls c rd rs1 0) c 4 rd (fun x => f (x.gr rs1)) ∧
      ∀ a, (f a).toNat ≤ 31 ∧ (∀ i < (f a).toNat, a.getLsbD (30 - i) = a.msb) ∧
        ((f a).toNat < 31 → a.getLsbD (30 - (f a).toNat) ≠ a.msb)) ∧
    Puts (.ctz c rd rs1 0) c 4 rd (fun x => (x.gr rs1).ctz) ∧
    Puts (.popc c rd rs1 0) c 4 rd (fun x => (x.gr rs1).cpop) ∧
    Puts (.rev c rd rs1 0) c 4 rd (fun x => byte (x.gr rs1) 0 ++ byte (x.gr rs1) 1 ++ byte (x.gr rs1) 2 ++ byte (x.gr rs1) 3) ∧
    Puts (.revh c rd rs1 0) c 4 rd (fun x => byte (x.gr rs1) 2 ++ byte (x.gr rs1) 3 ++ byte (x.gr rs1) 0 ++ byte (x.gr rs1) 1) ∧
    Puts (.rbit c rd rs1 0) c 4 rd (fun x => (x.gr rs1).reverse) ∧
    Puts (.perm c rd rs1 rs2 func) c 4 rd (fun x =>
      let p := fun j => src x (func.toNat / 8 ^ j % 8)
      p 3 ++ p 2 ++ p 1 ++ p 0) ∧
    Puts (.permr c rd rs1 rs2 0) c 4 rd (fun x =>
      let n := fun j => (x.gr rd).toNat / 16 ^ j % 16
      let p := fun j => if 8 ≤ n j then 0#8 else src x (n j)
      p 3 ++ p 2 ++ p 1 ++ p 0)

/-! ### The core: memory (R370-R372, R377, R378) -/

/-- R370 to R372 and R377: each load from SRAM of a whole, aligned, clean word or part of it writes rd with the bytes at its
address, extended by sign or zero, and changes no memory and no device register. -/
def Obligations.LoadsReadSram : Prop :=
  ∀ (c : CoreId) (rd rs : Fin 16) (imm : Half) (u : Fin 8) (v : Fin 128),
    LoadsFrom (.ldw c rd rs imm) c 4 4 false rd (fun x => x.gr rs + imm.signExtend 32) (fun _ => []) ∧
    LoadsFrom (.ldh c rd rs imm) c 4 2 true rd (fun x => x.gr rs + imm.signExtend 32) (fun _ => []) ∧
    LoadsFrom (.ldhu c rd rs imm) c 4 2 false rd (fun x => x.gr rs + imm.signExtend 32) (fun _ => []) ∧
    LoadsFrom (.ldb c rd rs imm) c 4 1 true rd (fun x => x.gr rs + imm.signExtend 32) (fun _ => []) ∧
    LoadsFrom (.ldbu c rd rs imm) c 4 1 false rd (fun x => x.gr rs + imm.signExtend 32) (fun _ => []) ∧
    LoadsFrom (.ldw16 c rd rs u) c 2 4 false rd (fun x => x.gr rs + BitVec.ofNat 32 (4 * u)) (fun _ => []) ∧
    LoadsFrom (.ldhu16 c rd rs u) c 2 2 false rd (fun x => x.gr rs + BitVec.ofNat 32 (2 * u)) (fun _ => []) ∧
    LoadsFrom (.ldbu16 c rd rs u) c 2 1 false rd (fun x => x.gr rs + BitVec.ofNat 32 u) (fun _ => []) ∧
    LoadsFrom (.ldwsp c rd v) c 2 4 false rd (fun x => x.gr 15 + BitVec.ofNat 32 (4 * v)) (fun _ => []) ∧
    (rd ≠ 15 → LoadsFrom (.pop c rd 0) c 2 4 false rd (fun x => x.gr 15) (fun x => [(15, x.gr 15 + 4)]))

/-- R370 to R372 and R377: each store to SRAM writes the low bytes of rd at its address, little-endian, and leaves every
other byte, every device register and every general register but a stack pointer that it moves. That PUSH of g15 stores the
g15 from before it is the model's reading (log entry 10). -/
def Obligations.StoresWriteSram : Prop :=
  ∀ (c : CoreId) (rd rs : Fin 16) (imm : Half) (u : Fin 8) (v : Fin 128),
    StoresTo (.stw c rd rs imm) c 4 4 rd (fun x => x.gr rs + imm.signExtend 32) (fun _ => []) ∧
    StoresTo (.sth c rd rs imm) c 4 2 rd (fun x => x.gr rs + imm.signExtend 32) (fun _ => []) ∧
    StoresTo (.stb c rd rs imm) c 4 1 rd (fun x => x.gr rs + imm.signExtend 32) (fun _ => []) ∧
    StoresTo (.stw16 c rd rs u) c 2 4 rd (fun x => x.gr rs + BitVec.ofNat 32 (4 * u)) (fun _ => []) ∧
    StoresTo (.sth16 c rd rs u) c 2 2 rd (fun x => x.gr rs + BitVec.ofNat 32 (2 * u)) (fun _ => []) ∧
    StoresTo (.stb16 c rd rs u) c 2 1 rd (fun x => x.gr rs + BitVec.ofNat 32 u) (fun _ => []) ∧
    StoresTo (.stwsp c rd v) c 2 4 rd (fun x => x.gr 15 + BitVec.ofNat 32 (4 * v)) (fun _ => []) ∧
    StoresTo (.push c rd 0) c 2 4 rd (fun x => x.gr 15 - 4) (fun x => [(15, x.gr 15 - 4)])

/-- R378: XMEM's loads and stores for every SIZE, MODE and SCALE: MODE 0 leaves rs1, MODE 1 accesses g[rs1] and writes back
g[rs1] + x, MODE 2 accesses and writes back g[rs1] + x, x being g[rs2] shifted left by SCALE. -/
def Obligations.IndexedAccesses : Prop :=
  ∀ (c : CoreId) (rd rs1 rs2 : Fin 16) (k : Fin 5) (mode : Fin 3) (scale : Fin 4),
    let size := if k = 0 then 4 else if k = 1 ∨ k = 2 then 2 else 1
    let sum := fun x : CoreSt => x.gr rs1 + x.gr rs2 <<< scale.val
    let ea := fun x : CoreSt => if mode = 1 then x.gr rs1 else sum x
    let upd := fun x : CoreSt => if mode = 0 then [] else [(rs1.val, sum x)]
    (mode = 0 ∨ rd ≠ rs1 →
      LoadsFrom (.xmem c rd rs1 rs2 (BitVec.ofNat 12 (k + 16 * mode + 64 * scale))) c 4 size (decide (k = 1 ∨ k = 3)) rd ea
        upd) ∧
    (k ≠ 2 ∧ k ≠ 4 →
      StoresTo (.xmem c rd rs1 rs2 (BitVec.ofNat 12 (k + 8 + 16 * mode + 64 * scale))) c 4 size rd ea upd)

/-! ### The core: transfers and loops (R370-R373, R379-R381) -/

/-- R370 to R373: a conditional branch whose condition holds goes to PC + 2 × sext(off), one whose condition does not hold
goes on; BR, BR16, CALL, CALL16, JR, CALLR and RET go to their target, the calls with the return address in g14. That CALLR
of g14 goes to the g14 from before it is the model's reading (log entry 10). -/
def Obligations.TransfersGoToTarget : Prop :=
  ∀ (c : CoreId) (cond : Fin 16) (o7 : BitVec 7) (o11 : BitVec 11) (o20 : BitVec 20) (o24 : BitVec 24) (rs : Fin 16),
    let flag := fun (x : CoreSt) (k : Nat) => x.psr.getLsbD k
    let holds := fun x : CoreSt =>
      let n := flag x 31; let z := flag x 30; let cy := flag x 29; let v := flag x 28
      [z, !z, cy, !cy, n, !n, v, !v, cy && !z, !cy || z, n == v, n != v, !z && n == v, z || n != v, true].getD cond false = true
    let even := fun t : Word => t.getLsbD 0 = false
    (cond ≠ 15 →
      Jumps (.bcc16 c cond o7) c 2 holds (fun x => x.pc + 2 * o7.signExtend 32) (fun _ => []) ∧
      RetiresIf (.bcc16 c cond o7) c 2 (fun x => ¬ holds x) (fun _ => []) (fun x => x.psr) ∧
      Jumps (.bcc c cond o20) c 4 holds (fun x => x.pc + 2 * o20.signExtend 32) (fun _ => []) ∧
      RetiresIf (.bcc c cond o20) c 4 (fun x => ¬ holds x) (fun _ => []) (fun x => x.psr)) ∧
    Jumps (.br16 c o11) c 2 (fun _ => True) (fun x => x.pc + 2 * o11.signExtend 32) (fun _ => []) ∧
    Jumps (.br c o24) c 4 (fun _ => True) (fun x => x.pc + 2 * o24.signExtend 32) (fun _ => []) ∧
    Jumps (.call16 c o11) c 2 (fun _ => True) (fun x => x.pc + 2 * o11.signExtend 32) (fun x => [(14, x.pc + 2)]) ∧
    Jumps (.call c o24) c 4 (fun _ => True) (fun x => x.pc + 2 * o24.signExtend 32) (fun x => [(14, x.pc + 4)]) ∧
    Jumps (.jr c rs 0) c 2 (fun x => even (x.gr rs)) (fun x => x.gr rs) (fun _ => []) ∧
    Jumps (.callr c rs 0) c 2 (fun x => even (x.gr rs)) (fun x => x.gr rs) (fun x => [(14, x.pc + 2)]) ∧
    Jumps (.ret c 0) c 2 (fun x => even (x.gr 14)) (fun x => x.gr 14) (fun _ => [])

/-- R379 and R392: LP with a count that is not 0 sets LS, LE and LC of its loop and goes on; with a count of 0 it goes to
the instruction after the one at LE; LPCLR clears the loop counts of its mask. No other loop register changes. -/
def Obligations.LoopSetUp : Prop :=
  ∀ (c : CoreId) (l : Fin 3) (r : Bool) (cnt : BitVec 9) (endoff : BitVec 12) (s : State),
    let ls := fun x : CoreSt => x.pc + 4
    let le := fun x : CoreSt => ls x + 2 * endoff.zeroExtend 32
    let n := fun x : CoreSt => if r then x.gr (cnt.toNat % 16) else cnt.zeroExtend 32
    let even := fun v : Word => v &&& ~~~1#32
    (Ready s c 4 → NoWindow s c → Nests (s.lead c) l (le (s.lead c)) → (r = true → cnt.toNat < 16) →
      (n (s.lead c) ≠ 0 → Completes (.lp c (l.castLE (by omega)) r cnt endoff) s fun t =>
        OnlyCore s t c ∧ ∀ k ∈ s.dev.pair c, let x := s.dev.core k; let y := t.dev.core k
          Moved x y x.psr ∧ LoopSet x y l (even (ls x)) (even (le x)) (n x) ∧ y.pc = x.pc + 4) ∧
      (n (s.lead c) = 0 → ∀ h, s.fetchAt c (le (s.lead c)).toNat = (s, .ok h) →
        Completes (.lp c (l.castLE (by omega)) r cnt endoff) s fun t =>
          OnlyCore s t c ∧ ∀ k ∈ s.dev.pair c, let x := s.dev.core k; let y := t.dev.core k
            Moved x y x.psr ∧ LoopSet x y l (even (ls x)) (even (le x)) 0 ∧
              y.pc = le x + if h / 2 ^ 14 % 4 = 3 then 4 else 2)) ∧
    (Ready s c 2 → NoWindow s c → ∀ mask : Fin 8, mask ≠ 0 ∨ NoLoopEnd (s.lead c) →
      Completes (.lpclr c (BitVec.ofNat 7 mask)) s fun t =>
      OnlyCore s t c ∧ ∀ k ∈ s.dev.pair c, let x := s.dev.core k; let y := t.dev.core k
        Moved x y x.psr ∧ y.ls = x.ls ∧ y.le = x.le ∧
          ∀ m < 3, y.lc.getD m 0 = if mask.val.testBit m then 0 else x.lc.getD m 0)

/-- R380: where an instruction retires at the LE of active loops, the innermost of them with a count above 1 is lowered and
goes back to its LS, those inside it falling to 0; where each has the count 1, all fall to 0 and execution goes on. The other
loops, and those around the one that goes back, keep their counts. Shown for NOP, which has no other effect. -/
def Obligations.LoopEndTest : Prop :=
  ∀ (c : CoreId) (s : State), Ready s c 2 →
    let x := s.lead c
    let ends := fun m : Nat => x.lc.getD m 0 ≠ 0 ∧ x.le.getD m 0 = x.pc
    let again := fun m : Nat => ends m ∧ x.lc.getD m 0 ≠ 1
    (∀ l < 3, again l → (∀ m < 3, l < m → ¬ again m) → Completes (.nop c 0) s fun t =>
      OnlyCore s t c ∧ ∀ k ∈ s.dev.pair c, let y := t.dev.core k
        y.pc = x.ls.getD l 0 ∧ ∀ m < 3,
          (m = l → y.lc.getD m 0 = x.lc.getD m 0 - 1) ∧ (l < m → ends m → y.lc.getD m 0 = 0) ∧
            (m < l ∨ l < m ∧ ¬ ends m → y.lc.getD m 0 = x.lc.getD m 0)) ∧
    ((∀ l < 3, ¬ again l) → Completes (.nop c 0) s fun t =>
      OnlyCore s t c ∧ ∀ k ∈ s.dev.pair c, let y := t.dev.core k
        y.pc = x.pc + 2 ∧ ∀ m < 3, (ends m → y.lc.getD m 0 = 0) ∧ (¬ ends m → y.lc.getD m 0 = x.lc.getD m 0))

/-! ### The core: special registers and system instructions (R365-R367, R389-R392) -/

/-- R366: MFS writes rd with the special register named: PSR, ATOM_MAX, the loop registers, INSTRET, CORE_ID and, in
supervisor state, TSBP; CYCLE_LO with the copy of the upper bits into the read shadow that CYCLE_HI returns. -/
def Obligations.SpecialRegisterReads : Prop :=
  ∀ (c : CoreId) (rd : Fin 16) (l : Fin 3) (s : State),
    Puts (.mfs c rd 0 0x00) c 4 rd (fun x => x.psr) ∧
    RetiresIf (.mfs c rd 0 0x01) c 4 (fun x => x.psr.getLsbD 0 = true) (fun x => [(rd, x.tsbp)]) (fun x => x.psr) ∧
    Puts (.mfs c rd 0 0x02) c 4 rd (fun x => x.atomMax) ∧
    Puts (.mfs c rd 0 (BitVec.ofNat 16 (0x08 + 4 * l))) c 4 rd (fun x => x.ls.getD l 0) ∧
    Puts (.mfs c rd 0 (BitVec.ofNat 16 (0x09 + 4 * l))) c 4 rd (fun x => x.le.getD l 0) ∧
    Puts (.mfs c rd 0 (BitVec.ofNat 16 (0x0A + 4 * l))) c 4 rd (fun x => x.lc.getD l 0) ∧
    Puts (.mfs c rd 0 0x1A) c 4 rd (fun x => x.instret) ∧
    (Ready s c 4 → Completes (.mfs c rd 0 0x20) s fun t => OnlyCore s t c ∧ ∀ k ∈ s.dev.pair c,
      Retired (s.dev.core k) (t.dev.core k) 4
        [(rd, if s.dev.lockstep then 0x10 else if s.dev.lead c = .a then 0 else 1)] (s.dev.core k).psr) ∧
    (Ready s c 4 → s.dev.cpu.replay = none →
      (Completes (.mfs c rd 0 0x18) s fun t => SameMem s t ∧ AccessFrame s t c ∧ ∀ k ∈ s.dev.pair c,
        (t.dev.core k).gr rd = BitVec.ofNat 32 s.dev.cycle ∧ (t.dev.core k).cycHi = BitVec.ofNat 32 (s.dev.cycle / 2 ^ 32) ∧
          SameGrBut (s.dev.core k) (t.dev.core k) [rd] ∧ (t.dev.core k).instret = (s.dev.core k).instret + 1) ∧
      (Completes (.mfs c rd 0 0x19) s fun t => SameMem s t ∧ AccessFrame s t c ∧ ∀ k ∈ s.dev.pair c,
        Retired (s.dev.core k) (t.dev.core k) 4 [(rd, (s.dev.core k).cycHi)] (s.dev.core k).psr))

/-- R365 and R366: MTS writes N, Z, C and V, in supervisor state IE and IPL too, and no other field of PSR; TSBP without its
low four bits and ATOM_MAX limited to 1 to 32, both in supervisor state; LS and LE without bit 0, and LC. -/
def Obligations.SpecialRegisterWrites : Prop :=
  ∀ (c : CoreId) (rs : Fin 16) (l : Fin 3) (s : State),
    let put := fun (k : Word) (P : CoreSt → CoreSt → Prop) =>
      Completes (.mts c rs 0 (k.setWidth 16)) s fun t => OnlyCore s t c ∧ ∀ j ∈ s.dev.pair c,
        Moved (s.dev.core j) (t.dev.core j) (s.dev.core j).psr ∧ P (s.dev.core j) (t.dev.core j)
    let loopIs := fun (v : CoreSt → Vector Word 3) (w : CoreSt → Word) (x y : CoreSt) =>
      ∀ m < 3, (v y).getD m 0 = if m = l then w x else (v x).getD m 0
    let even := fun v : Word => v &&& ~~~1#32
    RetiresIf (.mts c rs 0 0) c 4 (fun x => x.psr.getLsbD 0 = false) (fun _ => [])
      (fun x => (x.psr &&& 0x0FFFFFFF#32) ||| (x.gr rs &&& 0xF0000000#32)) ∧
    RetiresIf (.mts c rs 0 0) c 4 (fun x => x.psr.getLsbD 0 = true) (fun _ => [])
      (fun x => (x.psr &&& 0x0FFFFFE1#32) ||| (x.gr rs &&& 0xF000001E#32)) ∧
    (Ready s c 4 → (s.lead c).psr.getLsbD 0 = true →
      put 0x01 (fun x y => y.tsbp = x.gr rs &&& ~~~15#32 ∧ y.atomMax = x.atomMax ∧ y.ls = x.ls ∧ y.le = x.le) ∧
      put 0x02 (fun x y => y.atomMax = (let n := (x.gr rs).toNat % 64; if n = 0 ∨ 32 < n then 32 else BitVec.ofNat 32 n) ∧
        y.tsbp = x.tsbp ∧ y.ls = x.ls ∧ y.le = x.le)) ∧
    (Ready s c 4 →
      put (BitVec.ofNat 32 (0x08 + 4 * l)) (fun x y => loopIs (·.ls) (fun x => even (x.gr rs)) x y ∧ y.le = x.le ∧ y.lc = x.lc ∧
        y.tsbp = x.tsbp ∧ y.atomMax = x.atomMax) ∧
      put (BitVec.ofNat 32 (0x09 + 4 * l)) (fun x y => loopIs (·.le) (fun x => even (x.gr rs)) x y ∧ y.ls = x.ls ∧ y.lc = x.lc ∧
        y.tsbp = x.tsbp ∧ y.atomMax = x.atomMax) ∧
      put (BitVec.ofNat 32 (0x0A + 4 * l)) (fun x y => loopIs (·.lc) (fun x => x.gr rs) x y ∧ y.ls = x.ls ∧ y.le = x.le ∧
        y.tsbp = x.tsbp ∧ y.atomMax = x.atomMax))

/-- R389, R390 and R392: NOP and SYNC retire with no other effect, and inside a window count it, the last of its count
closing it; ATOM n from 1 to 32, in user state up to ATOM_MAX, opens
a window of n instructions; ATEND closes one, and outside one changes nothing. That SYNC has no further effect is the
model's order of stores (log entry 9). -/
def Obligations.WindowsOpenAndClose : Prop :=
  ∀ c : CoreId,
    RetiresWith (.nop c 0) c 2 (fun _ => []) (fun x => x.psr) ∧
    RetiresWith (.sync c 0) c 2 (fun _ => []) (fun x => x.psr) ∧
    ∀ s, Ready s c 2 →
    (∀ n : Nat, 1 ≤ n → n ≤ 32 → NoWindow s c → ((s.lead c).psr.getLsbD 0 = true ∨ n ≤ (s.lead c).atomMax.toNat) →
      Completes (.atom c (BitVec.ofNat 7 n)) s fun t => OnlyCore s t c ∧ ∀ k ∈ s.dev.pair c,
        (t.dev.core k).psr = ((s.dev.core k).psr &&& 0xFFFFF01F) ||| BitVec.ofNat 32 (0x20 + 0x40 * n) ∧
          SameGrBut (s.dev.core k) (t.dev.core k) [] ∧ SameSpecial (s.dev.core k) (t.dev.core k)) ∧
    (Completes (.atend c 0) s fun t => OnlyCore s t c ∧ ∀ k ∈ s.dev.pair c,
      (t.dev.core k).psr = (s.dev.core k).psr &&& 0xFFFFF01F ∧
        SameGrBut (s.dev.core k) (t.dev.core k) [] ∧ SameSpecial (s.dev.core k) (t.dev.core k))

/-- R404, R405 and R407: SVC completes and then raises exception 10 with imm7 in SYND and the next PC saved; BRK raises
exception 11 so where the debug port is closed, and halts the cores into debug with imm7 recorded where it is open (R346,
R392). That SVC and BRK retire before their entry, at the end of a loop too, is the model's reading (log entry 13), and so is
that a BRK which halts retires, with PC at the next instruction (log entry 18). -/
def Obligations.TrapsEnter : Prop :=
  ∀ (c : CoreId) (imm : BitVec 7) (s : State), Ready s c 2 →
    let retired := fun u : State => OnlyCore s u c ∧ ∀ k ∈ s.dev.pair c,
      Retired (s.dev.core k) (u.dev.core k) 2 [] (s.dev.core k).psr
    let raised := fun (n : Nat) (t : State) => ∃ u, retired u ∧ Entered u t c n (u.pcOf c) (imm.toNat * 2 ^ 16) 0
    (CanEnter s c → Completes (.svc c imm) s (raised 10)) ∧
    (CanEnter s c → s.dev.f SECURE_STAT_DBG ≠ 1 → s.dev.f SECURE_STAT_DBG ≠ 2 → Completes (.brk c imm) s (raised 11)) ∧
    (s.dev.f SECURE_STAT_DBG = 1 ∨ s.dev.f SECURE_STAT_DBG = 2 → Completes (.brk c imm) s fun t => SameMem s t ∧ SameQueue s t ∧
      t.dev.cpu.brk = imm.toNat ∧ ∃ u, retired u ∧ ∀ k, t.dev.core k =
        if k ∈ s.dev.pair c then { u.dev.core k with debug := true } else s.dev.core k)

/-- R392: WFE retires when an event above IPL is pending, and waits where none is. -/
def Obligations.WaitForEvent : Prop :=
  ∀ (c : CoreId) (s : State), Ready s c 2 → NoWindow s c → (s.lead c).psr.getLsbD 0 = true →
    (EventAbove s.dev (bits (s.lead c).psr.toNat 2 3) → Completes (.wfe c 0) s fun t => OnlyCore s t c ∧
      ∀ k ∈ s.dev.pair c, Retired (s.dev.core k) (t.dev.core k) 2 [] (s.dev.core k).psr) ∧
    (¬ EventAbove s.dev (bits (s.lead c).psr.toNat 2 3) → Completes (.wfe c 0) s fun t => SameMem s t ∧ SameQueue s t ∧
      ∀ k, t.dev.core k = if k ∈ s.dev.pair c then { s.dev.core k with wfe := true } else s.dev.core k)

/-- R409: ERET restores g0 to g15, PC and PSR from the TSB at TSBP, keeps DET and LOCK, clears AW and AWCNT, and adds 0x60
to TSBP; it changes no memory and no register of the device. All 24 words of the TSB are read without an error, and no window
of another core holds its bank (R391). A read that ends in an error gives DOUBLE with its address in FADDR of the emergency
block: an error of ECC that cannot be corrected, in the first word that has one, and a TSBP that names no word, which neither
an entry nor MTS leaves there (R365). TSBP otherwise names one. That a restored PC which is odd loses bit 0 is the model's
choice (log entry 76). -/
def Obligations.ReturnRestores : Prop :=
  ∀ (c : CoreId) (s : State), Ready s c 2 → NoWindow s c → (s.lead c).psr.getLsbD 0 = true →
    s.dev.cf (s.dev.lead c) CORE_STAT_DBL = 0 → tsbInSram (s.lead c).tsbp.toNat = true →
    s.dev.tsbHeld c (s.lead c).tsbp.toNat = false → s.dev.cpu.replay = none →
    let fails := fun faddr : Nat => Completes (.eret c 0) s fun t =>
      SameQueue s t ∧ t.dev.cf (s.dev.lead c) CORE_STAT_DBL = 1 ∧
        t.mem.readN 4 (s.dev.privKey (s.dev.lead c) 0xE000FFA0 + 12) = faddr ∧ ∀ k ∈ s.dev.pair c,
        (t.dev.core k).pc = BitVec.ofNat 32 (s.dev.cr (s.dev.lead c) CORE_VBASE + 0x120)
    ((s.lead c).tsbp.toNat % 4 = 0 → ∀ i < 24, (s.lead c).tsbp.toNat + 4 * i ∈ s.dev.flash.ue →
      (∀ j < i, (s.lead c).tsbp.toNat + 4 * j ∉ s.dev.flash.ue) → fails ((s.lead c).tsbp.toNat + 4 * i)) ∧
    ((s.lead c).tsbp.toNat % 4 ≠ 0 → fails (s.lead c).tsbp.toNat) ∧
    ((s.lead c).tsbp.toNat % 4 = 0 → (∀ i < 24, WordClean s ((s.lead c).tsbp.toNat + 4 * i)) →
    Completes (.eret c 0) s fun t => SameMem s t ∧ SameQueue s t ∧ (∀ a, t.dev.rd a = s.dev.rd a) ∧
      (∀ k, k ∉ s.dev.pair c → t.dev.core k = s.dev.core k) ∧ ∀ k ∈ s.dev.pair c,
        let x := s.dev.core k; let y := t.dev.core k
        let word := fun i => BitVec.ofNat 32 (s.mem.readN 4 ((s.lead c).tsbp.toNat + 4 * i))
        (∀ i < 16, y.gr i = word (4 + i)) ∧ y.pc = word 0 &&& ~~~1#32 ∧
          y.psr = (word 1 &&& 0xF000101F) ||| (x.psr &&& 0x6000) ∧ y.tsbp = x.tsbp + 0x60 ∧
          y.ls = x.ls ∧ y.le = x.le ∧ y.lc = x.lc ∧ y.atomMax = x.atomMax)

/-! ### The core: block instructions (R385-R388) -/

/-- R386 and R388, one step inside SRAM: BCOPY and BFILL take up to 32 bytes to the next 32-byte line, BMOVE from the end
where the destination starts inside the source, BCMP compares up to the first difference; the registers move together; the
instruction retires when nothing is left or BCMP stops, and until then BK is 1 and PC stays. That one command is one step
and that a step reads its whole source first are the model's (log entry 15). -/
def Obligations.BlockStepsMoveBytes : Prop :=
  ∀ (c : CoreId) (rd rs1 rs2 : Fin 16) (s : State), Ready s c 4 → NoWindow s c → rd ≠ rs1 → rd ≠ rs2 → rs1 ≠ rs2 →
    s.dev.cpu.replay = none → (∀ b, s.dev.bankHeld (s.dev.coreMaster c) b = false) →
    s.dev.flash.ue = [] → s.dev.flash.ce = [] →
    let d := ((s.lead c).gr rd).toNat
    let a := ((s.lead c).gr rs1).toNat
    let n := ((s.lead c).gr rs2).toNat
    let inSram := fun e => 0x20000000 ≤ e ∧ e + n ≤ 0x20080000
    let up := min n (32 - d % 32)
    let down := if (d + n) % 32 = 0 ∨ n < (d + n) % 32 then min 32 n else (d + n) % 32
    let ends := fun (t : State) (d' a' n' : Nat) (psr : Word → Word) (stop : Bool) =>
      AccessFrame s t c ∧ ∀ k ∈ s.dev.pair c, let x := s.dev.core k; let y := t.dev.core k
        y.gr rd = BitVec.ofNat 32 d' ∧ y.gr rs1 = BitVec.ofNat 32 a' ∧ y.gr rs2 = BitVec.ofNat 32 n' ∧
          SameGrBut x y [rd.val, rs1.val, rs2.val] ∧ SameSpecial x y ∧
          if n' = 0 ∨ stop = true then
            y.psr = psr (x.psr &&& 0xFFFFEFFF) ∧ y.instret = x.instret + 1 ∧ (NoLoopEnd x → y.pc = x.pc + 4)
          else y.psr = x.psr ||| 0x1000 ∧ y.instret = x.instret ∧ y.pc = x.pc
    let moved := fun (t : State) (dst k : Nat) (byte : Nat → Nat) =>
      ∀ e, t.mem.read e = if dst ≤ e ∧ e < dst + k then byte (e - dst) else s.mem.read e
    (0 < n → inSram d → Completes (.bfill c rd rs1 rs2 0) s fun t =>
      moved t d up (fun _ => a % 256) ∧ ends t (d + up) a (n - up) id false) ∧
    (0 < n → inSram d → inSram a → (a + up ≤ d ∨ d + up ≤ a) → Completes (.bcopy c rd rs1 rs2 0) s fun t =>
      moved t d up (fun i => s.mem.read (a + i)) ∧ ends t (d + up) (a + up) (n - up) id false) ∧
    (0 < n → inSram d → inSram a → ¬ (a < d ∧ d < a + n) → Completes (.bmove c rd rs1 rs2 0) s fun t =>
      moved t d up (fun i => s.mem.read (a + i)) ∧ ends t (d + up) (a + up) (n - up) id false) ∧
    (0 < n → inSram d → inSram a → a < d → d < a + n → Completes (.bmove c rd rs1 rs2 0) s fun t =>
      moved t (d + n - down) down (fun i => s.mem.read (a + n - down + i)) ∧ ends t d a (n - down) id false) ∧
    (0 < n → inSram d → inSram a → (∀ i < up, s.mem.read (d + i) = s.mem.read (a + i)) →
      Completes (.bcmp c rd rs1 rs2 0) s fun t =>
        SameMem s t ∧ ends t (d + up) (a + up) (n - up) (fun p => p ||| 0x40000000) false) ∧
    (inSram d → inSram a → ∀ j < up, (∀ i < j, s.mem.read (d + i) = s.mem.read (a + i)) →
      s.mem.read (d + j) ≠ s.mem.read (a + j) → Completes (.bcmp c rd rs1 rs2 0) s fun t =>
        SameMem s t ∧ ends t (d + j) (a + j) (n - j)
          (fun p => (p &&& 0x9FFFFFFF) ||| if s.mem.read (a + j) < s.mem.read (d + j) then 0x20000000 else 0) true) ∧
    (n = 0 → (∀ i ∈ [Instr.bcopy c rd rs1 rs2 0, .bmove c rd rs1 rs2 0, .bfill c rd rs1 rs2 0], Completes i s fun t =>
        SameMem s t ∧ ends t d a 0 id false) ∧
      Completes (.bcmp c rd rs1 rs2 0) s fun t => SameMem s t ∧ ends t d a 0 (fun p => p ||| 0x40000000) false)

/-! ### The core: exceptions (R369, R371, R377, R390, R404-R407) -/

/-- R369: a field that an encoding table gives as 0 and that is not 0 gives ILLEGAL, and so do condition 0xF, a field of BFX
and BFI that passes bit 31, SG of BFI, a reserved SIZE, MODE or SCALE field of XMEM, POP of g15, block registers that are
not three, loop 3, an LP that breaks the nesting, an LP with R at 1 and a bit of I[20:16] set (R379), and a special register
that no row lists. Nothing but the entry happens. -/
def Obligations.ReservedFormsRaiseIllegal : Prop :=
  ∀ (c : CoreId) (rd rs1 rs2 : Fin 16) (sets r : Bool) (imm : Half) (cnt : BitVec 9) (o7 : BitVec 7) (e : BitVec 12)
    (o20 : BitVec 20),
    let illegal := fun (i : Instr) (len : Nat) => Raises i c len (fun _ => True) 4 (fun _ => 0) (fun _ => 0)
    (∀ z : BitVec 7, z ≠ 0 → ∀ i ∈ [Instr.add c rd rs1 rs2 sets z, .sub c rd rs1 rs2 sets z, .and c rd rs1 rs2 sets z,
      .or c rd rs1 rs2 sets z, .xor c rd rs1 rs2 sets z, .andn c rd rs1 rs2 sets z, .lsl c rd rs1 rs2 sets z,
      .lsr c rd rs1 rs2 sets z, .asr c rd rs1 rs2 sets z, .ror c rd rs1 rs2 sets z, .adc c rd rs1 rs2 sets z,
      .sbc c rd rs1 rs2 sets z, .min c rd rs1 rs2 sets z, .max c rd rs1 rs2 sets z, .minu c rd rs1 rs2 sets z,
      .maxu c rd rs1 rs2 sets z], illegal i 4) ∧
    (∀ z : BitVec 8, z ≠ 0 → (∀ i ∈ [Instr.mul c rd rs1 rs2 z, .mulhs c rd rs1 rs2 z, .mulhu c rd rs1 rs2 z,
      .divs c rd rs1 rs2 z, .divu c rd rs1 rs2 z, .rems c rd rs1 rs2 z, .remu c rd rs1 rs2 z, .mac c rd rs1 rs2 z,
      .permr c rd rs1 rs2 z, .bcopy c rd rs1 rs2 z, .bmove c rd rs1 rs2 z, .bfill c rd rs1 rs2 z, .bcmp c rd rs1 rs2 z],
      illegal i 4) ∧ illegal (.ret c z) 2) ∧
    (∀ z : BitVec 12, z ≠ 0 → ∀ i ∈ [Instr.clz c rd rs1 z, .cls c rd rs1 z, .ctz c rd rs1 z, .popc c rd rs1 z,
      .rev c rd rs1 z, .revh c rd rs1 z, .rbit c rd rs1 z], illegal i 4) ∧
    (∀ z : BitVec 4, z ≠ 0 → (∀ i ∈ [Instr.movhi c rd z imm, .cmpi c rs1 z imm, .adr c rd z imm, .mfs c rd z imm,
      .mts c rs1 z imm], illegal i 4) ∧ ∀ i ∈ [Instr.jr c rs1 z, .callr c rs1 z, .push c rd z, .pop c rd z], illegal i 2) ∧
    (∀ z : BitVec 7, z ≠ 0 → ∀ i ∈ [Instr.nop c z, .sync c z, .wfe c z, .atend c z, .eret c z], illegal i 2) ∧
    illegal (.bcc16 c 15 o7) 2 ∧ illegal (.bcc c 15 o20) 4 ∧
    (imm.toNat / 2 ^ 8 ≠ 0 → illegal (.shi c rd rs1 imm) 4) ∧
    (32 < imm.toNat % 32 + imm.toNat / 32 % 32 + 1 ∨ imm.toNat / 2 ^ 11 ≠ 0 →
      illegal (.bfx c rd rs1 imm) 4 ∧ illegal (.bfi c rd rs1 imm) 4) ∧
    (imm.getLsbD 10 = true → illegal (.bfi c rd rs1 imm) 4) ∧
    (5 ≤ e.toNat % 8 ∨ e.toNat / 16 % 4 = 3 ∨ e.toNat / 2 ^ 8 ≠ 0 ∨ e.getLsbD 3 = true ∧ (e.toNat % 8 = 2 ∨ e.toNat % 8 = 4) ∨
        e.getLsbD 3 = false ∧ e.toNat / 16 % 4 ≠ 0 ∧ rd = rs1 →
      illegal (.xmem c rd rs1 rs2 e) 4) ∧
    illegal (.pop c 15 0) 2 ∧
    (rd = rs1 ∨ rd = rs2 ∨ rs1 = rs2 → ∀ i ∈ [Instr.bcopy c rd rs1 rs2 0, .bmove c rd rs1 rs2 0, .bfill c rd rs1 rs2 0,
      .bcmp c rd rs1 rs2 0], illegal i 4) ∧
    illegal (.lp c 3 r cnt e) 4 ∧ (∀ l : Fin 4, 16 ≤ cnt.toNat → illegal (.lp c l true cnt e) 4) ∧
    (∀ l : Fin 4, Raises (.lp c l r cnt e) c 4 (fun x => ¬ Nests x l (x.pc + 4 + 2 * e.zeroExtend 32)) 4 (fun _ => 0)
      (fun _ => 0)) ∧ (8 ≤ o7.toNat → illegal (.lpclr c o7) 2) ∧
    (imm.toNat ∉ [0x00, 0x01, 0x02, 0x08, 0x09, 0x0A, 0x0C, 0x0D, 0x0E, 0x10, 0x11, 0x12, 0x18, 0x19, 0x1A, 0x20] →
      illegal (.mfs c rd 0 imm) 4 ∧ illegal (.mts c rs1 0 imm) 4)

/-- R366, R367 and R390: in user state MFS of TSBP, MTS of TSBP, ATOM_MAX and the registers that only read, WFE and ERET
give PRIV; inside a window ATOM, LP, LPCLR, WFE, ERET and the block instructions give ATOMIC with cause 1, and in user state
ATOM above ATOM_MAX gives it with cause 2. ATOM of 0 or above 32 gives ILLEGAL; that SYND then holds cause 4 is the model's
reading (log entry 12).
R371, R377, R404 and R407: a misaligned load or store raises ALIGN before any access, with its address in FADDR, and a
jump to an odd target raises it at the jump; an aligned access to a hole of the map raises DATA_BUS with syndrome UNMAPPED
and, for a store, bit 24. The register a faulting instruction would write keeps its value. That FADDR of a jump holds the
odd target is the model's reading (log entry 14). -/
def Obligations.ChecksRaise : Prop :=
  (∀ (c : CoreId) (rd rs1 rs2 : Fin 16) (cnt : BitVec 9) (e : BitVec 12) (n : BitVec 7) (l : Fin 3) (mask : Fin 8),
     let user := fun x : CoreSt => x.psr.getLsbD 0 = false
     let priv := fun (i : Instr) (len : Nat) => Raises i c len user 5 (fun _ => 0) (fun _ => 0)
     let inside := fun x : CoreSt => x.aw = true
     let atomic := fun (i : Instr) (len : Nat) (pre : CoreSt → Prop) =>
       Raises i c len (fun x => inside x ∧ pre x) 7 (fun _ => 2 ^ 28) (fun _ => 0)
     let sup := fun x : CoreSt => x.psr.getLsbD 0 = true
     priv (.mfs c rd 0 0x01) 4 ∧ (∀ k ∈ [0x01#16, 0x02, 0x18, 0x19, 0x1A, 0x20], priv (.mts c rs1 0 k) 4) ∧
     priv (.wfe c 0) 2 ∧ priv (.eret c 0) 2 ∧
     (1 ≤ n.toNat → n.toNat ≤ 32 → atomic (.atom c n) 2 (fun _ => True)) ∧
     atomic (.lp c (l.castLE (by omega)) false cnt e) 4 (fun x => Nests x l (x.pc + 4 + 2 * e.zeroExtend 32)) ∧
     atomic (.lpclr c (BitVec.ofNat 7 mask)) 2 (fun _ => True) ∧ atomic (.wfe c 0) 2 sup ∧ atomic (.eret c 0) 2 sup ∧
     (rd ≠ rs1 → rd ≠ rs2 → rs1 ≠ rs2 → ∀ i ∈ [Instr.bcopy c rd rs1 rs2 0, .bmove c rd rs1 rs2 0, .bfill c rd rs1 rs2 0,
       .bcmp c rd rs1 rs2 0], atomic i 4 (fun _ => True)) ∧
     (1 ≤ n.toNat → n.toNat ≤ 32 →
       Raises (.atom c n) c 2 (fun x => user x ∧ x.aw = false ∧ x.atomMax.toNat < n.toNat) 7 (fun _ => 2 * 2 ^ 28) (fun _ => 0)) ∧
     (n.toNat = 0 ∨ 32 < n.toNat → Raises (.atom c n) c 2 (fun _ => True) 4 (fun _ => 4 * 2 ^ 28) (fun _ => 0))) ∧
  (∀ (c : CoreId) (rd rs rs2 : Fin 16) (imm : Half) (u : Fin 8) (v : Fin 128),
     let at32 := fun x : CoreSt => x.gr rs + imm.signExtend 32
     let at16 := fun (size : Nat) (x : CoreSt) => x.gr rs + BitVec.ofNat 32 (size * u)
     let atSp := fun x : CoreSt => x.gr 15 + BitVec.ofNat 32 (4 * v)
     let align := fun (i : Instr) (len size : Nat) (ea : CoreSt → Word) =>
       Raises i c len (fun x => (ea x).toNat % size ≠ 0) 6 (fun _ => 0) (fun x => (ea x).toNat)
     let hole := fun (i : Instr) (len size : Nat) (st : Bool) (ea : CoreSt → Word) =>
       ∀ s, s.dev.cpu.replay = none → Ready s c len → CanEnter s c → (ea (s.lead c)).toNat % size = 0 →
         regionOf (ea (s.lead c)).toNat = none → Completes i s fun t =>
           Entered s t c 8 (s.pcOf c) (2 ^ 8 + if st then 2 ^ 24 else 0) (ea (s.lead c)).toNat
     align (.ldw c rd rs imm) 4 4 at32 ∧ align (.ldh c rd rs imm) 4 2 at32 ∧ align (.ldhu c rd rs imm) 4 2 at32 ∧
     align (.stw c rd rs imm) 4 4 at32 ∧ align (.sth c rd rs imm) 4 2 at32 ∧
     align (.ldw16 c rd rs u) 2 4 (at16 4) ∧ align (.stw16 c rd rs u) 2 4 (at16 4) ∧
     align (.ldhu16 c rd rs u) 2 2 (at16 2) ∧ align (.sth16 c rd rs u) 2 2 (at16 2) ∧
     align (.ldwsp c rd v) 2 4 atSp ∧ align (.stwsp c rd v) 2 4 atSp ∧
     align (.push c rd 0) 2 4 (fun x => x.gr 15 - 4) ∧ (rd ≠ 15 → align (.pop c rd 0) 2 4 (fun x => x.gr 15)) ∧
     align (.xmem c rd rs rs2 0) 4 4 (fun x => x.gr rs + x.gr rs2) ∧ align (.xmem c rd rs rs2 8) 4 4 (fun x => x.gr rs + x.gr rs2) ∧
     align (.jr c rs 0) 2 2 (fun x => x.gr rs) ∧ align (.callr c rs 0) 2 2 (fun x => x.gr rs) ∧
     align (.ret c 0) 2 2 (fun x => x.gr 14) ∧
     hole (.ldw c rd rs imm) 4 4 false at32 ∧ hole (.ldhu c rd rs imm) 4 2 false at32 ∧ hole (.ldb c rd rs imm) 4 1 false at32 ∧
     hole (.stw c rd rs imm) 4 4 true at32 ∧ hole (.sth c rd rs imm) 4 2 true at32 ∧ hole (.stb c rd rs imm) 4 1 true at32 ∧
     hole (.push c rd 0) 2 4 true (fun x => x.gr 15 - 4) ∧ (rd ≠ 15 → hole (.pop c rd 0) 2 4 false (fun x => x.gr 15)))

/-! ### The core: events, checkpoints, self-test, handover (R406, R412-R425, R427) -/

/-- R406, R412 and R413: EVENT_ENTRY takes the pending event of highest priority above IPL, the lowest number among equals,
where IE is 1 and AW is 0: the TSB is written, IPL takes its priority, IE stays, and PC is at slot 16 + k. With IE at 0 or
a window open, before the first instruction of a handler has retired, and in replay (R419) nothing happens.
R427 and R396: EVENT_SWSET raises the software events of its mask, EVENT_SWCLR clears them; an invalidation of the caches
ends well and changes nothing that a program can see (log entry 9). -/
def Obligations.EventsAndCaches : Prop :=
  (∀ (s : State) (k : Nat), k < 128 → s.dev.executes s.dev.eventCore = true → (s.lead s.dev.eventCore).wfe = false →
     let c := s.dev.eventCore
     let x := s.lead c
     let a := (x.tsbp - 0x60).toNat
     s.dev.eventPending k = true → bits x.psr.toNat 2 3 < s.dev.eventPrio k →
     (∀ j < 128, s.dev.eventPending j = true →
       s.dev.eventPrio j < s.dev.eventPrio k ∨ s.dev.eventPrio j = s.dev.eventPrio k ∧ k ≤ j) →
     (x.psr.getLsbD 1 = true → x.aw = false → x.fresh = false → s.dev.cpu.replay = none → CanEnter s c → Alike s →
       (s.dev.split = false ∨ s.dev.cpu.b.halted = false) → Completes .eventEntry s fun t =>
       t.mem.readN 4 a = x.pc.toNat ∧ t.mem.readN 4 (a + 4) = x.psr.toNat ∧ t.mem.readN 4 (a + 8) = 16 + k ∧
       t.mem.readN 4 (a + 12) = 0 ∧ (∀ i < 16, t.mem.readN 4 (a + 16 + 4 * i) = (x.gr i).toNat) ∧
       SameMemBut s t a 0x60 ∧ SameQueue s t ∧ SameRegsBut s t [CORE_CKPT.addr 0] ∧
       (∀ j, j ∉ s.dev.pair c → t.dev.core j = s.dev.core j) ∧ ∀ j ∈ s.dev.pair c,
         (t.dev.core j).psr = (((s.dev.core j).psr &&& 0xFFFFE003) ||| 1 ||| BitVec.ofNat 32 (4 * s.dev.eventPrio k)) ∧
         (t.dev.core j).pc = BitVec.ofNat 32 (s.dev.cr (s.dev.lead c) CORE_VBASE + 0x100 + 16 * (16 + k)) ∧
         (t.dev.core j).tsbp = (s.dev.core j).tsbp - 0x60 ∧ (t.dev.core j).fresh = true ∧
         ∀ i < 16, (t.dev.core j).gr i = (s.dev.core j).gr i) ∧
     (x.psr.getLsbD 1 = false ∨ x.aw = true ∨ x.fresh = true ∨ s.dev.cpu.replay ≠ none → exec .eventEntry s = .next s)) ∧
  (∀ v : Word,
     let same := fun d t : Dev => (∀ a, t.rd a = d.rd a) ∧ { t with cpu := d.cpu, bus := d.bus } = d
     Acts (.eventSwset v) (fun _ => True) (fun d t => same d t ∧
       t.cpu = { d.cpu with swset := d.cpu.swset ||| v.toNat % 256 }) ∧
     Acts (.eventSwclr v) (fun _ => True) (fun d t => same d t ∧
       ∀ j, t.cpu.swset.testBit j = (d.cpu.swset.testBit j && !(decide (j < 8) && v.toNat.testBit j))) ∧
     Acts .cacheInvI (fun _ => True) (fun d t => t = { d with bus := { d.bus with err := 0 } }) ∧
     Acts .cacheInvBtb (fun _ => True) (fun d t => t = { d with bus := { d.bus with err := 0 } }))

/-- R415 and R430: a window that has been open for WINMAX cycles, values below 32 acting as 32, ends in ATOMIC with cause 3,
CORE_FLAGS.WIN_LIMIT and a log entry. With no window open, or before that, nothing happens. That nothing happens in a replay,
and that a core which cannot take the exception then lets go of the SRAM banks it holds, and of nothing else, are the model's
readings (log entries 19 and 82). -/
def Obligations.WindowLimitRaisesAtomic : Prop :=
  ∀ (c : CoreId) (s : State),
    let due := (s.lead c).aw = true ∧ s.dev.cpu.replay = none ∧
      (s.lead c).winAt + max 32 (bits (s.dev.cr (s.dev.lead c) CORE_XWIN) 0 10) ≤ s.dev.cycle
    (due → s.dev.executes c = true → Alike s → CanEnter s c → (s.dev.split = false ∨ s.dev.cpu.b.halted = false) →
      Completes (.windowCycleLimit c) s fun t => ∃ u, u.mem = s.mem ∧ SameQueue s u ∧
        (∀ k, u.dev.core k = s.dev.core k) ∧ u.dev.cf (s.dev.lead c) CORE_FLAGS_WIN_LIMIT = 1 ∧
        Arrives s.dev u.dev 2 0x118 0xFF [(s.pcOf c).toNat] ∧ Entered u t c 7 (s.pcOf c) (3 * 2 ^ 28) 0) ∧
    (Powered s → due → s.dev.executes c = false ∨ s.dev.entryHeld c = true → Completes (.windowCycleLimit c) s fun t =>
      t.mem = s.mem ∧ SameQueue s t ∧ (∀ a, t.dev.rd a = s.dev.rd a) ∧
        ∀ k, t.dev.core k = if k ∈ s.dev.pair c then { s.dev.core k with banks := 0 } else s.dev.core k) ∧
    (¬ due → exec (.windowCycleLimit c) s = .next s)

/-- R419 and R420: the self-test ends with both cores passed in a rollback to the checkpoint, with one failed in a fence of
that core, the other restoring the checkpoint, leaving lockstep and taking FENCE with a checkpoint, with both failed in SAFE
with cause LOCKSTEP and no core in service.
R417: a checkpoint that is due is taken: the registers are copied, both logs are empty, and CORE_CKPT counts it; inside a
window, before it is due, in replay (R419) and with the cores apart (R423) none is taken. Where one is due the next
instruction runs after it. At how many entries a log counts as full is the model's choice (log entry 19). -/
def Obligations.CheckpointsAndSelfTest : Prop :=
  (∀ (s : State) (us : Half), Powered s → s.dev.cpu.selfTest = true → s.dev.split = false → s.dev.cpu.safeDue = false →
     let u := s.dev.cpu
     let back := u.undo.foldl (fun m e => m.writeN 4 e.1 e.2) s.mem
     -- DET of a core that is restored: 1 in BOOT, in SAFE and with DET_FORCE
     let det := fun p : Word => if s.dev.modeNow = modeBoot ∨ s.dev.modeNow = modeSafe ∨ s.dev.b CORE_CTRL_DET_FORCE = true
       then p ||| 0x2000 else p &&& 0xFFFFDFFF
     (Completes (.selfTestEnd true true us) s fun t => t.mem = back ∧ SameQueue s t ∧
       t.dev.cpu.a = { u.ckA with psr := det u.ckA.psr } ∧ t.dev.cpu.b = { u.ckB with psr := det u.ckB.psr } ∧
       t.dev.cpu.undo = [] ∧ t.dev.cpu.selfTest = false ∧ t.dev.cpu.bistPassed = true ∧ t.dev.f CORE_FLAGS_BIST = 1 ∧
       t.dev.f CORE_FLAGS_ROLLBACK = 1 ∧ t.dev.cpu.replay = if u.replayLog = [] then none else some u.replayLog) ∧
     (s.dev.b CORE_STAT_FENCED_A = false → tsbInSram (u.ckA.tsbp - 0x60).toNat = true → s.dev.f CORE_STAT_DBL = 0 →
       Completes (.selfTestEnd true false us) s fun t => SameQueue s t ∧ t.dev.f CORE_STAT_FENCED_B = 1 ∧
         t.dev.f CORE_STAT_LOCK = 0 ∧ t.dev.cpu.b.run = false ∧ t.dev.cpu.a.psr.getLsbD 14 = false ∧
         t.dev.cpu.a.pc = BitVec.ofNat 32 (s.dev.r CORE_VBASE + 0x110) ∧ t.dev.cpu.a.g = u.ckA.g ∧
         t.dev.r CORE_CKPT = (s.dev.r CORE_CKPT + 1) % 2 ^ 32 ∧
         t.mem.readN 4 (u.ckA.tsbp - 0x60).toNat = u.ckA.pc.toNat) ∧
     (tsbInSram (u.ckB.tsbp - 0x60).toNat = true → s.dev.f CORE_STAT_DBL = 0 →
       Completes (.selfTestEnd false true us) s fun t => SameQueue s t ∧ t.dev.f CORE_STAT_FENCED_A = 1 ∧
         t.dev.f CORE_STAT_LOCK = 0 ∧ t.dev.cpu.a.run = false ∧ t.dev.cpu.b.psr.getLsbD 14 = false ∧
         t.dev.cpu.b.pc = BitVec.ofNat 32 (s.dev.r CORE_VBASE + 0x110) ∧ t.dev.cpu.b.g = u.ckB.g ∧
         t.dev.r CORE_CKPT = (s.dev.r CORE_CKPT + 1) % 2 ^ 32 ∧
         t.mem.readN 4 (u.ckB.tsbp - 0x60).toNat = u.ckB.pc.toNat) ∧
     (s.dev.modeNow ≠ modeSafe → Completes (.selfTestEnd false false us) s fun t => SameMem s t ∧ SameQueue s t ∧
       t.dev.modeNow = modeSafe ∧ t.dev.f SYSCTL_MODE_SAFE_CAUSE = ccLockstep ∧ t.dev.cpu.a.run = false ∧
       t.dev.cpu.b.run = false ∧ t.dev.cpu.selfTest = false)) ∧
  (∀ s, Powered s →
     let u := s.dev.cpu
     let due := 4096 ≤ u.since ∨ 992 < u.undo.length ∨ 192 < u.replayLog.length ∨ u.ckDue = true
     let open_ := (s.dev.core (s.dev.lead .a)).aw
     (s.dev.split = false → open_ = false → u.replay = none → due → Completes .checkpoint s fun t => SameMem s t ∧ SameQueue s t ∧
       t.dev.cpu.ckA = u.a ∧ t.dev.cpu.ckB = u.b ∧ t.dev.cpu.a = u.a ∧ t.dev.cpu.b = u.b ∧ t.dev.cpu.undo = [] ∧
       t.dev.cpu.replayLog = [] ∧ t.dev.cpu.since = 0 ∧ t.dev.cpu.ckDue = false ∧
       t.dev.r CORE_CKPT = (s.dev.r CORE_CKPT + 1) % 2 ^ 32 ∧ SameRegsBut s t [CORE_CKPT.addr 0] ∧
       ∀ (c : CoreId) (z : BitVec 7), s.dev.executes c = true → (s.lead c).wfe = false →
         exec (.nop c z) s = exec (.nop c z) t) ∧
     (s.dev.split = true ∨ open_ = true ∨ u.replay ≠ none ∨ ¬ due → exec .checkpoint s = .next s))

/-- R411, R422 and R424: SPLIT under its preconditions starts core B on the image of the other bank with every block owned
by A and a checkpoint taken, none inside a window (R417), and with DET where DET_FORCE is 1; XFER passes the masked blocks
to B; PARK stops A once it owns no block; JOIN starts the copy once A has parked, and its completion runs both cores on B's
stream in lockstep; ABORT while B owns nothing runs both on A's. A refused command sets HO_REJ and HOREJ and changes no
core.
R422: the state copy of JOIN completes 160 cycles after it, and not before; both cores then run core B's stream in lockstep
and CORE_HOSTAT shows DONE, with a checkpoint that waits for the close of an open window (R417). That the ABORT of a handover
is open to any core that may write CORE_HOCMD is the model's reading (log entry 22). -/
def Obligations.HandoverSteps : Prop :=
  (∀ (c : CoreId) (bank : Fin 2) (mask : Word) (key : Half) (s : State), s.dev.executes c = true → Powered s →
     let d := s.dev
     let base := if bank = 0 then 0x08000000 else 0x08200000
     let window := ∃ n < 4, bit (d.r CORE_SHBASEn n) 0 = true ∧ d.r CORE_SHBASEn n / 256 ≤ d.r CORE_HOADDR / 256 ∧
       d.r CORE_HOADDR / 256 ≤ d.r CORE_SHLIMn n / 256
     let may := d.lockstep = true ∧ d.split = false ∧ d.f CORE_STAT_FENCED_A = 0 ∧ d.f CORE_STAT_FENCED_B = 0 ∧
       (d.modeNow = modeConfigure ∨ d.modeNow = modeRegulate) ∧ d.r CORE_VBASE ≠ base ∧ window ∧
       (if bank = 0 then d.f SECURE_STAT_VERIFIED_A else d.f SECURE_STAT_VERIFIED_B) = 1
     let refused := fun (i : Instr) (code : Nat) => Completes i s fun t => SameMem s t ∧ SameQueue s t ∧
       t.dev.f CORE_FLAGS_HO_REJ = 1 ∧ t.dev.f CORE_STAT_HOREJ = code ∧ t.dev.cpu = d.cpu
     (may → Completes (.hoSplit c bank 0x4B0D) s fun t => SameQueue s t ∧ t.dev.f CORE_STAT_LOCK = 0 ∧
       t.dev.f CORE_STAT_SPLIT = 1 ∧ t.dev.r SYSCTL_OWNER = 0 ∧ t.dev.f CORE_HOSTAT_STATE = 1 ∧
       t.dev.r CORE_CKPT = (if d.cpu.a.aw then d.r CORE_CKPT else (d.r CORE_CKPT + 1) % 2 ^ 32) ∧
       t.dev.cpu.a.pc = d.cpu.a.pc ∧ t.dev.cpu.a.g = d.cpu.a.g ∧
       t.dev.cpu.b.pc = BitVec.ofNat 32 (base + s.mem.readN 4 (base + 0x18)) ∧
       t.dev.cpu.b.psr = (if d.b CORE_CTRL_DET_FORCE then 0x2001 else 1) ∧ t.dev.cpu.b.tsbp = 0 ∧
       (t.dev.cpu.b.gr 0).toNat = base ∧ t.dev.cpu.b.gr 1 = 1 ∧
       (t.dev.cpu.b.gr 2).toNat = d.r CORE_HOADDR / 256 * 256 ∧ ∀ i < 16, 3 ≤ i → t.dev.cpu.b.gr i = 0) ∧
     (¬ may → refused (.hoSplit c bank 0x4B0D) 1) ∧
     (c = .a → d.split = true → d.cpu.parked = false → d.f CORE_HOSTAT_STATE = 1 → Completes (.hoXfer c mask) s fun t =>
       SameMem s t ∧ SameQueue s t ∧ t.dev.r SYSCTL_OWNER = d.r SYSCTL_OWNER ||| mask.toNat % 2 ^ 19 ∧ t.dev.cpu = d.cpu ∧
       Arrives d t.dev 3 0x114 0xFF [mask.toNat % 2 ^ 19]) ∧
     (c = .a → d.split = true → d.r SYSCTL_OWNER = 0x7FFFF → Completes (.hoPark c 0x4B0D) s fun t => SameMem s t ∧
       SameQueue s t ∧ t.dev.cpu.parked = true ∧ t.dev.cpu.a.run = false ∧ t.dev.cpu.b = d.cpu.b) ∧
     (c = .a → d.split = true → d.r SYSCTL_OWNER ≠ 0x7FFFF → refused (.hoPark c 0x4B0D) 2) ∧
     (d.split = true → d.cpu.parked = true → Completes (.hoJoin c 0x4B0D) s fun t => SameMem s t ∧ SameQueue s t ∧
       t.dev.cpu.joining = true ∧ t.dev.cpu.a = d.cpu.a ∧ t.dev.cpu.b = d.cpu.b) ∧
     (d.split = true → d.cpu.parked = false → refused (.hoJoin c 0x4B0D) 3) ∧
     (d.split = true → d.f CORE_HOSTAT_STATE = 1 → d.r SYSCTL_OWNER = 0 → Completes (.hoAbort c 0x4B0D) s fun t =>
       SameQueue s t ∧ t.dev.f CORE_STAT_LOCK = 1 ∧ t.dev.f CORE_STAT_SPLIT = 0 ∧ t.dev.cpu.a = t.dev.cpu.b ∧
       t.dev.cpu.a.pc = d.cpu.a.pc ∧ t.dev.cpu.a.g = d.cpu.a.g ∧ t.dev.cpu.ckDue = d.cpu.a.aw) ∧
     (d.split = true → d.f CORE_HOSTAT_STATE = 1 → d.r SYSCTL_OWNER ≠ 0 → refused (.hoAbort c 0x4B0D) 4) ∧
     (key ≠ 0x4B0D → refused (.hoSplit c bank key) 5 ∧ refused (.hoPark c key) 5 ∧ refused (.hoJoin c key) 5 ∧
       refused (.hoAbort c key) 5)) ∧
  (∀ s : State, s.dev.cpu.joining = true → s.dev.cycle < s.dev.cpu.joinAt + 160 → exec .joinComplete s = .next s) ∧
  (∀ s : State, Powered s → s.dev.cpu.joining = true → s.dev.cpu.joinAt + 160 ≤ s.dev.cycle → s.dev.split = true →
    Completes .joinComplete s fun t => SameQueue s t ∧
     t.dev.f CORE_STAT_LOCK = 1 ∧ t.dev.f CORE_STAT_SPLIT = 0 ∧ t.dev.f CORE_HOSTAT_STATE = 2 ∧ t.dev.cpu.a = t.dev.cpu.b ∧
     t.dev.cpu.a.pc = s.dev.cpu.b.pc ∧ t.dev.cpu.a.g = s.dev.cpu.b.g ∧ t.dev.cpu.a.run = true ∧
     t.dev.cpu.a.psr.getLsbD 14 = true ∧ t.dev.cpu.joining = false ∧ t.dev.cpu.parked = false ∧
     t.dev.cpu.ckDue = s.dev.cpu.b.aw ∧
     t.dev.r CORE_CKPT = if s.dev.cpu.b.aw then s.dev.cr .b CORE_CKPT else (s.dev.cr .b CORE_CKPT + 1) % 2 ^ 32)

/-! ### The rails (R53-R62, R83-R92, R131, R134, R147, R214) -/

/-- R55, R87, R92, R134 and R147: a basic write in its range is stored, SLEW, LOADLINE and TE_COUT with the staged value,
the value in force and the value in a waiting commit of their expert counterpart; one outside it leaves the register and
sets WR_REJ. On a spanning rail the lead writes them so too, but while its rail is ENABLED it announces a new target, which
waits, behind those before it, until PLAN_LEAD after its message has left (R214), and another member's write of VTARGET, SLEW
and LOADLINE is refused. When that message leaves rests on the model's placement of messages in slots (log entry 72). -/
def Obligations.RailWritesStoreOrReject : Prop :=
  ∀ (n : Fin 8) (v : Word),
    let lo := v.toNat % 2 ^ 16
    let hi := v.toNat / 2 ^ 16
    let follower := fun s : State => ∃ c, s.dev.spanOf n = some c ∧ s.dev.f CHAIN_SPANc_STAT_ROLE c ≠ 1
    let leads := fun s : State => Unlocked s ∧ ¬ follower s
    let stores := fun (i : Instr) (g : Reg) (x : Nat) => ActsOn i Unlocked [g.addr n] fun _ t => t.r g n = x
    let rejects := fun (i : Instr) (pre : State → Prop) =>
      ActsOn i (fun s => Unlocked s ∧ pre s) [RAIL_FLAGS.addr n] fun d t => t.r RAIL_FLAGS n = d.r RAIL_FLAGS n ||| 1
    let any := fun _ : State => True
    let with_ := fun (i : Instr) (pre : State → Prop) (x : Fld) (code : Nat) (g : Reg) (off val : Nat) =>
      Acts i (fun s => Unlocked s ∧ pre s) fun d t =>
        OnlyRegs [x.reg.addr n, g.addr n, RAIL_XSTAT.addr n, RAIL_CTRL.addr n] d t ∧ t.f x n = code ∧ t.r g n = val ∧
        t.ar g n = val ∧ ∀ ws, (d.rail n).wait = some ws →
          (t.rail n).wait = some (ws.map fun p => if p.1 = off then (off, val) else p)
    (0x04B0 ≤ lo → lo ≤ 0x1F40 → Acts (.railVtargetWrite n v)
      (fun s => leads s ∧ (s.dev.spanOf n = none ∨ s.dev.b RAIL_STAT_ENABLED n = false)) fun d t =>
      OnlyRegs [RAIL_VTARGET.addr n] d t ∧ t.f RAIL_VTARGET_VTARGET n = lo) ∧
    (0x04B0 ≤ lo → lo ≤ 0x1F40 → ∀ c, Acts (.railVtargetWrite n v)
      (fun s => Unlocked s ∧ s.dev.spanOf n = some c ∧ s.dev.f CHAIN_SPANc_STAT_ROLE c = 1 ∧
        s.dev.b RAIL_STAT_ENABLED n = true) fun d t => SameRegs d t ∧
          (t.span c).target = (d.span c).target ++
            [(lo, (d.r CHAIN_RTIME + d.txWait c 16 + max 4 (d.f CHAIN_XTIME_PLAN_LEAD) * 400) % 2 ^ 32)]) ∧
    (lo < 0x04B0 ∨ 0x1F40 < lo → rejects (.railVtargetWrite n v) any) ∧ rejects (.railVtargetWrite n v) follower ∧
    (1 ≤ lo → lo ≤ 60000 →
      with_ (.railSlewWrite n v) leads RAIL_SLEW_SLEW lo RAIL_XSLEWSTEP 0x108 ((2 * (lo * 262144) + 1000) / 2000)) ∧
    (lo = 0 ∨ 60000 < lo → rejects (.railSlewWrite n v) any) ∧ rejects (.railSlewWrite n v) follower ∧
    (let ll := v.toNat % 2 ^ 12
     (ll ≤ 3999 → with_ (.railLoadlineWrite n v) leads RAIL_LOADLINE_LL ll RAIL_XLLGAIN 0x10C ((2 * (ll * 2 ^ 22) + 2000) / 4000)) ∧
     (3999 < ll → rejects (.railLoadlineWrite n v) any)) ∧ rejects (.railLoadlineWrite n v) follower ∧
    ((BitVec.ofNat 16 hi).toInt ≤ lo → stores (.railIlimitWrite n v) RAIL_ILIMIT v.toNat) ∧
    ((lo : Int) < (BitVec.ofNat 16 hi).toInt → rejects (.railIlimitWrite n v) any) ∧
    (v.toNat / 2 ^ 24 ≠ 0 → stores (.railSoftstartWrite n v) RAIL_SOFTSTART v.toNat) ∧
    (v.toNat / 2 ^ 24 = 0 → rejects (.railSoftstartWrite n v) any) ∧
    (∀ g k, lo ≠ 0 → g < 16 → lo < 5 * 2 ^ (k + g) → (∀ h < g, 5 * 2 ^ (k + h) ≤ lo) →
      with_ (.railTeCoutWrite n v) (fun s => s.dev.a RAIL_XTEDET_DSPAN n = k) RAIL_TE_COUT_COUT lo RAIL_XTEKSL 0x248
        ((2 * (lo * 2 ^ 23) + 5 * 2 ^ (k + g)) / (2 * (5 * 2 ^ (k + g))) + g * 2 ^ 24)) ∧
    (lo = 0 → rejects (.railTeCoutWrite n v) any) ∧
    (6400 ≤ lo → lo ≤ 64000 → stores (.railPwmWrite n v) RAIL_PWM (v.toNat % 2 ^ 19)) ∧
    (lo < 6400 ∨ 64000 < lo → rejects (.railPwmWrite n v) any) ∧
    (hi < lo → stores (.railAddshedWrite n v) RAIL_ADDSHED v.toNat) ∧ (lo ≤ hi → rejects (.railAddshedWrite n v) any)

/-- R59, R61, R62, R84, R131 and R166: EN 1 enters the rail's request in the queue of the girth check, EN 0 and a fall of
ENn ask for the shutdown; TON_DELAY's end begins the pre-bias measurement, and not before; after its 64 samples the rail
begins from VPRE, with six decisions before its first switching one, or the start ends where every window was tagged;
POWER_GOOD sets its flag once every sample of the last PG_DELAY was inside; the read of the event counts clears them. That
the first N is NMIN or what is staffed is the model's reading (log entry 40), and that PREBIAS_MEASUREMENT carries the
samples no decision has brought, and forms the first VREF, is its choice (log entry 70). -/
def Obligations.RailStartAndStop : Prop :=
  ∀ n : Fin 8,
    let asks := fun (d t : Dev) (cause : Nat) =>
      (t.rail n).sq.pend = if d.b RAIL_STAT_ENABLED n then (d.rail n).sq.pend ++ [cause] else (d.rail n).sq.pend
    Acts (.railEnable n) (fun s => Unlocked s ∧ s.dev.b RAIL_STAT_ENABLED n = false ∧ 0x10 + n.val ∉ s.dev.cfg.queue)
      (fun d t => OnlyRegs [CFG_STAT.addr 0] d t ∧ t.cfg.queue = d.cfg.queue ++ [0x10 + n.val]) ∧
    ActsOn (.railEnable n) (fun s => Unlocked s ∧ s.dev.b RAIL_STAT_ENABLED n = true) [] (fun _ _ => True) ∧
    Acts (.railDisable n) Unlocked (fun d t => OnlyRegs [RAIL_CTRL.addr n] d t ∧ t.b RAIL_CTRL_EN n = false ∧ asks d t 8) ∧
    Runs (.enpinLow n) (fun s => s.dev.b RAIL_PWM_ENPIN_USE n = true) (fun d t => SameRegs d t ∧ asks d t 9) ∧
    NoEffect (.enpinLow n) (fun s => s.dev.b RAIL_PWM_ENPIN_USE n = false) ∧
    (let due := fun s : State => (s.dev.rail n).phase = .tonDelay ∧
        (s.dev.rail n).startAt + 400 * s.dev.f RAIL_SOFTSTART_TON_DELAY n ≤ s.dev.now
     Runs (.tonDelayExpiry n) due
      (fun d t => SameRegs d t ∧ (t.rail n).phase = .prebias ∧ (t.rail n).lp.preN = 0 ∧ (t.rail n).lp.vpre = none) ∧
     NoEffect (.tonDelayExpiry n) (fun s => ¬ due s)) ∧
    (∀ vs : List Int,
     let taken := fun s : State => (s.dev.rail n).phase = .prebias ∧ 64 ≤ (s.dev.rail n).lp.preN + vs.length
     let good := fun x : Int × Nat =>
       let off := [2000, 6000, 10000, 14000].getD (x.2 / 16) 14000 - x.1
       if x.2 % 16 = 15 ∧ x.2 < 64 ∧ -2048 < off ∧ off < 2047 then some x.1 else none
     let vpre := fun s : State => (s.dev.rail n).lp.vpre.or ((vs.zipIdx (s.dev.rail n).lp.preN).findSome? good)
     (∀ p : Int, Runs (.prebiasMeasurement n vs)
       (fun s => taken s ∧ vpre s = some p ∧ s.dev.spanOf n = none ∧
         s.dev.f RAIL_VTARGET_VTARGET n ≤ 0x1F40) fun d t =>
         let top : Int := 2 * d.f RAIL_VTARGET_VTARGET n
         (t.rail n).phase = .running ∧ (t.rail n).lp.skip = 6 ∧
         (t.rail n).lp.vrefPipe.head? = some (min (max p 0) top).toNat ∧
         (t.rail n).lp.n = min (d.f RAIL_PHASE_NMIN n) (d.staffed n) ∧
         (top < p → t.b RAIL_FLAGS_PREBIAS_ABOVE n = true)) ∧
     Runs (.prebiasMeasurement n vs)
       (fun s => taken s ∧ vpre s = none ∧ (s.dev.rail n).sq.swapTo = none) (fun d t =>
         (t.rail n).phase = .idle ∧ t.b RAIL_FLAGS_START_FAIL n = true ∧ t.b RAIL_STAT_ENABLED n = false ∧
         t.b RAIL_CTRL_EN n = false ∧ (vs = [] → Arrives d t 1 0x010 n [])) ∧
     NoEffect (.prebiasMeasurement n vs) (fun s => ¬ taken s)) ∧
    (let ready := fun s : State => (s.dev.rail n).phase = .running ∧ s.dev.b RAIL_STAT_SOFTSTART n = false ∧
        s.dev.b RAIL_STAT_SHUTTING n = false ∧ s.dev.b RAIL_STAT_POWER_GOOD n = false ∧
        ∃ t0, (s.dev.rail n).lp.pgFrom = some t0 ∧ t0 + 400 * s.dev.f RAIL_SOFTSTART_PG_DELAY n ≤ s.dev.now
     Runs (.powerGoodQualified n) ready (fun d t => OnlyRegs [RAIL_STAT.addr n, RAIL_FLAGS.addr n] d t ∧
       t.b RAIL_STAT_POWER_GOOD n = true ∧ t.b RAIL_FLAGS_PG_SET n = true) ∧
     NoEffect (.powerGoodQualified n) (fun s => ¬ ready s)) ∧
    ActsOn (.railTeCountRead n) (fun _ => True) [RAIL_TE_COUNT.addr n] (fun d t => t.r RAIL_TE_COUNT n = 0 ∧
      t.bus.data = d.r RAIL_TE_COUNT n ∧ t.bus.err = 0)

/-- R16, R89, R90 and R183: a commit that a check refuses sets COMMIT_REFUSED and WHY and changes nothing else; one that is
accepted waits with the staged set while the loop runs and takes force at once where it does not; the waiting set takes
force together; REVERT brings every parameter back to its image value and drops a waiting commit. With EXPERT_UNLOCK 0
neither has an effect. -/
def Obligations.ExpertSetTakesForce : Prop :=
  ∀ n : Fin 8,
    let base := 0x50000000 + 0x1000 * n.val
    let offs := railExpertOffs ++ coefOffs
    let open_ := fun s : State => Unlocked s ∧ s.dev.b RAIL_CTRL_EXPERT_UNLOCK n = true
    let bad1 := fun d : Dev => d.f RAIL_XDMAX_DMAX n ≤ d.f RAIL_XDMIN_DMIN n ∨ 0x3E0000 < d.f RAIL_XDMAX_DMAX n
    let bad2 := fun d : Dev => d.f RAIL_XCTL_DECIM n = 7
    let bad4 := fun d : Dev => d.f RAIL_PWM_TSW n ≤ d.f RAIL_XSEQ_TONMIN n + d.f RAIL_XSEQ_TOFFMIN n
    let fine := fun d : Dev => ¬ bad1 d ∧ ¬ bad2 d ∧ ¬ bad4 d
    let refused := fun (pre : Dev → Prop) (why : Nat) =>
      ActsOn (.expertCommit n) (fun s => open_ s ∧ pre s.dev) [RAIL_FLAGS.addr n, RAIL_XSTAT.addr n] fun d t =>
        t.b RAIL_FLAGS_COMMIT_REFUSED n = true ∧ t.f RAIL_XSTAT_WHY n = why ∧ t.act = d.act
    refused bad1 1 ∧ refused (fun d => ¬ bad1 d ∧ bad2 d) 2 ∧ refused (fun d => ¬ bad1 d ∧ ¬ bad2 d ∧ bad4 d) 4 ∧
    Acts (.expertCommit n) (fun s => open_ s ∧ fine s.dev ∧ (s.dev.rail n).wait = none ∧ (s.dev.rail n).phase = .running)
      (fun d t => OnlyRegs [RAIL_XSTAT.addr n] d t ∧ t.act = d.act ∧ t.b RAIL_XSTAT_COMMIT_BUSY n = true ∧
        (t.rail n).wait = some (offs.map fun o => (o, d.rd (base + o)))) ∧
    Acts (.expertCommit n) (fun s => open_ s ∧ fine s.dev ∧ (s.dev.rail n).wait = none ∧ (s.dev.rail n).phase ≠ .running)
      (fun d t => (∀ o ∈ offs, t.forceAt n o = d.rd (base + o)) ∧ (t.rail n).wait = none ∧
        t.b RAIL_XSTAT_COMMIT_BUSY n = false ∧ t.b RAIL_FLAGS_COMMIT_DONE n = true) ∧
    ActsOn (.expertCommit n) (fun s => Unlocked s ∧ s.dev.b RAIL_CTRL_EXPERT_UNLOCK n = false) [] (fun _ _ => True) ∧
    (∀ ws : List (Nat × Nat), (ws.map (·.1)).Nodup → (∀ p ∈ ws, p.1 ∈ offs ∧ p.2 < 2 ^ 32) →
      Runs (.commitTakeForce n) (fun s => (s.dev.rail n).wait = some ws) fun d t =>
        (∀ p ∈ ws, t.forceAt n p.1 = p.2) ∧ (t.rail n).wait = none ∧ t.b RAIL_XSTAT_COMMIT_BUSY n = false ∧
        t.b RAIL_FLAGS_COMMIT_DONE n = true ∧ t.f RAIL_XSTAT_COMMITS n = (d.f RAIL_XSTAT_COMMITS n + 1) % 2 ^ 16) ∧
    NoEffect (.commitTakeForce n) (fun s => (s.dev.rail n).wait = none) ∧
    Acts (.expertRevert n) open_ (fun d t => (∀ o ∈ offs, t.forceAt n o = d.im (base + o) ∧ t.rd (base + o) = d.im (base + o)) ∧
      (t.rail n).wait = none ∧ t.b RAIL_XSTAT_COMMIT_BUSY n = false ∧ t.b RAIL_CTRL_EXPERT n = false) ∧
    ActsOn (.expertRevert n) (fun s => Unlocked s ∧ s.dev.b RAIL_CTRL_EXPERT_UNLOCK n = false) [] (fun _ _ => True)

/-- R48, R50, R51 and R54: a decision of a rail that regulates or discharges shows the error of the sample against the
reference of its hold edge, its tags and VSENSE, and the current of each of the rail's slices; VSLEW moves toward the target
by one step, also in the decisions before the first switching one. In the pre-bias measurement (R59) a decision counts a
sample of a window of 16, and VPRE is the last sample of the first window whose last sample carries no tag; a decision of a
rail that is not enabled leaves its sample registers. The number shown as DECISION (log entry 63) and the reference paired
with a sample (log entry 4) are the model's readings, and the reference where none is queued, the sample registers of a rail
that is not enabled and VREF in the decisions before the first switching one are its choices (log entry 70). -/
def Obligations.DecisionTakesSamples : Prop :=
  ∀ (n : Fin 8) (vs : Int) (raws : List (BitVec 12)) (cf : Word) (s : State), Powered s → FabricRuns s → Calm s →
    s.dev.f CHAIN_STAT_CKSTATE ≠ ckExpired → (s.dev.rail n).sq.pend = [] → (s.dev.rail n).sq.swapTo = none →
    Completes (.decision n vs raws cf) s fun t =>
      let d := s.dev
      let t := t.dev
      let vref : Nat := (d.rail n).lp.vrefPipe.headD (d.f RAIL_VREF_VREF n)
      let e := satS 12 ((vref : Int) - vs)
      let on := d.b RAIL_STAT_ENABLED n = true
      let loop := (d.rail n).phase = .running ∧ (d.rail n).lp.skip = 0 ∨ (d.rail n).phase = .discharge
      (on → loop → toS 12 (t.f RAIL_ERR_ERR n) = e ∧ t.b RAIL_ERR_OVW n = decide (e = -2048) ∧
        t.b RAIL_ERR_UNW n = decide (e = 2047) ∧ t.f RAIL_ERR_DECISION n = (d.rail n).lp.index % 2 ^ 16 ∧
        t.f RAIL_VSENSE_VSENSE n = satU 16 (((vref : Int) - e + 1) / 2) ∧
        t.b RAIL_VSENSE_VALID n = decide (e ≠ -2048 ∧ e ≠ 2047)) ∧
      (on → (d.rail n).phase = .running → d.b RAIL_STAT_SHUTTING n = false →
        let v := (d.rail n).lp.vslew
        let dest := 2 * d.f RAIL_VTARGET_VTARGET n * 2 ^ 16
        let step := d.a RAIL_XSLEWSTEP_STEP n
        (t.rail n).lp.vslew = if v < dest then min (v + step) dest else max (v - step) dest) ∧
      (∀ i < 32, d.sRail i = n →
        let raw := (raws.getD i 0).toInt
        let raw := if (d.slice i).isinv then -raw else raw
        t.fs SLICE_I_I i = satS 12 ((2 * ((raw - d.fs SLICE_OFS_OFS i) * d.fs SLICE_KI_KI i) + 2 ^ 22) / 2 ^ 23)) ∧
      (on → (d.rail n).phase = .running → d.b RAIL_STAT_SHUTTING n = false → (t.rail n).lp.skip = (d.rail n).lp.skip - 1) ∧
      (on → (d.rail n).phase = .prebias → (d.rail n).lp.preN < 64 →
        let k := (d.rail n).lp.preN
        let off : Int := [2000, 6000, 10000, 14000].getD (k / 16) 0 - vs
        (t.rail n).lp.preN = k + 1 ∧
        (t.rail n).lp.vpre =
          if (d.rail n).lp.vpre = none ∧ k % 16 = 15 ∧ -2048 < off ∧ off < 2047 then some vs else (d.rail n).lp.vpre) ∧
      (¬ on → t.r RAIL_ERR n = d.r RAIL_ERR n ∧ t.r RAIL_VSENSE n = d.r RAIL_VSENSE n)

/-- R145, R147, R162, R168 and R170: a boundary of a rail counts itself, takes the switching period that RAIL_PWM gives and
names the next boundary one period later; a slice's own period start names the next one and begins the on-time, in fast
discharge not (R168); a discharge that has lasted DIS_TMAX ends the shutdown. A rail that does not switch, a slice that does
not switch and a rail that does not shut down are left as they are. That SLICE_TON shows 0 for a period without an on-edge is
the model's reading (log entry 63). -/
def Obligations.BoundariesAdvance : Prop :=
  ∀ (n : Fin 8) (i : Fin 32),
    let settled := fun s : State => Powered s ∧ FabricRuns s ∧ Calm s ∧ s.dev.f CHAIN_STAT_CKSTATE ≠ ckExpired ∧
      (s.dev.rail n).sq.swapTo = none
    (∀ s, settled s → s.dev.spanOf n = none →
      (s.dev.rail n).phase = .running ∨ (s.dev.rail n).phase = .discharge ∧ s.dev.b RAIL_STAT_SHUTTING n = true →
      Completes (.periodBoundary n) s fun t => SameMem s t ∧ SameQueue s t ∧
        t.dev.f RAIL_BOUND_COUNT n = (s.dev.f RAIL_BOUND_COUNT n + 1) % 2 ^ 16 ∧
        (t.dev.rail n).sq.tsw = s.dev.f RAIL_PWM_TSW n ∧
        (t.dev.rail n).sq.bEdge = (s.dev.rail n).sq.bEdge + s.dev.f RAIL_PWM_TSW n) ∧
    NoEffect (.periodBoundary n) (fun s => settled s ∧ (s.dev.rail n).phase ∉ [.armed, .running, .discharge]) ∧
    let late := fun s : State => s.dev.b RAIL_STAT_SHUTTING n = true ∧
      (s.dev.rail n).sq.shutAt + 400 * s.dev.a RAIL_XDISTM_DIS_TMAX n ≤ s.dev.now
    (∀ s, settled s → late s → Completes (.dischargeTimeout n) s fun t => SameMem s t ∧
      SameQueue s t ∧ t.dev.b RAIL_STAT_ENABLED n = false ∧ t.dev.b RAIL_STAT_SHUTTING n = false ∧
      t.dev.b RAIL_CTRL_EN n = false ∧ t.dev.b RAIL_FLAGS_SHUT_DONE n = true ∧ (t.dev.rail n).phase = .idle) ∧
    NoEffect (.dischargeTimeout n) (fun s => settled s ∧ ¬ late s) ∧
    let switches := fun s : State => s.dev.isOn i = true ∧ s.dev.sState i = stActive ∧
      (s.dev.rail (s.dev.sRail i)).phase ≠ .discharge
    Runs (.slicePeriodBoundary i) (fun s => switches s ∧ (s.dev.slice i).bg.second = false ∧
        (s.dev.slice i).imbCnt < 7) (fun d t =>
      let x := d.slice i
      (t.slice i).nextAt = x.nextAt + (d.rail (d.sRail i)).sq.tsw ∧ (t.slice i).perAt = x.nextAt ∧
      (x.base = 0 → t.f SLICE_TON_TON i = 0) ∧
      (x.base ≠ 0 → x.whUntil ≤ x.nextAt → (t.slice i).onAt = x.nextAt)) ∧
    NoEffect (.slicePeriodBoundary i) (fun s => ¬ switches s)

/-- R52, R53, R257 and R455: a housekeeping sample of VINS enters RAIL_VIN of every rail, one of a TSEN channel the
temperature of its cluster, one of the battery VBAT_LOW, and one of a die sensor its temperature by the sensor's trims. That
VIN is the code where no PINMAP is in force is the model's reading (log entry 42), and that the code of a die sensor is signed
is its choice (log entry 75). -/
def Obligations.HousekeepingDelivers : Prop :=
  ∀ code : Half,
    Runs (.housekeepingSlot 0 code) (fun s => s.dev.cfg.pinmap = false) (fun d t =>
      (∀ n < 8, t.f RAIL_VIN_VIN n = code.toNat) ∧ t.f SYSCTL_HKSTAT_SLOT = (d.f SYSCTL_HKSTAT_SLOT + 1) % 46) ∧
    (∀ k : Fin 8, Runs (.housekeepingSlot ⟨k + 1, by omega⟩ code) (fun _ => True) fun d t =>
      t.fs CL_STAT_TEMP k = satS 16 ((2 * (((code.toNat : Int) - d.f ACCUM_TSCAL_TZERO) * d.f ACCUM_TSCAL_TSLOPE) + 256) / 512)) ∧
    Runs (.housekeepingSlot 9 code) (fun _ => True) (fun _ t => t.b BD_STAT_VBAT_LOW = decide (code.toNat < 1800)) ∧
    (∀ k : Fin 2, Runs (.housekeepingSlot ⟨k + 17, by omega⟩ code) (fun _ => True) fun d t =>
      let trim := d.flash.dt.getD k 0
      t.accum.hk.toList.getD (k + 17) 0 =
        ofS 16 (satS 16 ((2 * ((toS 16 code.toNat - toS 16 (trim % 2 ^ 16)) * (trim / 2 ^ 16 % 2 ^ 16 : Nat)) + 2 ^ 14) / 2 ^ 15)))

/-! ### The intent port and Hawkmoth (R107-R128, R136, R137) -/

/-- R109 to R114, R122 and R136: a frame on the open port with a wrong CRC or with TYPE 3 sets its flag and its count and
reaches no rail; a good one is recorded, and a listening rail in regulation without a prediction makes it ACTIVE with its
time, rise and magnitude; partial frames are counted, and long ones once per frame; the stuck state is entered and left,
after 512 cycles without an edge, with its flag and its entry; a relayed frame counts no error; PORT_EN 0 ends a stuck state
without STUCK_CLR. HM_PORTSTAT shows the levels that the edges leave on the lines, also while the port is stopped, and in
SAFE nothing else happens (R34). On a stopped port, or where GAP idle cycles before edge 0 cannot have passed, a frame is
none. A frame of the port is accepted 3 cycles after TE, and a relayed one 3 cycles after its write (R110, R113). That edge
0 lies 2 cycles per edge before the last edge, and that an edge in the 3 cycles before the acceptance makes the frame LONG,
is the model's reading (log entry 71). -/
def Obligations.IntentPortTakesFrames : Prop :=
  ∀ (fr : BitVec 40) (edges : Nat) (ck d0 d1 : Bool) (v : Word),
    let on := fun s : State => s.dev.b HM_CTRL_PORT_EN = true ∧ s.dev.b HM_PORTSTAT_STUCK = false ∧ Unlocked s
    let gap := fun s : State => max 8 (s.dev.f HM_PORTCFG_GAP)
    let idleAt := fun (s : State) (now : Nat) => ∀ e, s.dev.hm.edgeAt = some e → e + gap s ≤ now
    let free := fun s : State => on s ∧ idleAt s (s.dev.now - 3 - 38)
    let partial_ := fun s : State => on s ∧ 0 < edges ∧ edges < 20 ∧ idleAt s (s.dev.now - gap s - 2 * (edges - 1))
    let quiet := fun s : State => ∀ e, s.dev.hm.edgeAt = some e → e + 512 ≤ s.dev.now
    let portOnly := fun (l : List Nat) (edge : Option Nat) (d t : Dev) => OnlyRegs l d t ∧ t.hm.edgeAt = edge ∧
      { t with regs := d.regs, act := d.act, bus := d.bus
               free := d.free
               hm := { t.hm with edgeAt := d.hm.edgeAt, longOpen := d.hm.longOpen, longAt := d.hm.longAt } } = d
    let levels := fun (t : Dev) (x y z : Bool) => t.b HM_PORTSTAT_CK = x ∧ t.b HM_PORTSTAT_D0 = y ∧ t.b HM_PORTSTAT_D1 = z
    let stays := fun d t : Dev => t.b HM_PORTSTAT_STUCK = d.b HM_PORTSTAT_STUCK ∧
      t.f HM_PORTSTAT_EDGES = d.f HM_PORTSTAT_EDGES
    -- edge 19 falls with the last two bits, unless an edge has come since
    let edge19 := fun d t : Dev => (∀ e, d.hm.longAt = some e → e ≤ d.now - 3) → levels t false (fr.getLsbD 0) (fr.getLsbD 1)
    let last := fun d : Dev => (d.hm.longAt.filter fun e => decide (d.now - 3 < e)).getD (d.now - 3)
    let ended := fun d t : Dev => edge19 d t ∧ t.hm.edgeAt = some (last d) ∧ t.hm.longAt = none ∧
      t.hm.longOpen = decide (last d = d.now - 3) ∧ (last d ≠ d.now - 3 → t.b HM_FLAGS_LONG = true)
    let fld := fun (x : BitVec 40) (lo w : Nat) => x.toNat / 2 ^ lo % 2 ^ w
    let crcOk := fun x : BitVec 40 => crc8 [fld x 32 8, fld x 24 8, fld x 16 8, fld x 8 8] = fld x 0 8
    let listens := fun (d : Dev) (x : BitVec 40) (n : Nat) =>
      d.b HMRAIL_CTRL_EN_INTENT n = true ∧ d.f HMRAIL_CTRL_TAG n = fld x 32 6
    let taken := fun (x : BitVec 40) (src te : Nat) (d t : Dev) =>
      t.r HM_LASTFRAME_LO = x.toNat % 2 ^ 32 ∧ t.f HM_LASTFRAME_HI_BITS = fld x 32 8 ∧
      t.f HM_LASTFRAME_HI_RELAYED = src ∧ t.r HM_CNT_OK = (d.r HM_CNT_OK + 1) % 2 ^ 32 ∧
      ((∀ n < 8, ¬ listens d x n) → t.b HM_FLAGS_NOMATCH = true) ∧
      ∀ n < 8, listens d x n → fld x 38 2 < 2 → d.b RAIL_STAT_POWER_GOOD n = true → d.b RAIL_STAT_SHUTTING n = false →
        ∃ p, (t.hr n).act = some p ∧ p.down = decide (fld x 38 2 = 1) ∧ p.rise = fld x 8 6 ∧ p.src = src ∧
          p.ts = (te + 8 * fld x 14 8) % 2 ^ 32 ∧
          p.mr = satS 24 ((2 * (fld x 22 10 * 64 * d.f HMRAIL_MAGSCALE_SCALE n : Int) + 2 ^ 22) / 2 ^ 23) ∧
          t.b HMRAIL_FLAGS_ACCEPT n = true
    let idle := fun (x : BitVec 40) (s : State) => ∀ n < 8, listens s.dev x n → (s.dev.hr n).act = none
    let errs := [HM_PORTSTAT.addr 0, HM_FLAGS.addr 0, HM_CNT_ERR.addr 0]
    Runs (.intentFrame fr) (fun s => free s ∧ ¬ crcOk fr)
      (fun d t => portOnly errs (some (last d)) d t ∧ ended d t ∧ t.b HM_FLAGS_CRC_ERR = true ∧
        t.f HM_CNT_ERR_CRC = min (d.f HM_CNT_ERR_CRC + 1) 255) ∧
    Runs (.intentFrame fr) (fun s => free s ∧ crcOk fr ∧ fld fr 38 2 = 3)
      (fun d t => portOnly errs (some (last d)) d t ∧ ended d t ∧ t.b HM_FLAGS_FMT = true ∧
        t.f HM_CNT_ERR_FMT = min (d.f HM_CNT_ERR_FMT + 1) 255) ∧
    Runs (.intentFrame fr) (fun s => free s ∧ crcOk fr ∧ fld fr 38 2 ≠ 3 ∧ idle fr s)
      (fun d t => taken fr 0 (d.r HM_TIME + (2 ^ 32 - 3)) d t ∧ ended d t) ∧
    RunsOn (.intentFrame fr) (fun s => ¬ free s) [HM_PORTSTAT.addr 0] (fun d t => edge19 d t ∧ stays d t) ∧
    Runs (.intentFrameTruncated edges) partial_
      (fun d t => levels t false true true ∧
        portOnly errs (some (d.now - max 8 (d.f HM_PORTCFG_GAP))) d t ∧ t.hm.longOpen = false ∧ t.b HM_FLAGS_TRUNC = true ∧
        t.f HM_CNT_ERR_TRUNC = min (d.f HM_CNT_ERR_TRUNC + 1) 255 ∧ t.f HM_PORTSTAT_EDGES = 0) ∧
    RunsOn (.intentFrameTruncated edges) (fun s => ¬ partial_ s) [HM_PORTSTAT.addr 0]
      (fun d t => levels t false true true ∧ stays d t) ∧
    let long := fun (pre : State → Prop) (l : List Nat) (edge : Dev → Option Nat) (post : Dev → Dev → Prop) =>
      Runs .intentFrameLong pre fun d t => portOnly (HM_PORTSTAT.addr 0 :: l) (edge d) d t ∧
        t.b HM_PORTSTAT_CK = !d.b HM_PORTSTAT_CK ∧ stays d t ∧ post d t
    long (fun s => on s ∧ ¬ idleAt s s.dev.now ∧ s.dev.hm.longOpen = true) [HM_FLAGS.addr 0, HM_CNT_ERR.addr 0]
      (fun d => some d.now) (fun d t => t.hm.longOpen = false ∧ t.hm.longAt = d.hm.longAt ∧ t.b HM_FLAGS_LONG = true ∧
        t.f HM_CNT_ERR_LONG = min (d.f HM_CNT_ERR_LONG + 1) 255) ∧
    long (fun s => on s ∧ ¬ idleAt s s.dev.now ∧ s.dev.hm.longOpen = false) [] (fun d => some d.now)
      (fun d t => t.hm.longOpen = false ∧ t.hm.longAt = d.hm.longAt) ∧
    long (fun s => on s ∧ idleAt s s.dev.now) [] (fun d => d.hm.edgeAt)
      (fun d t => t.hm.longOpen = d.hm.longOpen ∧ t.hm.longAt = some d.now) ∧
    long (fun s => ¬ on s) [] (fun d => d.hm.edgeAt) (fun d t => t.hm = d.hm) ∧
    (Runs (.intentPortStuck ck d0 d1) (fun s => on s ∧ (ck = true ∨ d0 = false ∨ d1 = false) ∧ quiet s) (fun d t =>
       levels t ck d0 d1 ∧ t.b HM_PORTSTAT_STUCK = true ∧ t.b HM_FLAGS_STUCK_SET = true ∧ t.f HM_PORTSTAT_EDGES = 0 ∧
       Arrives d t 2 0x020 0 [t.r HM_PORTSTAT]) ∧
     RunsOn (.intentPortStuck ck d0 d1) (fun s => ¬ on s ∨ (ck = false ∧ d0 = true ∧ d1 = true) ∨ ¬ quiet s)
       [HM_PORTSTAT.addr 0] (fun d t => levels t ck d0 d1 ∧ t.b HM_PORTSTAT_STUCK = d.b HM_PORTSTAT_STUCK) ∧
     Runs .intentPortUnstuck (fun s => Unlocked s ∧ s.dev.b HM_PORTSTAT_STUCK = true ∧ quiet s) (fun d t => levels t false true true ∧
       t.b HM_PORTSTAT_STUCK = false ∧ t.b HM_FLAGS_STUCK_CLR = true ∧ Arrives d t 2 0x021 0 []) ∧
     RunsOn .intentPortUnstuck (fun s => s.dev.modeNow = modeSafe ∨ s.dev.b HM_PORTSTAT_STUCK = false ∨ ¬ quiet s) [HM_PORTSTAT.addr 0]
       (fun d t => levels t false true true ∧ t.b HM_PORTSTAT_STUCK = d.b HM_PORTSTAT_STUCK)) ∧
    (∀ x : BitVec 40, v.toNat = x.toNat % 2 ^ 32 →
      let relays := fun s : State => Unlocked s ∧ s.dev.b HM_CTRL_RELAY_EN = true ∧ s.dev.f HM_RELAY_HI_BITS = fld x 32 8
      ActsOn (.hmRelayLoWrite v) (fun s => relays s ∧ ¬ crcOk x) [HM_FLAGS.addr 0] (fun _ t => t.b HM_FLAGS_CRC_ERR = true) ∧
      ActsOn (.hmRelayLoWrite v) (fun s => relays s ∧ crcOk x ∧ fld x 38 2 = 3) [HM_FLAGS.addr 0]
        (fun _ t => t.b HM_FLAGS_FMT = true) ∧
      Acts (.hmRelayLoWrite v) (fun s => relays s ∧ crcOk x ∧ fld x 38 2 ≠ 3) (fun d t => SameRegs d t ∧
        t.hm = { d.hm with relays := d.hm.relays ++ [(d.r HM_TIME, x.toNat)] }) ∧
      ∀ (s : State) (te : Nat), Powered s → FabricRuns s → Unlocked s → s.pending = [] → s.dev.hm.relays = [(te, x.toNat)] →
        (s.dev.r HM_TIME + 1) % 2 ^ 32 = (te + 3) % 2 ^ 32 → fld x 38 2 ≠ 3 → idle x s →
        ∃ t, step s = .next t ∧ t.dev.hm.relays = [] ∧ taken x 1 te s.dev t.dev) ∧
    ActsOn (.hmRelayLoWrite v) (fun s => Unlocked s ∧ s.dev.b HM_CTRL_RELAY_EN = false) [] (fun _ _ => True) ∧
    Acts (.hmPortEnWrite true) Unlocked (fun d t => t.b HM_CTRL_PORT_EN = true ∧
      portOnly [HM_CTRL.addr 0] (if d.b HM_CTRL_PORT_EN then d.hm.edgeAt else some d.now) d t) ∧
    ActsOn (.hmPortEnWrite false) Unlocked [HM_CTRL.addr 0, HM_PORTSTAT.addr 0] (fun _ t => t.b HM_CTRL_PORT_EN = false ∧
      t.b HM_PORTSTAT_STUCK = false ∧ t.f HM_PORTSTAT_EDGES = 0)

/-- R115 to R121: the bias rule governs from the bias start on; the segments of a schedule that are due are placed, so that
what has been placed is the difference of the rounded shares of MF; a miss at W_END is counted and reversed; a reversal
takes the preempted predictions and the ACTIVE one, cancels its schedule and undoes what was placed; at its end NEXT takes
the place of ACTIVE. Without a prediction, or where the row's condition does not hold, nothing happens. With no prediction and
no event, an observation leaves once its window has passed (R123); an event is learned from the observation that precedes it
(R125); the entries are aged, cleared, read, written and exchanged by their rows (R127, R128, R136). In SAFE Hawkmoth is
stopped (R34). That a segment waits while the engine may not place, that ACCEPT marks the promotion of NEXT, and that the age
tick counts cycles from the tick before it are the model's choices (log entry 71). -/
def Obligations.PredictionsRunTheirCourse : Prop :=
  ∀ n : Fin 8,
    let runs := fun (i : Instr) (pre : State → Prop) (post : Dev → Dev → Prop) => Runs i (fun s => Unlocked s ∧ pre s) post
    let stopped := fun i : Instr => NoEffect i fun s => s.dev.modeNow = modeSafe
    stopped (.predictionBiasStart n) ∧ stopped (.scheduleSegment n) ∧ stopped (.predictionMiss n) ∧ stopped (.reversal n) ∧
    stopped (.predictionEnd n) ∧
    let act := fun s : State => (s.dev.hr n).act
    let reached := fun (s : State) (c : Nat) => 0 ≤ toS 32 (s.dev.r HM_TIME + 2 ^ 32 - c % 2 ^ 32)
    let before := fun (c k : Nat) => (c + 2 ^ 32 - k % 2 ^ 32) % 2 ^ 32
    let may := fun (s : State) (down : Bool) => s.dev.teRuns n = true ∧ (down = true → s.dev.b RAIL_TE_CTRL_DN_EN n = true)
    let biased := fun (s : State) (p : Pred) => p.cancelled = false ∧ reached s (before p.ts (8 * p.tBias))
    runs (.predictionBiasStart n) (fun s => ∃ p, act s = some p ∧ biased s p) (fun d t => SameRegs d t ∧
      (t.hr n).act = (d.hr n).act.map (fun p => { p with biasOn := true }) ∧ (t.hr n).revStep = 0) ∧
    NoEffect (.predictionBiasStart n) (fun s => ∀ p, act s = some p → ¬ biased s p) ∧
    (∀ p : Pred,
      let sg := max 1 p.rise
      let mf : Int := (2 * (p.mr * p.preFrac) + 2 ^ 8) / 2 ^ 9
      let share : Nat → Int := fun j => (2 * (mf * j) + sg) / (2 * sg)
      let due := fun (s : State) (j : Nat) => reached s (before p.ts (8 * p.tFire) + 16 * j)
      runs (.scheduleSegment n) (fun s => act s = some p ∧ p.cancelled = false ∧ p.preFrac ≠ 0 ∧ p.j0 < sg ∧
          p.resized = none ∧ may s p.down)
        (fun _ t => ∃ q, (t.hr n).act = some q ∧ p.j0 ≤ q.j0 ∧ q.j0 ≤ sg ∧ q.ps = p.ps + (share q.j0 - share p.j0)) ∧
      runs (.scheduleSegment n) (fun s => act s = some p ∧ p.cancelled = false ∧ p.preFrac ≠ 0 ∧ p.j0 < sg ∧
          p.resized = none ∧ may s p.down ∧ ∀ j < sg, p.j0 ≤ j → due s j)
        (fun _ t => ∃ q, (t.hr n).act = some q ∧ q.j0 = sg ∧ q.ps = p.ps + (mf - share p.j0))) ∧
    NoEffect (.scheduleSegment n) (fun s => ∀ p, act s = some p → ¬ may s p.down) ∧
    let misses := fun (s : State) (p : Pred) => p.hit = false ∧ p.cancelled = false ∧ p.missed = false ∧
      reached s (p.ts + 8 * p.wLate + 16 * p.rise)
    (∀ p : Pred, runs (.predictionMiss n) (fun s => act s = some p ∧ misses s p)
      fun d t => t.b HMRAIL_FLAGS_MISS n = true ∧ t.f HMRAIL_SCORE_MISSES n = min (d.f HMRAIL_SCORE_MISSES n + 1) 65535 ∧
        (t.hr n).revCause = true ∧ (t.hr n).act = some { p with missed := true }) ∧
    NoEffect (.predictionMiss n) (fun s => ∀ p, act s = some p → ¬ misses s p) ∧
    (∀ p : Pred, runs (.reversal n) (fun s => act s = some p ∧ (s.dev.hr n).revCause = true ∧ p.cancelled = false)
      fun d t => (t.hr n).revCause = false ∧ (t.hr n).revOld = [] ∧ t.b HMRAIL_STAT_REVERSING n = true ∧
        (t.rail n).sq.rev = (d.rail n).sq.rev ++ (d.hr n).revOld.map (·.id) ++ [p.id] ∧
        (t.hr n).act = some { p with cancelled := true, armed := false, biasOn := false } ∧
        (p.opp < p.ps → d.teRuns n = true → p.down = true ∨ d.b RAIL_TE_CTRL_DN_EN n = true →
          t.b RAIL_TE_FLAGS_REVERSE n = true)) ∧
    NoEffect (.reversal n) (fun s => (s.dev.hr n).revCause = false ∧ (s.dev.hr n).revOld = []) ∧
    (∀ p : Pred,
      let ended := fun s : State => act s = some p ∧ s.dev.due p.wEnd = true ∧ p.schedDone = true ∧ (s.dev.hr n).hmb = 0
      runs (.predictionEnd n) (fun s => ended s ∧ (s.dev.hr n).next = none) (fun _ t => (t.hr n).act = none) ∧
      (∀ q, runs (.predictionEnd n) (fun s => ended s ∧ (s.dev.hr n).next = some q) fun _ t => (t.hr n).next = none ∧
        t.b HMRAIL_FLAGS_ACCEPT n = true ∧ ∃ a, (t.hr n).act = some a ∧ a.ts = q.ts ∧ a.mr = q.mr ∧ a.rise = q.rise ∧
          a.down = q.down ∧ a.src = q.src) ∧
      NoEffect (.predictionEnd n) (fun s => act s = some p ∧ s.dev.due p.wEnd = false)) ∧
    (∀ (o : Obs) (e : Fin 64) (last : Nat) (dl : Int) (down : Bool),
      let entry := fun (d : Dev) => (d.hr n).sig.getD e (0, 0)
      let data := fun (d : Dev) => (BitVec.ofNat 32 (d.r HM_SIGDATA0), BitVec.ofNat 32 (d.r HM_SIGDATA1))
      runs (.observationExpiry n) (fun s => s.dev.b HMRAIL_CTRL_LEARN n = false ∧ (s.dev.hr n).obs = [o] ∧
        reached s (o.time + 8 * o.win)) (fun _ t => (t.hr n).obs = []) ∧
      runs (.signatureLearn n) (fun s => s.dev.b HMRAIL_CTRL_LEARN n = true ∧ s.dev.spanOf n = none ∧ 0 < o.win ∧
          (s.dev.hr n).ev = [(o.time, some last, dl, down)] ∧ (s.dev.hr n).obs = [o] ∧ (s.dev.hr n).sig = [] ∧
          (s.dev.hr n).wrAt = none ∧ o.win < 2 ^ 20 ∧ o.time < 2 ^ 32)
        (fun _ t => t.b HMRAIL_FLAGS_LEARNED n = true ∧ (t.hr n).ev = [] ∧ (t.hr n).obs = []) ∧
      runs (.signatureAgeTick n) (fun s =>
          s.dev.hm.cyc = (s.dev.hr n).ageAt + 400000 * 2 ^ s.dev.f HMRAIL_XLEARN_AGE_DIV n ∧ (s.dev.hr n).sig = [])
        (fun d t => SameRegs d t ∧ (t.hr n).sig = [] ∧ (t.hr n).ageAt = d.hm.cyc) ∧
      Acts (.hmrailClear n) Unlocked (fun _ t => entry t = (0, 0) ∧ (t.hr n).obs = []) ∧
      Acts (.signatureRead n e) Unlocked (fun d t => data t = entry d ∧ entry t = entry d) ∧
      Acts (.signatureWrite n e) Unlocked (fun d t => entry t = data d ∧ data t = data d) ∧
      Acts (.signatureExchange n e) Unlocked (fun d t => entry t = data d ∧ data t = entry d))

/-- R123 to R128, R136, R137 and R139: the oldest observation whose window has passed leaves and lowers the confidence of the
entry of its key, which becomes invalid at 0; the event that ended first is
learned into the lowest invalid entry or moves the entry of its key a quarter of the way, a tick, due every 2^AGE_DIV ms and
not sooner, ages the valid entries, CLEAR empties the table, and the data registers read, write and exchange an entry, a
write making another valid entry of its key invalid. In SAFE Hawkmoth is stopped (R34). That the tick counts cycles from the
tick before it, by the AGE_DIV that then stands, is the model's choice (log entry 71). -/
def Obligations.SignaturesAreLearned : Prop :=
  ∀ (n : Fin 8) (e : Fin 64),
    let runs := fun (i : Instr) (pre : State → Prop) (post : Dev → Dev → Prop) => Runs i (fun s => Unlocked s ∧ pre s) post
    let stopped := fun i : Instr => NoEffect i fun s => s.dev.modeNow = modeSafe
    stopped (.observationExpiry n) ∧ stopped (.signatureLearn n) ∧ stopped (.signatureAgeTick n) ∧
    let sig := fun (d : Dev) (k : Nat) => (d.hr n).sig.getD k (0, 0)
    let valid := fun x : Word × Word => x.1.getLsbD 31
    let key := fun x : Word × Word => x.1.toNat % 2 ^ 19
    let conf := fun x : Word × Word => x.1.toNat / 2 ^ 20 % 16
    let age := fun x : Word × Word => x.1.toNat / 2 ^ 24 % 16
    let passed := fun (s : State) (o : Obs) => 0 ≤ toS 32 (s.dev.r HM_TIME + 2 ^ 32 - (o.time + 8 * o.win) % 2 ^ 32)
    let noEvent := fun s : State => s.dev.b HMRAIL_CTRL_LEARN n = false ∨
      (s.dev.hr n).ev = [] ∧ (s.dev.hr n).hits = [] ∧ (s.dev.rail n).te.learn = false ∧ (s.dev.hr n).act = none
    (∀ o pre rest, runs (.observationExpiry n) (fun s => (s.dev.hr n).obs = pre ++ o :: rest ∧
        (∀ x ∈ pre, ¬ passed s x) ∧ passed s o ∧ noEvent s)
      fun d t => SameRegs d t ∧ (t.hr n).obs = pre ++ rest ∧ ∀ k < 64,
        let named := fun j : Nat => valid (sig d j) = true ∧ key (sig d j) = o.token % 2 ^ 16 + o.engine * 2 ^ 16
        let falls := named k ∧ ∀ j < k, ¬ named j
        (¬ falls → sig t k = sig d k) ∧
        (falls → conf (sig t k) = conf (sig d k) - 1 ∧ valid (sig t k) = decide (1 < conf (sig d k)) ∧
          key (sig t k) = key (sig d k) ∧ age (sig t k) = age (sig d k) ∧ (sig t k).2 = (sig d k).2)) ∧
    NoEffect (.observationExpiry n) (fun s => ∀ o ∈ (s.dev.hr n).obs, ¬ passed s o) ∧
    (∀ (tsp : Nat) (last : Option Nat) (dl : Int) (down : Bool) (o : Obs) (evs : List (Nat × Option Nat × Int × Bool)),
      let l := (min (max ((2 * tdiff tsp o.time + 8) / 16) 1) 255).toNat
      let mo := min (((2 * dl.natAbs + 64) / 128)) 1023
      let ro := fun l : Nat => (min (max ((2 * tdiff l tsp + 16) / 32) 0) 63).toNat
      let k := o.token % 2 ^ 16 + o.engine * 2 ^ 16
      let learns := fun s : State => s.dev.b HMRAIL_CTRL_LEARN n = true ∧ s.dev.spanOf n = none ∧
        (s.dev.hr n).ev = (tsp, last, dl, down) :: evs ∧ (s.dev.hr n).obs = [o] ∧ 0 ≤ tdiff tsp o.time ∧
        tdiff tsp (tadd o.time (8 * o.win)) < 0 ∧ (s.dev.hr n).wrAt ≠ some (s.dev.now, 0)
      runs (.signatureLearn n) (fun s => learns s ∧ o.engine < 8 ∧ (s.dev.hr n).sig = []) (fun _ t =>
        t.b HMRAIL_FLAGS_LEARNED n = true ∧ (t.hr n).obs = [] ∧ (t.hr n).ev = evs ∧
        valid (sig t 0) = true ∧ key (sig t 0) = k ∧ conf (sig t 0) = 1 ∧ age (sig t 0) = 0 ∧
        (sig t 0).1.getLsbD 19 = down ∧ (sig t 0).2.toNat % 2 ^ 18 = mo + l * 2 ^ 10 ∧
        ∀ x, last = some x → (sig t 0).2.toNat = mo + l * 2 ^ 10 + ro x * 2 ^ 18) ∧
      (∀ (x : Word × Word), runs (.signatureLearn n) (fun s => learns s ∧ (s.dev.hr n).sig = [x] ∧ valid x = true ∧
          key x = k ∧ x.1.getLsbD 19 = down) fun _ t =>
        let q := fun (a b : Nat) => ((a : Int) + (2 * ((b : Int) - a) + 4) / 8).toNat
        (∀ y, last = some y → (sig t 0).2.toNat = q (x.2.toNat % 2 ^ 10) mo + q (x.2.toNat / 2 ^ 10 % 2 ^ 8) l * 2 ^ 10 +
          q (x.2.toNat / 2 ^ 18 % 2 ^ 6) (ro y) * 2 ^ 18) ∧
        conf (sig t 0) = min 15 (conf x + 1) ∧ age (sig t 0) = 0 ∧ key (sig t 0) = k)) ∧
    NoEffect (.signatureLearn n) (fun s => (s.dev.hr n).ev = []) ∧
    let tick := fun s : State => 400000 * 2 ^ s.dev.f HMRAIL_XLEARN_AGE_DIV n ≤ s.dev.hm.cyc - (s.dev.hr n).ageAt
    NoEffect (.signatureAgeTick n) (fun s => ¬ tick s) ∧
    runs (.signatureAgeTick n) tick (fun d t => SameRegs d t ∧
      (t.hr n).ageAt = d.hm.cyc - (d.hm.cyc - (d.hr n).ageAt) % (400000 * 2 ^ d.f HMRAIL_XLEARN_AGE_DIV n) ∧ ∀ k < 64,
      (valid (sig d k) = false → sig t k = sig d k) ∧
      (valid (sig d k) = true → age (sig d k) < 15 → 0 < conf (sig d k) →
        age (sig t k) = age (sig d k) + 1 ∧ conf (sig t k) = conf (sig d k) ∧ (sig t k).2 = (sig d k).2) ∧
      (valid (sig d k) = true → age (sig d k) = 15 → 1 < conf (sig d k) →
        age (sig t k) = 8 ∧ conf (sig t k) = conf (sig d k) - 1) ∧
      (valid (sig d k) = true → age (sig d k) = 15 → conf (sig d k) = 1 → valid (sig t k) = false)) ∧
    Acts (.hmrailClear n) Unlocked (fun d t => OnlyRegs [HMRAIL_SCORE.addr n] d t ∧ t.r HMRAIL_SCORE n = 0 ∧
      (t.hr n).obs = [] ∧ ∀ k < 64, valid (sig t k) = false) ∧
    ActsOn (.signatureRead n e) Unlocked [HM_SIGSEL.addr 0, HM_SIGDATA0.addr 0, HM_SIGDATA1.addr 0] (fun d t =>
      t.r HM_SIGDATA0 = (sig d e).1.toNat ∧ t.r HM_SIGDATA1 = (sig d e).2.toNat) ∧
    (let put := fun (d t : Dev) =>
      sig t e = (BitVec.ofNat 32 (d.r HM_SIGDATA0), BitVec.ofNat 32 (d.r HM_SIGDATA1)) ∧
      (∀ k < 64, k ≠ e.val → (sig t k).2 = (sig d k).2 ∧
        (valid (sig t k) = true ↔ valid (sig d k) = true ∧
          ¬ (valid (sig t e) = true ∧ key (sig d k) = key (sig t e)))) ∧ ∀ m < 8, m ≠ n.val → t.hr m = d.hr m
     Acts (.signatureWrite n e) Unlocked (fun d t => OnlyRegs [HM_SIGSEL.addr 0] d t ∧ put d t) ∧
     Acts (.signatureExchange n e) Unlocked (fun d t =>
      OnlyRegs [HM_SIGSEL.addr 0, HM_SIGDATA0.addr 0, HM_SIGDATA1.addr 0] d t ∧ put d t ∧
      t.r HM_SIGDATA0 = (sig d e).1.toNat ∧ t.r HM_SIGDATA1 = (sig d e).2.toNat))

/-! ### Calibration, readmission and stage faults (R157-R159, R172-R179, R185) -/

/-- R174 to R176, R179: the offset candidate is the rounded mean of 256 codes; a pulse's end drives tri-state; the results
are those of R175 and the first failing check of R176 gives the code: a pass waits for the boundary and a failure makes the
slice FAULTED with cause CAL; ZMAX's end gives NO_ZERO where the ZERO condition does not hold, or before a pulse the failing
check on the offset; after the last pulse it does nothing. ZMAX's end acts no sooner than its time, and a pulse's end no
sooner than 4 cycles before the end it names, since it stands where a decision does, whose hold edge lies before it: the
model's reading (log entry 4), as is that ZERO is judged by the latest 16 codes (log entry 41). -/
def Obligations.CalibrationForms : Prop :=
  ∀ i : Fin 32,
    let inCal := fun s : State => s.dev.sState i = stCal ∨ s.dev.sState i = stReadmit
    let failed := fun (d t : Dev) (code : Nat) =>
      t.sState i = stFaulted ∧ t.f SLICE_FCAUSE_CAUSE i = 7 ∧ t.f SLICE_CALRES0_RESULT i = code ∧
      t.b RAIL_FLAGS_CAL_FAIL (d.sRail i) = true ∧
      t.b SLICE_FLAGS_CAL_FAIL i = true ∧ (d.sState i = stReadmit → t.b SLICE_FLAGS_READMIT_FAIL i = true)
    let ofsFails := fun (d : Dev) =>
      let c := (d.slice i).cal
      if d.a RAIL_XCAL_OFS_LIM (d.sRail i) < (c.ofs - toS 12 (d.im (SLICE_XOFS.addr i))).natAbs then 1
      else if 2 * (d.a RAIL_XCAL2_SPREAD (d.sRail i) : Int) < c.ofsMax - c.ofsMin then 2 else 0
    let offsetDue := fun s : State => inCal s ∧ s.dev.f SLICE_STAT_CALSTEP i = 2 ∧ (s.dev.slice i).cal.ofsN = 256
    Runs (.calOffsetDone i) offsetDue (fun d t => OnlyRegs [SLICE_CALRES0.addr i, SLICE_STAT.addr i] d t ∧
      (t.slice i).cal.ofs = (2 * (d.slice i).cal.ofsSum + 256) / 512 ∧ t.f SLICE_STAT_CALSTEP i = 3 ∧
      t.f SLICE_CALRES0_OFS i = ofS 12 (t.slice i).cal.ofs) ∧
    NoEffect (.calOffsetDone i) (fun s => ¬ offsetDue s) ∧
    let pulsed := fun s : State => (s.dev.slice i).cal.pulsing = true ∧
      (s.dev.slice i).cal.h0 + 2 * (2 * s.dev.calTh (s.dev.sRail i) + 8) < s.dev.now + 5
    Runs (.calPulseEnd i) pulsed (fun d t => OnlyRegs [SLICE_STAT.addr i] d t ∧
      t.f SLICE_STAT_LEVEL i = lvTri ∧ (t.slice i).cal.pulsing = false ∧
      (t.slice i).cal.pulses = (d.slice i).cal.pulses + 1) ∧
    NoEffect (.calPulseEnd i) (fun s => ¬ pulsed s) ∧
    Runs (.calResult i) (fun s => inCal s ∧ s.dev.f SLICE_STAT_CALSTEP i = 4 ∧
        (let c := (s.dev.slice i).cal
         c.abort = false ∧ c.ret = false ∧ c.a ≠ 0 ∧ c.a + c.b ≠ 0 ∧ c.v ≠ 0)) (fun d t =>
      let c := (d.slice i).cal
      let n := d.sRail i
      let npl : Int := d.npl n
      let th : Int := 64 * d.calTh n
      let dcr := rdivI (25600000 * c.v * th * npl * (c.a - c.b)) (1000 * c.a * (th * (c.a + c.b)))
      let lq := rdivI (256 * th * (25600 * npl * c.v - (2 * c.z + c.a) * dcr)) (1000 * c.a * 25600)
      let lnom := d.a RAIL_XCAL2_LNOM n
      let res : Nat :=
        if ofsFails d ≠ 0 then ofsFails d
        else if c.a ≤ 0 ∨ d.a RAIL_XCAL_LTOL n * lnom / 256 < (lq - lnom).natAbs then 3
        else if dcr < 0 ∨ 16 * (d.a RAIL_XCAL_DCR_MAX n : Int) < dcr then 4 else 0
      t.f SLICE_CALRES1_LQ i = satU 16 lq ∧ t.f SLICE_CALRES1_DCR i = satU 16 dcr ∧ t.f SLICE_CALRES0_RESULT i = res ∧
      (res ≠ 0 → failed d t res) ∧
      (res = 0 → t.f SLICE_CALRES0_PASSES i = min (d.f SLICE_CALRES0_PASSES i + 1) 65535) ∧
      (res = 0 → d.sState i = stCal → t.sState i = stCal ∧ (t.slice i).cal.ret = true) ∧
      (res = 0 → d.sState i = stReadmit → t.b SLICE_FLAGS_READMIT_OK i = true)) ∧
    NoEffect (.calResult i) (fun s => s.dev.f SLICE_STAT_CALSTEP i ≠ 4) ∧
    let zmax := fun s : State =>
      (s.dev.slice i).cal.since + 400 * max 1 (s.dev.a RAIL_XCAL2_ZMAX (s.dev.sRail i)) ≤ s.dev.now
    let zero := fun s : State => (s.dev.slice i).cal.win.length = 16 ∧
      spreadOf (s.dev.slice i).cal.win ≤ s.dev.a RAIL_XCAL2_SPREAD (s.dev.sRail i)
    let pulses := fun s : State => [4, 8, 16].getD (s.dev.f RAIL_CAL_NPSEL (s.dev.sRail i)) 16
    Runs (.calZmaxExpiry i) (fun s => zmax s ∧ inCal s ∧ ¬ zero s ∧ (let c := (s.dev.slice i).cal
        c.abort = false ∧ c.ret = false ∧ c.passed = false ∧
          (s.dev.f SLICE_STAT_CALSTEP i = 1 ∨
            s.dev.f SLICE_STAT_CALSTEP i = 3 ∧ c.pulsing = false ∧ c.pulses < pulses s)))
      (fun d t => failed d t (if d.f SLICE_STAT_CALSTEP i = 3 ∧ ofsFails d ≠ 0 then ofsFails d else 5)) ∧
    NoEffect (.calZmaxExpiry i) (fun s => ¬ zmax s ∨ zero s ∨ s.dev.f SLICE_STAT_CALSTEP i ∉ [1, 3] ∨
      s.dev.f SLICE_STAT_CALSTEP i = 3 ∧ pulses s ≤ (s.dev.slice i).cal.pulses)

/-- R157 to R159, R172, R179 and R185: a forced fault makes a member or spare FAULTED and tri-state with its entry; READMIT
puts a FAULTED one in READMIT and starts or awaits its open-wire test; CAL_NOW puts the slice first; a fall of STGFLTk_N opens
the attribution window, and at its close with no slice attributed a line still low makes every slice of the cluster FAULTED,
a high one is a glitch. That a READMIT waits in the queue of the open-wire tests (log entry 41), and which decision the entry
names (log entry 63), are the model's readings. -/
def Obligations.SliceCommandsAndStageFaults : Prop :=
  ∀ (i : Fin 32) (k : Fin 8) (low : Bool),
    let named := fun s : State => s.dev.sRole i ≠ roleNone
    Acts (.sliceForceFault i) (fun s => Unlocked s ∧ named s ∧ s.dev.sState i ≠ stFaulted) (fun d t =>
      t.sState i = stFaulted ∧ t.f SLICE_STAT_LEVEL i = lvTri ∧ t.f SLICE_FCAUSE_CAUSE i = 8 ∧
      t.b SLICE_FLAGS_FAULT i = true ∧
      Arrives d t 0 0x001 i [8 + d.sRail i * 2 ^ 8 + d.sState i * 2 ^ 12, (d.rail (d.sRail i)).lp.index % 2 ^ 16]) ∧
    ActsOn (.sliceForceFault i) (fun s => Unlocked s ∧ ¬ (named s ∧ s.dev.sState i ≠ stFaulted)) [] (fun _ _ => True) ∧
    Acts (.sliceReadmit i) (fun s => Unlocked s ∧ named s ∧ s.dev.sState i = stFaulted) (fun d t =>
      t.sState i = stReadmit ∧ t.f SLICE_STAT_CALSTEP i = 0 ∧
      (d.accum.ow.running = false → t.accum.ow.running = true ∧ t.accum.ow.kind = 0 ∧ t.accum.ow.index = i ∧
        t.f ACCUM_OWSTAT_STATE = 1) ∧
      (d.accum.ow.running = true → t.accum.ow.waiting = d.accum.ow.waiting ++ [i.val])) ∧
    ActsOn (.sliceReadmit i) (fun s => Unlocked s ∧ ¬ (named s ∧ s.dev.sState i = stFaulted)) [] (fun _ _ => True) ∧
    Acts (.sliceCalNow i) (fun s => Unlocked s ∧ named s) (fun d t => SameRegs d t ∧ (t.slice i).cal.now = true) ∧
    ActsOn (.sliceCalNow i) (fun s => Unlocked s ∧ ¬ named s) [] (fun _ _ => True) ∧
    Runs (.stageFaultSample k true) (fun s => s.dev.b CL_STAT_STGFLT k = false ∧ s.dev.b CL_STAT_ATTR_RUN k = false)
      (fun d t => OnlyRegs [CL_STAT.addr k] d t ∧ t.b CL_STAT_STGFLT k = true ∧ t.b CL_STAT_ATTR_RUN k = true ∧
        (t.cluster k).winEnd = d.now + 2 * max 1 (d.f CL_CTRL_ATTR k) ∧ (t.cluster k).attr = false) ∧
    RunsOn (.stageFaultSample k low) (fun s => low = false ∨ s.dev.b CL_STAT_STGFLT k = true ∨ s.dev.b CL_STAT_ATTR_RUN k = true)
      [CL_STAT.addr k] (fun d t => t.b CL_STAT_STGFLT k = low ∧ t.b CL_STAT_ATTR_RUN k = d.b CL_STAT_ATTR_RUN k) ∧
    (let open_ := fun s : State => s.dev.b CL_STAT_ATTR_RUN k = true ∧ (s.dev.cluster k).winEnd ≤ s.dev.now
     Runs (.attributionWindowClose k low) (fun s => open_ s ∧ (s.dev.cluster k).attr = true)
       (fun d t => OnlyRegs [CL_STAT.addr k] d t ∧ t.b CL_STAT_ATTR_RUN k = false) ∧
     Runs (.attributionWindowClose k false) (fun s => open_ s ∧ (s.dev.cluster k).attr = false)
       (fun d t => OnlyRegs [CL_STAT.addr k, CL_FLAGS.addr k] d t ∧ t.b CL_STAT_ATTR_RUN k = false ∧
         t.b CL_FLAGS_STG_GLITCH k = true) ∧
     Runs (.attributionWindowClose k true) (fun s => open_ s ∧ (s.dev.cluster k).attr = false)
       (fun d t => t.b CL_STAT_ATTR_RUN k = false ∧ t.b CL_FLAGS_STG_CLUSTER k = true ∧
         ∀ j < 32, j / 4 = k.val → d.sRole j ≠ roleNone → t.sState j = stFaulted) ∧
     NoEffect (.attributionWindowClose k low) (fun s => ¬ open_ s))

/-! ### The ring (R189-R223) -/

/-- R190 and R192 to R196: after 64 valid cells a lane comes to RUN and after 16 cell periods without one it fails, with its
flag, its HEAD bit and its count; a valid clock takes its role, and in holdover becomes REF; a lost REF leads into holdover,
and on to RELOCK where the other port has a valid clock; the lock ends it; the listening port drives once its time has
passed, and is OFF where it may not drive; the root's lost reference is holdover; after 2 ms every enabled rail is asked to
shut down, and with none enabled the device enters SAFE. That a lane in TRAIN fails too, and that the valid clock of a port
other than REF clears when its wait finds none, are the model's choices (log entry 72); that SAFE is entered once no rail is
enabled any more is its reading (log entry 54). -/
def Obligations.LanesAndClocks : Prop :=
  ∀ l : Fin 2,
    let port := (pf l CHAIN_UPORT_RX CHAIN_DPORT_RX).reg.addr 0
    let rx := fun d : Dev => d.f (pf l CHAIN_UPORT_RX CHAIN_DPORT_RX)
    let head := fun d : Dev => d.b (pf l CHAIN_UPORT_HEAD CHAIN_DPORT_HEAD)
    let ck := fun (d : Dev) => d.f CHAIN_STAT_CKSTATE
    let valid := fun (d : Dev) (p : Nat) => d.b (pf p CHAIN_UPORT_CKVALID CHAIN_DPORT_CKVALID)
    let role := fun (d : Dev) (p : Nat) => d.f (pf p CHAIN_UPORT_CKROLE CHAIN_DPORT_CKROLE)
    let root := fun s : State => s.dev.b CHAIN_STAT_ROOT = true
    let fails := fun d : Dev => d.f (pf l CHAIN_CNT_U_FAILS CHAIN_CNT_D_FAILS)
    let trained := fun s : State => (rx s.dev = 1 ∨ rx s.dev = 3) ∧ 64 ≤ (s.dev.lane l).good
    let starved := fun s : State => (rx s.dev = 1 ∨ rx s.dev = 2) ∧ (s.dev.lane l).okAt + 512 ≤ s.dev.now
    Runs (.laneRun l) trained (fun d t => rx t = 2 ∧ head t = false ∧
      t.b (pf l CHAIN_FLAGS_RX_OK_U CHAIN_FLAGS_RX_OK_D) = true ∧
      OnlyRegs [port, CHAIN_FLAGS.addr 0, CHAIN_STAT.addr 0] d t ∧
      (rx d = 3 → t.r CHAIN_STAT = d.r CHAIN_STAT ∧ t.free = d.free)) ∧
    NoEffect (.laneRun l) (fun s => ¬ trained s) ∧
    Runs (.laneFailed l) starved (fun d t => rx t = 3 ∧ head t = true ∧
      (d.b CHAIN_STAT_ROOT = false → role d l = 2 → role t l = 0) ∧
      t.b (pf l CHAIN_FLAGS_RX_FAIL_U CHAIN_FLAGS_RX_FAIL_D) = true ∧ fails t = min (fails d + 1) 255) ∧
    NoEffect (.laneFailed l) (fun s => ¬ starved s) ∧
    Acts (.clockValid l) (fun s => ¬ root s) (fun d t => valid t l = true ∧ role t l = 1 ∧
      t.b (pf l CHAIN_FLAGS_CK_VALID_U CHAIN_FLAGS_CK_VALID_D) = true ∧
      (ck d = ckHoldover → t.f CHAIN_STAT_REF = l ∧ ck t = ckRelock) ∧ (ck d ≠ ckHoldover → ck t = ck d)) ∧
    NoEffect (.clockValid l) root ∧
    Acts .refClockLost (fun s => ¬ root s ∧ s.dev.f CHAIN_STAT_REF = l ∧ (ck s.dev = ckLocked ∨ ck s.dev = ckRelock))
      (fun d t => valid t l = false ∧ role t l = 0 ∧ t.b (pf l CHAIN_FLAGS_CK_LOST_U CHAIN_FLAGS_CK_LOST_D) = true ∧
        t.b CHAIN_FLAGS_HOLD_ENTER = true ∧ Arrives d t 1 0x012 0xFF [l.val] ∧
        (valid d (1 - l.val) = true → ck t = ckRelock ∧ t.f CHAIN_STAT_REF = 1 - l.val) ∧
        (valid d (1 - l.val) = false → ck t = ckHoldover)) ∧
    NoEffect .refClockLost (fun s => root s ∨ ck s.dev = ckHoldover ∨ ck s.dev = ckExpired) ∧
    Acts .relockDone (fun s => ck s.dev = ckRelock) (fun d t => OnlyRegs [CHAIN_STAT.addr 0, CHAIN_FLAGS.addr 0] d t ∧
      ck t = ckLocked ∧ t.b CHAIN_FLAGS_HOLD_EXIT = true) ∧
    Acts .relockDone (fun s => ck s.dev = ckLocked) (fun d t => SameRegs d t ∧ t.chain.pllOk = true ∧
      t.chain.lockAt = if d.chain.pllOk then d.chain.lockAt else d.now) ∧
    NoEffect .relockDone (fun s => ck s.dev = ckHoldover ∨ ck s.dev = ckExpired) ∧
    (let other := fun s : State => ¬ root s ∧ s.dev.f CHAIN_STAT_REF = 1 - l.val
     let may := fun s : State => ck s.dev = ckLocked ∧ rx s.dev ≠ 3 ∧ s.dev.chain.pllOk = true
     let listened := fun s : State =>
       max s.dev.chain.lockAt (s.dev.lane l).mendAt + (if l = 0 then 512 else 256) ≤ s.dev.now
     ActsOn .clockListenDone (fun s => other s ∧ may s ∧ listened s) [port] (fun _ t => role t l = 2 ∧ valid t l = false) ∧
     ActsOn .clockListenDone (fun s => other s ∧ ¬ may s) [port] (fun _ t => role t l = 0 ∧ valid t l = false) ∧
     NoEffect .clockListenDone (fun s => root s ∨ other s ∧ may s ∧ ¬ listened s)) ∧
    Acts .rootReferenceFail (fun s => root s ∧ ck s.dev = ckLocked) (fun d t => ck t = ckHoldover ∧
      t.b CHAIN_FLAGS_HOLD_ENTER = true ∧ Arrives d t 1 0x012 0xFF [d.f CHAIN_STAT_REF]) ∧
    NoEffect .rootReferenceFail (fun s => ¬ root s) ∧
    (let held := fun s : State => FabricRuns s ∧ Calm s ∧ (ck s.dev = ckHoldover ∨ ck s.dev = ckRelock) ∧
        800000 ≤ s.dev.chain.holdCyc
     Acts .holdoverExpired (fun s => held s ∧ s.dev.anyEnabled = true) (fun d t => ck t = ckExpired ∧
       t.b CHAIN_FLAGS_HOLD_LIMIT = true ∧ Arrives d t 0 0x007 0xFF [max 2000 (d.r CHAIN_HOLD)] ∧
       ∀ n < 8, (t.rail n).sq.pend =
         if d.b RAIL_STAT_ENABLED n then (d.rail n).sq.pend ++ [5] else (d.rail n).sq.pend) ∧
     EntersSafe .holdoverExpired (fun s => held s ∧ s.dev.anyEnabled = false ∧ s.dev.b SYSCTL_CLK_SRC = true) 0x0B)

/-- R190, R198 to R202, R204 and R207: a cell with a wrong check code or too late is counted and breaks the run of valid
cells, and one with a wrong check code goes on with one; a valid one is sent on with the shares this device owns in place
and a right check code; a control cell gives a device without a position the next one; the head of a stream sends NONE where
it owns no share. That RING_CELL stands where the whole cell is in is the model's choice (log entry 72), and which cell of its
lane's grid one is is its reading (log entry 46). -/
def Obligations.CellsAreForwarded : Prop :=
  ∀ (l : Fin 2) (cell : Word) (late : Nat),
    let fld := fun (lo w : Nat) => cell.toNat / 2 ^ lo % 2 ^ w
    let sound := fun c : Nat => c % 16 = crcMsb 4 0x3 0xF (msbBits 28 (c / 16))
    let rx := fun d : Dev => d.f (pf l CHAIN_UPORT_RX CHAIN_DPORT_RX)
    let chk := pf l CHAIN_CNT_U_CHK CHAIN_CNT_D_CHK
    let lates := pf l CHAIN_CNT_U_LATE CHAIN_CNT_D_LATE
    let tol := fun d : Dev => max 8 (d.f CHAIN_XTIME_LATE_TOL)
    let own := fun (d : Dev) (c : Nat) (other : Nat) =>
      if (d.span c).shut then 0x801
      else if d.f CHAIN_SPANc_STAT_ROLE c = 1 then
        (if d.f CHAIN_SPANc_STAT_STATE c = 4 then ofS 12 (d.span c).s else 0x800)
      else other
    let quiet := fun s : State => s.dev.b CHAIN_STAT_ROOT = false ∧ ∀ o, ((s.dev.lane l).rx.getD o []).length < 15
    let good := fun s : State => sound cell.toNat ∧ late ≤ tol s.dev ∧ rx s.dev = 2
    Runs (.ringCell l cell late) (fun _ => ¬ sound cell.toNat) (fun d t =>
      t.f chk = min (d.f chk + 1) 255 ∧ (t.lane l).good = 0) ∧
    Runs (.ringCell l cell late) (fun s => ¬ sound cell.toNat ∧ rx s.dev = 2 ∧ s.dev.b CHAIN_STAT_ROOT = false)
      (fun _ t => ¬ sound (t.lane l).out) ∧
    Runs (.ringCell l cell late) (fun s => tol s.dev < late) (fun d t =>
      t.f lates = min (d.f lates + 1) 255 ∧ (t.lane l).good = 0) ∧
    Runs (.ringCell l cell late) (fun s => sound cell.toNat ∧ late ≤ tol s.dev ∧ rx s.dev ≠ 2) (fun d t =>
      OnlyRegs [(pf l CHAIN_UPORT_NBR CHAIN_DPORT_NBR).reg.addr 0] d t ∧
      (t.lane l).good = (if rx d = 3 ∨ rx d = 1 ∧ fld 16 16 = 0x5A3C then min 255 ((d.lane l).good + 1) else 0) ∧
      (t.lane l).bad = 0 ∧
      (fld 16 16 = 0x5A3C → t.f (pf l CHAIN_UPORT_NBR CHAIN_DPORT_NBR) = fld 11 5)) ∧
    Runs (.ringCell l cell late) (fun s => good s ∧ quiet s ∧ fld 20 12 ≠ 0x802) (fun d t =>
      (t.lane l).good = min 255 ((d.lane l).good + 1) ∧ sound (t.lane l).out ∧
      (t.lane l).out / 2 ^ 20 % 2 ^ 12 = own d 0 (fld 20 12) ∧ (t.lane l).out / 2 ^ 8 % 2 ^ 12 = own d 1 (fld 8 12)) ∧
    Runs (.ringCell l cell late) (fun s => good s ∧ quiet s ∧ fld 20 12 = 0x802 ∧ fld 10 1 = 0 ∧ fld 11 1 = 0 ∧
        s.dev.f CHAIN_STAT_POS = 16) (fun _ t =>
      t.f CHAIN_STAT_POS = (fld 16 4 + 1) % 16 ∧ sound (t.lane l).out ∧ (t.lane l).out / 2 ^ 20 % 2 ^ 12 = 0x802 ∧
      (t.lane l).out / 2 ^ 16 % 2 ^ 4 = (fld 16 4 + 1) % 16) ∧
    Runs (.headCell l) (fun s => s.dev.b (pf l CHAIN_UPORT_HEAD CHAIN_DPORT_HEAD) = true ∧ s.dev.b CHAIN_STAT_ROOT = false)
      (fun d t => ((∀ c < 2, (d.span c).used = false) → SameRegs d t) ∧ sound (t.lane l).out ∧
        (t.lane l).out / 2 ^ 20 % 2 ^ 12 = own d 0 0x800 ∧
        (t.lane l).out / 2 ^ 8 % 2 ^ 12 = own d 1 0x800) ∧
    NoEffect (.headCell l) (fun s => s.dev.b (pf l CHAIN_UPORT_HEAD CHAIN_DPORT_HEAD) = false)

/-- R197 and R206 to R209: RT takes the root's time at the first RT_SET and moves toward it by at most one cycle per 256
cycles afterwards while its clock is locked, LOG_EPOCH counting a wrap that this brings (R280), and MV gives the ring size
and a device without a position the one between its neighbours; the wait for a position ends with ENUM_FAIL and its entry,
no sooner than 256 superframes; an enumeration starts at the root with position 0, and a lane 0 that does not return makes
it go on from the hint or fail. That RT moves by a cycle per 256 is the model's reading (log entry 46); that only the first
RT_SET with MV 1 gives a position, from when the wait for one counts, and that a root whose preconditions fail starts no
enumeration are its choices (log entry 72). -/
def Obligations.RingTimeAndEnumeration : Prop :=
  ∀ (p : BitVec 40) (lat : Nat),
    let root := fun s : State => s.dev.b CHAIN_STAT_ROOT = true
    let target := (p.toNat / 2 ^ 8 + lat) % 2 ^ 32
    let diff := fun d : Dev => toS 32 (target + 2 ^ 32 - d.r CHAIN_RTIME)
    let step := fun d : Dev => if d.now < d.chain.rtAt + 256 then 0 else if diff d < 0 then -1 else if diff d = 0 then 0 else 1
    let rx := fun (d : Dev) (l : Nat) => d.f (pf l CHAIN_UPORT_RX CHAIN_DPORT_RX)
    let steers := fun d : Dev => d.chain.rtSet = true ∧ d.f CHAIN_STAT_CKSTATE = ckLocked
    let m := if p.toNat / 2 ^ 4 % 16 = 0 then 16 else p.toNat / 2 ^ 4 % 16
    Runs (.rtSet p lat) (fun s => ¬ root s) (fun d t =>
      (d.chain.rtSet = false → t.r CHAIN_RTIME = target) ∧
      (d.chain.rtSet = true → d.f CHAIN_STAT_CKSTATE ≠ ckLocked → t.r CHAIN_RTIME = d.r CHAIN_RTIME) ∧
      (steers d → t.r CHAIN_RTIME = ofS 32 (d.r CHAIN_RTIME + step d) ∧ t.chain.rtErr = diff d - step d) ∧
      (p.toNat / 2 ^ 3 % 2 = 1 → d.f CHAIN_STAT_POS = 16 → d.chain.sized = false →
        let up := d.f CHAIN_UPORT_NBR
        let dn := d.f CHAIN_DPORT_NBR
        if (d.lane 0).nbrOk = true ∧ (d.lane 1).nbrOk = true ∧ up < 16 ∧ dn < 16 ∧ dn = (up + 2) % m then
          t.f CHAIN_STAT_POS = (up + 1) % m
        else t.f CHAIN_STAT_POS = 16 ∧ t.b CHAIN_FLAGS_ENUM_FAIL = true ∧ Arrives d t 2 0x023 0xFF [d.r CHAIN_ENSTAT]) ∧
      (p.toNat / 2 ^ 3 % 2 = 1 → t.f CHAIN_STAT_M = m) ∧
      (p.toNat / 2 ^ 3 % 2 = 0 → OnlyRegs [CHAIN_RTIME.addr 0, LOG_EPOCH.addr 0] d t) ∧
      (let rt := d.r CHAIN_RTIME + step d
       t.r LOG_EPOCH = if steers d ∧ rt < 0 then (d.r LOG_EPOCH + (2 ^ 32 - 1)) % 2 ^ 32
         else if steers d ∧ rt = 2 ^ 32 then (d.r LOG_EPOCH + 1) % 2 ^ 32 else d.r LOG_EPOCH)) ∧
    NoEffect (.rtSet p lat) root ∧
    (let waited := fun s : State => ¬ root s ∧ s.dev.f CHAIN_STAT_POS = 16 ∧ s.dev.chain.sized = false ∧
        ∃ l < 2, rx s.dev l = 2 ∧ (s.dev.lane l).upAt + 256 * 1024 ≤ s.dev.now
     Runs .positionWaitTimeout waited (fun d t =>
      t.b CHAIN_FLAGS_ENUM_FAIL = true ∧ Arrives d t 2 0x023 0xFF [d.r CHAIN_ENSTAT]) ∧
     NoEffect .positionWaitTimeout (fun s => ¬ waited s)) ∧
    (let ready := fun s : State => rx s.dev 0 = 2 ∧ rx s.dev 1 = 2 ∨ rx s.dev 0 = 2 ∧ rx s.dev 1 = 3 ∨
        rx s.dev 0 = 3 ∧ rx s.dev 1 = 2
     Runs .enumStart (fun s => root s ∧ ready s) (fun d t => t.f CHAIN_STAT_POS = 0 ∧ t.chain.enumPhase = 1 ∧
       t.chain.enumCells = 64 ∧ t.chain.enumM = 0 ∧ t.chain.enumAt = some d.now) ∧
     NoEffect .enumStart (fun s => ¬ (root s ∧ ready s))) ∧
    (let out := fun s : State => root s ∧ s.dev.chain.enumPhase = 1 ∧ s.dev.chain.enumM = 0 ∧
        ∃ t0, s.dev.chain.enumAt = some t0 ∧ t0 + 4000 ≤ s.dev.now
     let hint := fun s : State => s.dev.r BD_REG 8
     Runs .enumTimeout (fun s => out s ∧ hint s / 2 ^ 31 % 2 = 1) (fun d t => SameRegs d t ∧ t.chain.enumPhase = 3 ∧
       t.chain.enumM = d.r BD_REG 8 / 2 ^ 16 % 2 ^ 5) ∧
     Runs .enumTimeout (fun s => out s ∧ hint s / 2 ^ 31 % 2 = 0) (fun d t => t.f CHAIN_STAT_POS = 16 ∧
       t.f CHAIN_STAT_M = 0 ∧ t.b CHAIN_FLAGS_ENUM_FAIL = true ∧ t.f CHAIN_ENSTAT_RESULT = 3 ∧ t.chain.enumPhase = 0 ∧
       Arrives d t 2 0x023 0xFF [t.r CHAIN_ENSTAT]) ∧
     NoEffect .enumTimeout (fun s => ¬ out s))

/-- R206, R213 to R215 and R217 to R219: the messages of a span channel act on a member: SPAN_START, SPAN_PLAN, SPAN_TARGET,
SPAN_XFER and SIG_RELAY from the lead only, each with the boundary or the RT whose low bits it names; a target takes effect
at its RT as the rail's VTARGET; LEAD_MOVE makes its position the lead, where it is not the lead already; SPAN_READY,
SPAN_CAUSE and WITHDRAWN record what they say. A device that has no part in the channel is left as it is. What a member
marks of a change, and that a SPAN_XFER after its boundary is not taken, are the model's choices (log entry 73); which
boundaries ahead a SPAN_PLAN may name is its reading (log entry 47), and so is that a device keeps what it hears before it
knows BT0 (log entry 73). -/
def Obligations.SpanMessagesTakeEffect : Prop :=
  ∀ (src : Fin 16) (c : Fin 2) (p : BitVec 40) (lat : Nat),
    let fld := fun (lo w : Nat) => p.toNat / 2 ^ lo % 2 ^ w
    let part := fun s : State => (s.dev.span c).used = true ∧ s.dev.f CHAIN_SPANc_STAT_ROLE c ≠ 0
    let follows := fun s : State => part s ∧ s.dev.f CHAIN_SPANc_STAT_ROLE c ≠ 1
    let led := fun s : State => s.dev.f CHAIN_SPANc_STAT_LEAD c = src
    let out := fun s : State => ¬ part s
    let armed := fun s : State => (s.dev.rail (s.dev.f CHAIN_SPANc_STAT_RAIL c)).phase = .armed
    let names := fun (d : Dev) (ahead k : Nat) =>
      let top := (d.span c).k + ahead
      k % 256 = fld 32 8 ∧ (d.span c).k ≤ k ∧ k ≤ top ∧ top < k + 256
    let planned := fun d : Dev => d.planBoundaries (d.f CHAIN_SPANc_STAT_RAIL c) + 1
    -- what a pre-add adds of a change is marked, where a prediction is ACTIVE
    let marks := fun (d : Dev) (m : Option (Nat × Nat)) => (d.hr (d.f CHAIN_SPANc_STAT_RAIL c)).act = none → m = none
    let next23 := fun d : Dev => (fld 0 24 + 2 ^ 24 - d.r CHAIN_RTIME % 2 ^ 24) % 2 ^ 24 < 2 ^ 23
    let knows := fun s : State => (s.dev.span c).bt0 ≠ none
    Runs (.spanStart src c p) (fun s => led s ∧ follows s ∧ next23 s.dev) (fun d t => SameRegs d t ∧
      (t.span c).vpre = some (fld 24 16 : Int) ∧ ∃ b, (t.span c).bt0 = some b ∧ b % 2 ^ 24 = fld 0 24 ∧
      (t.span c).e = 32 * b % 2 ^ 37 ∧ (t.span c).k = 0 ∧
      (b + 2 ^ 32 - d.r CHAIN_RTIME) % 2 ^ 32 < 2 ^ 23) ∧
    NoEffect (.spanStart src c p) (fun s => led s ∧ follows s ∧ ¬ next23 s.dev) ∧
    (∀ k, Runs (.spanPlan src c p) (fun s => led s ∧ follows s ∧ knows s ∧ names s.dev (planned s.dev) k)
      (fun d t => SameRegs d t ∧ ∃ m, marks d m ∧ (t.span c).nrPlan = (d.span c).nrPlan ++ [(k, fld 23 9, m)])) ∧
    Runs (.spanPlan src c p) (fun s => led s ∧ follows s ∧ ¬ knows s) (fun d t => SameRegs d t ∧
      (t.span c).nrPlan = (d.span c).nrPlan ∧ (t.span c).nrDue = (d.span c).nrDue ∧
      ∃ l, (t.span c).heard = l ++ [(d.now, fld 32 8, fld 23 9)] ∧ ∀ x ∈ l, x ∈ (d.span c).heard) ∧
    Runs (.spanPlan src c p) (fun s => led s ∧ follows s ∧ knows s ∧ ∀ k, ¬ names s.dev (planned s.dev) k)
      (fun d t => OnlyRegs [CHAIN_FLAGS.addr 0] d t ∧
      (∃ m, marks d m ∧ (t.span c).nrDue = (d.span c).nrDue ++ [(fld 23 9, m)]) ∧ t.b CHAIN_FLAGS_PLAN_LATE = true) ∧
    Runs (.spanTarget src c p) (fun s => led s ∧ follows s) (fun d t => SameRegs d t ∧
      ∃ b, (t.span c).target = (d.span c).target ++ [(fld 24 16, b)] ∧ b % 2 ^ 24 = fld 0 24 ∧
        -(2 : Int) ^ 23 ≤ toS 32 (b + 2 ^ 32 - d.r CHAIN_RTIME) ∧ toS 32 (b + 2 ^ 32 - d.r CHAIN_RTIME) < 2 ^ 23) ∧
    (∀ k, Runs (.spanXfer src c p) (fun s => led s ∧ part s ∧ (armed s ∧ k = fld 32 8 ∨ ¬ armed s ∧ names s.dev (s.dev.xferAhead c) k)) (fun d t =>
      SameRegs d t ∧ (t.span c).xfers = (d.span c).xfers ++ [(k, fld 28 4, fld 24 4, fld 16 8)])) ∧
    NoEffect (.spanXfer src c p) (fun s => ¬ armed s ∧ ∀ k, ¬ names s.dev (s.dev.xferAhead c) k) ∧
    (∀ i ∈ [Instr.spanStart src c p, .spanPlan src c p, .spanTarget src c p, .spanXfer src c p, .sigRelay src c p lat],
      NoEffect i (fun s => out s ∨ ¬ led s)) ∧
    NoEffect (.sigRelay src c p lat) (fun s => s.dev.modeNow = modeSafe) ∧
    (∀ n : Fin 8, Runs (.sigRelay src c p lat) (fun s => Unlocked s ∧ led s ∧ follows s ∧ s.dev.f CHAIN_SPANc_STAT_RAIL c = n ∧
        s.dev.b RAIL_STAT_POWER_GOOD n = true ∧ s.dev.b RAIL_STAT_SHUTTING n = false ∧
        s.dev.b HMRAIL_CTRL_EN_SIG n = true ∧ (s.dev.hr n).act = none) fun d t =>
      t.b HMRAIL_FLAGS_ACCEPT n = true ∧ ∃ q, (t.hr n).act = some q ∧ q.src = 3 ∧ q.down = decide (fld 39 1 = 1) ∧
        q.mr = 64 * fld 29 10 ∧ q.rise = fld 12 6 ∧
        q.ts = (d.r HM_TIME + 2 ^ 32 - lat % 2 ^ 32 + if fld 18 11 < 8 then 0 else fld 18 11) % 2 ^ 32) ∧
    (∀ (v at_ : Nat) (rest : List (Nat × Nat)) (n : Fin 8), v < 2 ^ 16 →
      Runs (.spanTargetEffect c) (fun s => (s.dev.span c).target = (v, at_) :: rest ∧
        0 ≤ toS 32 (s.dev.r CHAIN_RTIME + 2 ^ 32 - at_ % 2 ^ 32) ∧ s.dev.f CHAIN_SPANc_STAT_RAIL c = n) fun _ t =>
      (t.span c).target = rest ∧ t.f RAIL_VTARGET_VTARGET n = v) ∧
    NoEffect (.spanTargetEffect c) (fun s => ∀ v at_ rest, (s.dev.span c).target = (v, at_) :: rest →
      toS 32 (s.dev.r CHAIN_RTIME + 2 ^ 32 - at_ % 2 ^ 32) < 0) ∧
    NoEffect (.leadMove src c p) (fun s => s.dev.f CHAIN_SPANc_STAT_LEAD c = fld 36 4) ∧
    Runs (.leadMove src c p) (fun s => part s ∧ s.dev.f CHAIN_SPANc_STAT_LEAD c ≠ fld 36 4) (fun d t => t.f CHAIN_SPANc_STAT_LEAD c = fld 36 4 ∧
      t.b CHAIN_FLAGS_LEAD_MOVE = true ∧ Arrives d t 1 0x014 c [fld 36 4] ∧
      (fld 36 4 = d.f CHAIN_STAT_POS ↔ t.f CHAIN_SPANc_STAT_ROLE c = 1)) ∧
    Runs (.spanReady src c p) part (fun d t => SameRegs d t ∧
      (src.val, fld 37 3, decide (fld 36 1 = 1), fld 30 6) ∈ (t.span c).ready) ∧
    Runs (.spanCause src c p) part (fun d t => (t.span c).shutFrom = some (fld 32 8, src.val) ∧
      Arrives d t 0 0x008 c [fld 32 8 + src * 2 ^ 8]) ∧
    Runs (.withdrawn src c p) part (fun d t => OnlyRegs [CHAIN_SPANc_MEMB.addr c] d t ∧
      ∀ j < 16, (t.f CHAIN_SPANc_MEMB_MEMBERS c).testBit j =
        ((d.f CHAIN_SPANc_MEMB_MEMBERS c).testBit j && j != fld 36 4)) ∧
    (∀ i ∈ [Instr.leadMove src c p, .spanReady src c p, .spanCause src c p, .withdrawn src c p], NoEffect i out)

/-- R214, R216, R217 and R219 to R222: at BT0 an ARMED member begins, another one sets LATE_START; a follower whose misses
reach MISS_LIM enters AUTO with its entry and returns, at a boundary, after 16 periods with shares; the deputy that has been
in AUTO for LEAD_LIM becomes the lead; a command of the lead runs, is refused while another runs, moves the lead to the
deputy and is aborted, from the transfer boundary's cut on too late; the read of the counts clears them. That a refused
command shows FAILED with REASON 5, and that MOVE_LEAD acts at once, are the model's readings (log entry 47); that
SPAN_BEGIN may come from 6 cycles before BT0, what an abort takes back, and that the one register shows the latest of two
channels are its choices (log entry 73). -/
def Obligations.SpanChannelRuns : Prop :=
  ∀ (c : Fin 2) (pos : Fin 16),
    let part := fun s : State => (s.dev.span c).used = true ∧ s.dev.f CHAIN_SPANc_STAT_ROLE c ≠ 0
    let leads := fun s : State => Unlocked s ∧ (s.dev.span c).used = true ∧ s.dev.f CHAIN_SPANc_STAT_ROLE c = 1
    let rail := fun (s : State) => (s.dev.rail (s.dev.f CHAIN_SPANc_STAT_RAIL c))
    let begins := fun s : State => part s ∧ (s.dev.span c).vpre.isSome = true ∧
      ∃ b, (s.dev.span c).bt0 = some b ∧ -6 ≤ toS 32 (s.dev.r CHAIN_RTIME + 2 ^ 32 - b % 2 ^ 32)
    Runs (.spanBegin c) (fun s => begins s ∧ (rail s).phase ≠ .armed) (fun d t =>
      OnlyRegs [CHAIN_FLAGS.addr 0] d t ∧ t.b CHAIN_FLAGS_LATE_START = true) ∧
    Runs (.spanBegin c) (fun s => begins s ∧ (rail s).phase = .armed) (fun d t =>
      let n := d.f CHAIN_SPANc_STAT_RAIL c
      (t.rail n).phase = .running ∧ t.b RAIL_STAT_FOLLOWER n = decide (d.f CHAIN_SPANc_STAT_ROLE c ≠ 1) ∧
      t.f CHAIN_SPANc_STAT_STATE c = (if d.f CHAIN_SPANc_STAT_ROLE c = 1 then 4 else 2)) ∧
    NoEffect (.spanBegin c) (fun s => ¬ begins s) ∧
    let misses := fun s : State => s.dev.f CHAIN_SPANc_STAT_STATE c = spFollow ∧
      max 1 (s.dev.f CHAIN_XTIME_MISS_LIM) ≤ (s.dev.span c).missRun
    Runs (.spanAutoEnter c) misses (fun d t =>
      t.f CHAIN_SPANc_STAT_STATE c = spAuto ∧ t.b CHAIN_FLAGS_SPAN_AUTO = true ∧
      t.f CHAIN_SPANc_CNT_AUTOS c = min (d.f CHAIN_SPANc_CNT_AUTOS c + 1) 65535 ∧ (t.span c).sl = (d.span c).s ∧
      Arrives d t 1 0x013 c [ofS 32 (d.span c).s]) ∧
    NoEffect (.spanAutoEnter c) (fun s => ¬ misses s) ∧
    let cut := fun s : State => 0 ≤ toS 37 (32 * (s.dev.r CHAIN_RTIME + 6) + 2 ^ 37 - (s.dev.span c).e)
    Runs (.spanAutoExit c) (fun s => s.dev.f CHAIN_SPANc_STAT_STATE c = spAuto ∧ 16 ≤ (s.dev.span c).gotRun ∧ cut s) (fun d t =>
      OnlyRegs [CHAIN_SPANc_STAT.addr c] d t ∧ t.f CHAIN_SPANc_STAT_STATE c = spFollow) ∧
    NoEffect (.spanAutoExit c) (fun s => s.dev.f CHAIN_SPANc_STAT_STATE c ≠ spAuto ∨ (s.dev.span c).gotRun < 16 ∨ ¬ cut s) ∧
    (let takes := fun s : State => s.dev.f CHAIN_SPANc_STAT_ROLE c = 2 ∧ s.dev.f CHAIN_SPANc_STAT_STATE c = spAuto ∧
        (s.dev.span c).noneSeen = true ∧ (1024 * max 1 (s.dev.f CHAIN_XTIME_LEAD_LIM) : Nat) ≤
          toS 32 (s.dev.r CHAIN_RTIME + 2 ^ 32 - (s.dev.span c).autoAt % 2 ^ 32)
     let moves := fun s : State => s.dev.f CHAIN_SPANc_STAT_LEAD c ≠ s.dev.f CHAIN_STAT_POS
     Runs (.leadTakeover c) (fun s => takes s ∧ (s.dev.span c).used = true ∧ s.dev.f CHAIN_STAT_POS < 16 ∧ moves s) (fun d t =>
       t.f CHAIN_SPANc_STAT_LEAD c = d.f CHAIN_STAT_POS ∧ t.f CHAIN_SPANc_STAT_ROLE c = 1 ∧
       t.b CHAIN_FLAGS_LEAD_MOVE = true) ∧
     NoEffect (.leadTakeover c) (fun s => ¬ (takes s ∧ moves s))) ∧
    (∀ i ∈ [Instr.spancmdWithdraw c pos, .spancmdAdmit c pos, .spancmdMoveLead c],
      ActsOn i (fun s => leads s ∧ (s.dev.span c).cmd ≠ 0 ∧ pos.val ≠ s.dev.f CHAIN_STAT_POS) [CHAIN_SPANCMDST.addr 0]
        (fun _ t => t.f CHAIN_SPANCMDST_STATE = opFailed ∧ t.f CHAIN_SPANCMDST_REASON = 5) ∧
      ActsOn i (fun s => Unlocked s ∧ s.dev.f CHAIN_SPANc_STAT_ROLE c ≠ 1) [] (fun _ _ => True)) ∧
    (let free := fun s : State => leads s ∧ (s.dev.span c).cmd = 0 ∧ pos.val ≠ s.dev.f CHAIN_STAT_POS
     let give := fun s : State => pos.val ∈ (s.dev.span c).plan
     Acts (.spancmdWithdraw c pos) (fun s => free s ∧ ¬ give s) (fun d t => OnlyRegs [CHAIN_SPANCMDST.addr 0] d t ∧
       t.f CHAIN_SPANCMDST_STATE = opRunning ∧ (t.span c).cmd = 1 ∧ (t.span c).cmdPos = pos) ∧
     Acts (.spancmdWithdraw c pos) (fun s => free s ∧ give s ∧ s.dev.takers c (s.dev.f CHAIN_SPANc_STAT_RAIL c) pos = [])
       (fun d t => OnlyRegs [CHAIN_SPANCMDST.addr 0] d t ∧ t.f CHAIN_SPANCMDST_STATE = opFailed ∧
         t.f CHAIN_SPANCMDST_REASON = 1 ∧ (t.span c).cmd = 0) ∧
     Acts (.spancmdWithdraw c pos) (fun s => free s ∧ give s ∧ ((s.dev.span c).plan.filter (· == pos.val)).length ≤
         (s.dev.takers c (s.dev.f CHAIN_SPANc_STAT_RAIL c) pos).length) (fun d t => OnlyRegs [CHAIN_SPANCMDST.addr 0] d t ∧
       t.f CHAIN_SPANCMDST_STATE = opRunning ∧ (t.span c).cmd = 1 ∧ (t.span c).cmdPos = pos ∧
       (t.span c).xfers.length = (d.span c).xfers.length + ((d.span c).plan.filter (· == pos.val)).length) ∧
     Acts (.spancmdAdmit c pos) free (fun d t => OnlyRegs [CHAIN_SPANCMDST.addr 0] d t ∧
       t.f CHAIN_SPANCMDST_STATE = opRunning ∧ (t.span c).cmd = 2 ∧ (t.span c).cmdPos = pos) ∧
     Acts (.spancmdMoveLead c) (fun s => leads s ∧ (s.dev.span c).cmd = 0) (fun d t =>
       t.f CHAIN_SPANc_STAT_LEAD c = d.f CHAIN_SPANc_STAT_DEPUTY c ∧ t.f CHAIN_SPANCMDST_STATE = opDone ∧
       (d.f CHAIN_SPANc_STAT_LEAD c ≠ d.f CHAIN_SPANc_STAT_DEPUTY c → t.b CHAIN_FLAGS_LEAD_MOVE = true) ∧
       (d.f CHAIN_SPANc_STAT_LEAD c = d.f CHAIN_SPANc_STAT_DEPUTY c → OnlyRegs [CHAIN_SPANCMDST.addr 0] d t))) ∧
    let late := fun s : State => (s.dev.span c).k = (s.dev.span c).cmdBound ∧ cut s
    Acts (.spancmdAbort c) (fun s => Unlocked s ∧ (s.dev.span c).cmd ≠ 0 ∧ ¬ late s) (fun d t =>
      OnlyRegs [CHAIN_SPANCMDST.addr 0] d t ∧ (t.span c).cmd = 0 ∧ t.f CHAIN_SPANCMDST_STATE = opAborted ∧
      t.f CHAIN_SPANCMDST_REASON = 4 ∧ ∀ x ∈ (t.span c).xfers, x.1 ≠ (d.span c).cmdBound) ∧
    ActsOn (.spancmdAbort c) (fun s => Unlocked s ∧ ((s.dev.span c).cmd ≠ 0 ∧ late s ∨ (s.dev.span c).cmd = 0 ∧
        (s.dev.f CHAIN_SPANCMDST_STATE = opDone ∨ s.dev.f CHAIN_SPANCMDST_STATE = opFailed ∧
          (s.dev.f CHAIN_SPANCMDST_REASON = 2 ∨ s.dev.f CHAIN_SPANCMDST_REASON = 3))))
      [CHAIN_SPANCMDST.addr 0] (fun _ t => t.b CHAIN_SPANCMDST_ABORT_LATE = true) ∧
    ActsOn (.chainSpanCntRead c) (fun _ => True) [CHAIN_SPANc_CNT.addr c] (fun d t => t.r CHAIN_SPANc_CNT c = 0 ∧
      t.bus.data = d.r CHAIN_SPANc_CNT c ∧ t.bus.err = 0)

/-! ### The bus (R12, R13, R36-R39, R303, R346, R435) -/

/-- R12, R13, R36 to R39 and R303: a bus write stores a register of stored bits and clears the bits of a W1C register that
are written with 1; a write of PBUF in the cycle in which an MREAD has filled it is lost (R443); a hole, a user access, a
narrow or misaligned access, another core's block and a register locked in SAFE end it in the bus error that each has, with
nothing changed. A plane write is stored in the three cells, and refused where a byte is in force. The debug port reads and
writes SRAM where debug is open, and has no effect where it is not. Which error an access with several has is the model's
reading (log entry 25). -/
def Obligations.BusAccesses : Prop :=
  (∀ (m : Master) (v : Word), (∀ c, m ≠ .core c true) →
    let free := fun s : State => Calm s ∧ s.dev.split = false
    let writes := fun (pre : State → Prop) (a : Nat) (l : List Nat) =>
      ActsOn (.registerWrite m (BitVec.ofNat 32 a) 4 v) (fun s => free s ∧ pre s) l
    let stores := fun a : Nat => writes (fun _ => True) a [a] fun _ t => t.rd a = v.toNat ∧ t.bus.err = 0
    let filled := fun s : State => s.dev.flash.fillAt = some s.dev.now
    let clears := fun a : Nat => ActsOn (.registerWrite m (BitVec.ofNat 32 a) 4 v) free [a] fun d t =>
      t.bus.err = 0 ∧ ∀ i < 32, (t.rd a).testBit i = ((d.rd a).testBit i && !v.toNat.testBit i)
    (∀ n : Fin 2, stores (ACCUM_NEWEN.addr n) ∧ stores (ACCUM_LIMEN.addr n) ∧ clears (ACCUM_NEW.addr n) ∧
      clears (ACCUM_LIM.addr n)) ∧
    (∀ n : Fin 4, stores (EVENT_ENr.addr n) ∧ stores (LOG_SWDATA.addr n)) ∧
    (∀ n : Fin 64, writes (fun s => ¬ filled s) (FLASHC_PBUF.addr n) [FLASHC_PBUF.addr n] (fun _ t =>
        t.rd (FLASHC_PBUF.addr n) = v.toNat ∧ t.bus.err = 0) ∧
      writes filled (FLASHC_PBUF.addr n) [] (fun _ t => t.bus.err = 0) ∧ stores (QSPI_BUF.addr n) ∧ stores (ACCUMu_LIMHI.addr n) ∧
      (10 ≤ n.val → stores (BD_REG.addr n))) ∧
    (∀ n : Fin 16, stores (TIMERt_MATCH.addr n) ∧ stores (TIMERt_RELOAD.addr n))) ∧
  (∀ (a v : Word) (size : Nat) (m : Master),
    let fails := fun (pre : State → Prop) (err : Nat) =>
      ActsOn (.registerWrite m a size v) (fun s => Calm s ∧ pre s) [] fun _ t => t.bus.err = err ∧ t.bus.data = 0
    let a := a.toNat
    (0x10000 ≤ a ∧ a < 0x08000000 ∨ 0x08400000 ≤ a ∧ a < 0x08800000 ∨ 0x08804000 ≤ a ∧ a < 0x20000000 ∨
      0x20080000 ≤ a ∧ a < 0x24000000 ∨ 0x24010000 ≤ a ∧ a < 0x30000000 ∨ 0x30018000 ≤ a ∧ a < 0x30020000 ∨
      0x30038000 ≤ a ∧ a < 0x40000000 ∨ 0x40010000 ≤ a ∧ a < 0x50000000 ∨ 0x50008000 ≤ a ∧ a < 0x50010000 ∨
      0x50012000 ≤ a ∧ a < 0x50020000 ∨ 0x50021000 ≤ a ∧ a < 0x60000000 ∨ 0x64000000 ≤ a ∧ a < 0xE0000000 ∨
      0xE0010000 ≤ a ∧ a < 0xF0000000 ∨ 0xF0000400 ≤ a → fails (fun _ => True) 1) ∧
    (∀ c, m = .core c true → 0x40000000 ≤ a → a < 0x40010000 → fails (fun _ => True) 3) ∧
    ((∀ c, m ≠ .core c true) → 0x40000000 ≤ a → a < 0x40010000 → size ≠ 4 ∨ a % 4 ≠ 0 → fails (fun _ => True) 2) ∧
    (∀ c, m = .core c false → 0x40000000 ≤ a → a < 0x40010000 → size = 4 → a % 4 = 0 →
      fails (fun s => s.dev.split = true ∧ (s.dev.r SYSCTL_OWNER).testBit (a / 0x1000 % 16) ≠ decide (c = .b)) 6) ∧
    ((∀ c, m ≠ .core c true) → 0x50000000 ≤ a → a < 0x50008000 → size = 4 → a % 4 = 0 →
      fails (fun s => s.dev.split = false ∧ s.dev.modeNow = modeSafe) 7)) ∧
  (∀ (m : Master) (p : Fin 2) (off : Nat) (v : Word), (∀ c, m ≠ .core c true) → off < 0x18000 → off % 4 = 0 →
    let a := 0x30000000 + 0x20000 * p.val + off
    let i := Instr.planeWrite m (BitVec.ofNat 32 a) v
    let held := fun s : State => ∃ k < 4, s.dev.byteInForce s.mem p (off + k) = true
    (∀ s, Powered s → Unlocked s → s.dev.split = false → ¬ held s → Completes i s fun t =>
      (∀ k < 4, ∀ c ∈ [0, 2 ^ 33, 2 ^ 34], t.mem.read (a + k + c) = v.toNat / 2 ^ (8 * k) % 256) ∧
      (∀ x, (∀ c ∈ [0, 2 ^ 33, 2 ^ 34], x < a + c ∨ a + c + 4 ≤ x) → t.mem.read x = s.mem.read x) ∧
      SameQueue s t ∧ { t.dev with bus := s.dev.bus } = s.dev ∧ t.dev.bus.err = 0) ∧
    ActsOn i (fun s => Unlocked s ∧ s.dev.split = false ∧ held s) [CFG_FLAGS.addr 0, CFG_WRERR.addr 0]
      (fun _ t => t.b CFG_FLAGS_WR_REFUSED = true ∧ t.r CFG_WRERR = a ∧ t.bus.err = 5) ∧
    ActsOn i (fun s => s.dev.split = false ∧ s.dev.modeNow = modeSafe) [] (fun _ t => t.bus.err = 7)) ∧
  (∀ (wr : Bool) (a v : Word) (size : Nat) (halt : Bool),
    let opened := fun s : State => s.dev.f SECURE_STAT_DBG = 1 ∨ s.dev.f SECURE_STAT_DBG = 2
    NoEffect (.coreDebugAccess wr a size v halt) (fun s => ¬ opened s) ∧
    (0x20000000 ≤ a.toNat → a.toNat + 4 ≤ 0x20080000 → a.toNat % 4 = 0 →
      ∀ s, Powered s → Calm s → opened s → s.dev.bankHeld .jtag (sramBank a.toNat) = false →
        let shown := fun t : State => t.dev.b SECURE_STAT_DEBUGGED = true ∧ t.dev.sec.debugged = true ∧
          t.dev.cpu.a.debug = halt ∧ t.dev.cpu.b.debug = halt ∧ SameQueue s t
        Completes (.coreDebugAccess true a 4 v halt) s (fun t =>
          shown t ∧ t.mem.readN 4 a.toNat = v.toNat ∧ SameMemBut s t a.toNat 4 ∧ t.dev.bus.err = 0) ∧
        (WordClean s a.toNat → Completes (.coreDebugAccess false a 4 v halt) s fun t =>
          shown t ∧ SameMem s t ∧ t.dev.bus.data = s.mem.readN 4 a.toNat ∧ t.dev.bus.err = 0)))

/-! ### The configuration planes and the girth check (R224-R229, R244-R250) -/

/-- R225, R226, R244, R245, R247 to R250: a scrub step writes the majority of a plane word in all its cells and counts a
correction, STEP cycles after the one before; a fabric enable, a swap and a dry run enter their request once, a dry run with
the fabric stopped is refused at once with 0xFB; the check takes the request out of the queue, reports a refusal and changes
nothing else, and an accepted rail enable starts the rail; a swap's end gives the device sections the target plane;
FABRIC_EN 0 is refused while a rail is enabled and otherwise leaves CONFIGURE with no section in force. SAFE locks all but
the dry runs. That each source code has one waiting request (log entry 64), what a fabric disable does (log entry 48), and
which checks a request has and what GSTAT then shows (log entry 49), are the model's readings. -/
def Obligations.PlanesAndRequests : Prop :=
  let lockedIn := fun i : Instr => ActsOn i (fun s => s.dev.modeNow = modeSafe) [] fun _ t => t.bus.err = 7
  let asks := fun (i : Instr) (pre : State → Prop) (src plane rail : Nat) =>
    Acts i (fun s => pre s ∧ src ∉ s.dev.cfg.queue) (fun d t =>
      t.cfg.queue = d.cfg.queue ++ [src] ∧ t.cfg.qPlane = d.cfg.qPlane ++ [(src, plane, rail)] ∧
      t.f CFG_STAT_QUEUE = min 15 (d.cfg.queue.length + 1))
  let swaps := fun (i : Instr) (pre : State → Prop) (src plane rail : Nat) => asks i pre src plane rail ∧
    Acts i (fun s => pre s ∧ src ∉ s.dev.cfg.queue) (fun d t => OnlyRegs [CFG_STAT.addr 0] d t) ∧
    ActsOn i (fun s => pre s ∧ src ∈ s.dev.cfg.queue) [] fun _ _ => True
  let runs := fun s : State => s.dev.b SYSCTL_CLK_SRC = true
  let refused := fun (i : Instr) (src : Nat) => ActsOn i (fun s => ¬ runs s)
    [CFG_GSTAT.addr 0, CFG_GCOUNT.addr 0, CFG_FLAGS.addr 0] fun d t =>
      t.f CFG_GSTAT_REASON = 0xFB ∧ t.f CFG_GSTAT_SOURCE = src ∧ t.b CFG_FLAGS_CHECK_DONE = true ∧
      t.b CFG_FLAGS_REFUSED = true ∧ t.f CFG_GCOUNT_REFUSALS = (d.f CFG_GCOUNT_REFUSALS + 1) % 2 ^ 16
  NoEffect .scrubStep (fun s => s.dev.now < s.dev.cfg.scrubAt) ∧
  (∀ s, Powered s → s.dev.cfg.scrubPos < 49152 → s.dev.cfg.scrubAt ≤ s.dev.now → Completes .scrubStep s fun t =>
    let a := 0x30000000 + 0x20000 * (s.dev.cfg.scrubPos % 2) + 4 * (s.dev.cfg.scrubPos / 2)
    let wrong := ∃ k < 4, ∃ c ∈ [0, 2 ^ 33, 2 ^ 34], s.mem.read (a + k + c) ≠ s.mem.readPlane (a + k)
    (∀ k < 4, ∀ c ∈ [0, 2 ^ 33, 2 ^ 34], t.mem.read (a + k + c) = s.mem.readPlane (a + k)) ∧
    (∀ x, (∀ c ∈ [0, 2 ^ 33, 2 ^ 34], x < a + c ∨ a + c + 4 ≤ x) → t.mem.read x = s.mem.read x) ∧ SameQueue s t ∧
    t.dev.cfg.scrubPos = (s.dev.cfg.scrubPos + 1) % 49152 ∧
    t.dev.cfg.scrubAt = s.dev.now + max 4 (s.dev.f CFG_XSCRUB_STEP) ∧
    (wrong → t.dev.f CFG_SCRUB_CORR = min (s.dev.f CFG_SCRUB_CORR + 1) 65535 ∧ t.dev.b CFG_FLAGS_SCRUB_CORR = true) ∧
    (¬ wrong → t.dev.f CFG_SCRUB_CORR = s.dev.f CFG_SCRUB_CORR) ∧
    t.dev.f CFG_SCRUB_PASSES =
      (s.dev.f CFG_SCRUB_PASSES + if s.dev.cfg.scrubPos = 49151 then 1 else 0) % 2 ^ 16) ∧
  (∀ p : Fin 2, asks (.fabricEnable p) (fun s => Unlocked s ∧ s.dev.b CFG_CTRL_FABRIC_EN = false) 1 p 0 ∧
    Acts (.fabricEnable p) (fun s => Unlocked s ∧ s.dev.b CFG_CTRL_FABRIC_EN = false)
      (fun d t => OnlyRegs [CFG_CTRL.addr 0, CFG_STAT.addr 0] d t ∧ t.f CFG_CTRL_DEV_SEL = p) ∧
    ActsOn (.fabricEnable p) (fun s => Unlocked s ∧ s.dev.b CFG_CTRL_FABRIC_EN = true) [] (fun _ _ => True) ∧
    swaps (.deviceSwap p) Unlocked 2 p 0 ∧ swaps (.deviceDryRun p) runs 4 p 0 ∧ refused (.deviceDryRun p) 4 ∧
    (∀ n : Fin 8, swaps (.railSwap n p) Unlocked 3 p n ∧ swaps (.railDryRun n p) runs 5 p n ∧ refused (.railDryRun n p) 5 ∧
      lockedIn (.railSwap n p)) ∧
    lockedIn (.fabricEnable p) ∧ lockedIn (.deviceSwap p)) ∧ lockedIn .fabricDisable ∧
  (∀ (en : BitVec 8) (n : Fin 8),
    let src := 0x10 + n.val
    let waits := fun s : State => s.dev.cfg.queue = [src] ∧ s.dev.cfg.qPlane = [(src, 0, n.val)]
    let verdict := fun s : State => Chk.judge ⟨s.dev.unrequest src, s.mem, src, s.dev.activePlane n, n, en.toNat⟩
    NoEffect (.girthCheck en) (fun s => s.dev.cfg.queue = []) ∧
    (∀ code sect det, Acts (.girthCheck en) (fun s => waits s ∧ verdict s = some (code, sect, det) ∧ code % 256 ≠ 0)
      fun d t => OnlyRegs [CFG_GSTAT.addr 0, CFG_GCOUNT.addr 0, CFG_FLAGS.addr 0, CFG_STAT.addr 0] d t ∧
        { t with regs := d.regs, cfg := d.cfg } = d ∧ t.cfg.queue = [] ∧ t.f CFG_GSTAT_REASON = code % 256 ∧
        t.f CFG_GSTAT_SOURCE = src ∧ t.f CFG_GSTAT_SECT = sect % 128 ∧ t.b CFG_FLAGS_REFUSED = true) ∧
    Acts (.girthCheck en) (fun s => waits s ∧ verdict s = none ∧ s.dev.spanOf n = none) fun d t =>
      t.cfg.queue = [] ∧ t.f CFG_GSTAT_REASON = 0 ∧ t.f CFG_GSTAT_SOURCE = src ∧ t.b CFG_FLAGS_ACCEPTED = true ∧
      t.f CFG_GCOUNT_ACCEPTS = (d.f CFG_GCOUNT_ACCEPTS + 1) % 2 ^ 16 ∧ t.b RAIL_CTRL_EN n = true ∧
      t.b RAIL_STAT_ENABLED n = true ∧ t.b RAIL_STAT_SOFTSTART n = true ∧ (t.rail n).phase = .tonDelay) ∧
  (let still := fun s : State => ∀ n < 8, (s.dev.rail n).sq.swapTo = none
   NoEffect .swapSectionsTakeForce (fun s => still s ∧ s.dev.cfg.devTo = none ∧ s.dev.cfg.swapOpen = false) ∧
   ∀ p : Fin 2, Runs .swapSectionsTakeForce (fun s => still s ∧ s.dev.cfg.devTo = some p.val ∧ s.dev.cfg.swapOpen = true ∧
     findSec (dirList s.mem p) 4 0xFF = none ∧ findSec (dirList s.mem p) 5 0xFF = none) fun _ t =>
       t.f CFG_STAT_DEV_PLANE = p ∧ t.cfg.devTo = none ∧ t.cfg.swapOpen = false ∧ t.b CFG_FLAGS_SWAP_DONE = true ∧
       t.b CFG_STAT_DEV_PEND = false) ∧
  (let on := fun s : State => Unlocked s ∧ s.dev.b CFG_CTRL_FABRIC_EN = true
   let railOn := fun s : State => ∃ n < 8, s.dev.b RAIL_STAT_ENABLED n = true
   ActsOn .fabricDisable (fun s => Unlocked s ∧ ¬ on s) [] (fun _ _ => True) ∧
   ActsOn .fabricDisable (fun s => on s ∧ railOn s) [CFG_FLAGS.addr 0] (fun _ t => t.b CFG_FLAGS_FAB_CLR_REJ = true) ∧
   Acts .fabricDisable (fun s => on s ∧ ¬ railOn s) fun _ t =>
     t.b CFG_CTRL_FABRIC_EN = false ∧ t.b CFG_STAT_FABRIC_ON = false ∧ t.modeNow = modeConfigure ∧ t.cfg.pinmap = false)

/-! ### Accumulators, open-wire tests and long operations (R263-R277) -/

/-- R263 to R265, R267, R268, R271, R272: a restart clears the block and the window and keeps what is published; the read of
AVG fills the shadows; an expert routing in range takes force, one out of range is rejected; a static test starts or is
REFUSED and its end classifies the input; a long operation starts, or the first check that fails gives LOPREJ; ABORT and the
two timeouts end the one that runs. -/
def Obligations.MeasurementCommands : Prop :=
  (∀ u : Fin 64,
    Acts (.accumRestart u) (fun _ => True) (fun d t => SameRegs d t ∧
      (t.unit u).acc = 0 ∧ (t.unit u).tags = 0 ∧ (t.unit u).n = 0 ∧ (t.unit u).wblk = 0 ∧ (t.unit u).opened = false ∧
      (t.unit u).pStat.testBit 28 = false ∧ (t.unit u).pStat.testBit 25 = true ∧
      (t.unit u).pMin = (d.unit u).pMin ∧ (t.unit u).pMax = (d.unit u).pMax) ∧
    ActsOn (.accumAvgRead u) (fun _ => True) [ACCUMu_WMIN.addr u, ACCUMu_WMAX.addr u, ACCUMu_STAT.addr u] (fun d t =>
      t.r ACCUMu_WMIN u = (d.unit u).pMin % 2 ^ 32 ∧ t.r ACCUMu_WMAX u = (d.unit u).pMax % 2 ^ 32 ∧
      t.r ACCUMu_STAT u = (d.unit u).pStat % 2 ^ 32 ∧ t.bus.data = d.r ACCUMu_AVG u ∧ t.bus.err = 0) ∧
    ∀ v : Word,
      let i := Instr.accumXrouteWrite u v
      let src := v.toNat % 256
      let navg := v.toNat / 256 % 16
      let en := v.toNat.testBit 24
      let open_ := fun s : State => s.dev.b ACCUM_CTRL_EXPERT_UNLOCK = true
      let good := fun s : State => src ≤ 0x60 ∧ v.toNat &&& 0xFEF00000 = 0 ∧ s.dev.b ACCUMu_CFG_HELD u = false ∧
        (en = true → 1 ≤ navg ∧ navg ≤ 8 ∧ s.dev.sourceOk src = true)
      ActsOn i (fun s => ¬ open_ s) [] (fun _ _ => True) ∧
      ActsOn i (fun s => open_ s ∧ ¬ good s) [ACCUM_FLAGS.addr 0] (fun _ t => t.b ACCUM_FLAGS_WR_REJ = true) ∧
      Acts i (fun s => open_ s ∧ good s) fun d t =>
        OnlyRegs [ACCUMu_CFG.addr u, ACCUMu_XROUTE.addr u, ACCUM_CTRL.addr 0] d t ∧ t.r ACCUMu_CFG u = v.toNat ∧
        t.r ACCUMu_XROUTE u = v.toNat ∧ (t.unit u).expert = true ∧ t.b ACCUM_CTRL_EXPERT = true ∧
        (∀ k, (k, u.val) ∈ t.accum.routes ↔ en = true ∧ k = src)) ∧
  (∀ i : Fin 32,
    let idle := fun s : State => s.dev.accum.ow.running = false
    let refused := fun (kind : Fin 2) (pre : State → Prop) =>
      ActsOn (.openWireTest kind i) (fun s => idle s ∧ pre s) [ACCUM_OWSTAT.addr 0] fun _ t =>
        t.f ACCUM_OWSTAT_RESULT = 5 ∧ t.f ACCUM_OWSTAT_STATE = 2 ∧ t.f ACCUM_OWSTAT_INDEX = i ∧
        t.f ACCUM_OWSTAT_KIND = kind
    let starts := fun (kind : Fin 2) (pre : State → Prop) =>
      Acts (.openWireTest kind i) (fun s => idle s ∧ pre s) fun d t => OnlyRegs [ACCUM_OWSTAT.addr 0] d t ∧
        t.f ACCUM_OWSTAT_STATE = 1 ∧ t.f ACCUM_OWSTAT_INDEX = i ∧ t.f ACCUM_OWSTAT_KIND = kind ∧
        t.accum.ow.running = true ∧ t.accum.ow.n = 0 ∧ t.accum.ow.means = []
    let railFree := fun s : State => i.val < 8 ∧ s.dev.b RAIL_STAT_ENABLED i = false
    let sliceFree := fun s : State => (s.dev.slice i).present = true ∧ (s.dev.sRole i = roleNone ∨
      s.dev.sState i = stFaulted ∨ s.dev.sRole i = roleSpare ∧ s.dev.sState i = stFree)
    starts 1 railFree ∧ refused 1 (fun s => ¬ railFree s) ∧ starts 0 sliceFree ∧ refused 0 (fun s => ¬ sliceFree s) ∧
    ∀ kind, ActsOn (.openWireTest kind i) (fun s => ¬ idle s) [ACCUM_OWSTAT.addr 0] fun d t =>
      t.f ACCUM_OWSTAT_RESULT = 5 ∧ t.f ACCUM_OWSTAT_STATE = d.f ACCUM_OWSTAT_STATE) ∧
  (let due := fun s : State => s.dev.accum.ow.running = true ∧ 256 ≤ s.dev.accum.ow.n
   NoEffect .openWireTestEnd (fun s => ¬ due s) ∧
   Runs .openWireTestEnd (fun s => due s ∧ s.dev.accum.ow.kind = 1 ∧ s.dev.accum.ow.waiting = []) fun d t =>
     let w := d.accum.ow
     let dp := w.means.getD 0 0 - w.means.getD 1 0
     let dn := w.means.getD 3 0 - w.means.getD 2 0
     let th : Int := d.f ACCUM_XOW_TH_OPEN
     let tc : Int := d.f ACCUM_XOW_TH_CONN
     let res := if th ≤ dp ∧ th ≤ dn then 3 else if th ≤ dp then 1 else if th ≤ dn then 2
       else if -tc ≤ dp ∧ dp ≤ tc ∧ -tc ≤ dn ∧ dn ≤ tc ∧ w.allSat = false then 0 else 4
     t.accum.ow.running = false ∧ t.f ACCUM_OWSTAT_STATE = 2 ∧ t.f ACCUM_OWSTAT_RESULT = res ∧
     t.f ACCUM_OWDIFF_DP = ofS 16 dp ∧ t.f ACCUM_OWDIFF_DN = ofS 16 dn ∧ t.b ACCUM_FLAGS_OW_DONE = true ∧
     (1 ≤ res ∧ res ≤ 3 → t.b ACCUM_FLAGS_OW_OPEN = true) ∧
     (res ≠ 0 → Arrives d t 1 0x016 (0x80 + w.index) [res, t.r ACCUM_OWDIFF])) ∧
  (∀ n : Fin 8,
    let busy := fun s : State => s.dev.f ACCUM_LOPSTAT_STATE = 1
    let off := fun s : State => s.dev.b CFG_STAT_FABRIC_ON = false
    let c := fun (s : State) (k lo w : Nat) => s.dev.r ACCUM_LOPCFG k / 2 ^ lo % 2 ^ w
    let op := fun (i : Instr) (code : Nat) (idle range : State → Prop) (last : Nat) (lastBad : State → Prop) =>
      let refused := fun (pre : State → Prop) (why : Nat) =>
        ActsOn i pre [ACCUM_LOPREJ.addr 0, ACCUM_FLAGS.addr 0] fun d t => t.f ACCUM_LOPREJ_CODE = why ∧
          t.b ACCUM_FLAGS_LOP_REJ = true ∧ t.f ACCUM_LOPREJ_COUNT = (d.f ACCUM_LOPREJ_COUNT + 1) % 256
      refused busy 0x10 ∧ refused (fun s => ¬ busy s ∧ off s) 0x11 ∧
      refused (fun s => ¬ busy s ∧ ¬ off s ∧ idle s) 0x12 ∧
      refused (fun s => ¬ busy s ∧ ¬ off s ∧ ¬ idle s ∧ ¬ range s) 0x13 ∧
      refused (fun s => ¬ busy s ∧ ¬ off s ∧ ¬ idle s ∧ range s ∧ lastBad s) last ∧
      Acts i (fun s => ¬ busy s ∧ ¬ off s ∧ ¬ idle s ∧ range s ∧ ¬ lastBad s) fun d t =>
        t.f ACCUM_LOPSTAT_STATE = 1 ∧ t.f ACCUM_LOPSTAT_PROGRESS = 0 ∧ t.f ACCUM_LOPSTAT_PARTIALS = 0 ∧
        t.f ACCUM_LOPINFO_OP = code ∧ t.f ACCUM_LOPINFO_RAIL = n ∧ t.accum.lop.op = code ∧ t.accum.lop.rail = n ∧
        (∀ k < 256, t.r ACCUM_RES k = 0) ∧ t.accum.lop.startAt = d.now ∧
        (code = 1 → t.b ACCUM_LOPINFO_HELD = true ∧ t.f ACCUM_LOPINFO_UBASE = d.r ACCUM_LOPCFG 0 / 2 ^ 8 % 2 ^ 6)
    let down := fun s : State => s.dev.b RAIL_STAT_POWER_GOOD n = false ∨ s.dev.b RAIL_STAT_SHUTTING n = true
    op (.captureStart n) 1 (fun s => s.dev.b RAIL_STAT_ENABLED n = false)
      (fun s => 1 ≤ c s 0 0 4 ∧ c s 0 0 4 ≤ 8 ∧ c s 0 8 6 ≤ 61 ∧ c s 0 16 3 ≤ 4 ∧ 1 ≤ c s 1 0 7 ∧ c s 1 0 7 ≤ 64 ∧
        c s 1 8 7 < c s 1 0 7) 0 (fun _ => False) ∧
    op (.sweepStart n) 2 down
      (fun s => 1 ≤ c s 0 0 16 ∧ c s 0 0 16 ≤ 32767 ∧ 1 ≤ c s 0 24 8 ∧ 4295 ≤ s.dev.r ACCUM_LOPCFG 1 ∧
        s.dev.r ACCUM_LOPCFG 1 ≤ 2 ^ 28 ∧ 1 ≤ c s 2 16 7 ∧ c s 2 16 7 ≤ 64) 0x14 (fun s => s.dev.spanOf n ≠ none) ∧
    op (.calPassStart n) 3 down (fun s => 1 ≤ c s 0 8 8) 0x15 (fun s => s.dev.freeSpares n = [])) ∧
  (let runs := fun s : State => s.dev.f ACCUM_LOPSTAT_STATE = 1
   let ends := fun (i : Instr) (pre : State → Prop) (state why : Nat) => Acts i (fun s => runs s ∧ pre s) fun d t =>
     t.f ACCUM_LOPSTAT_STATE = state ∧ t.f ACCUM_LOPSTAT_REASON = why ∧ t.b ACCUM_FLAGS_LOP_BAD = true ∧
     t.accum.lop.op = 0 ∧ (d.log.intake.length < 40 →
       ∃ e ∈ t.log.intake, e.cls = 3 ∧ e.typ = 0x031 ∧ e.src = d.f ACCUM_LOPINFO_OP)
   let late := fun s : State => let l := s.dev.accum.lop
     FabricRuns s ∧ l.op = 1 ∧ l.trig = false ∧ l.c2 % 2 ^ 16 ≠ 0 ∧ l.startAt + 400000 * (l.c2 % 2 ^ 16) ≤ s.dev.now
   let waits := fun s : State => let l := s.dev.accum.lop
     FabricRuns s ∧ l.op = 3 ∧ l.cur = none ∧ l.waitAt + 400000 * (l.c0 / 2 ^ 8 % 2 ^ 8) ≤ s.dev.now
   ends .lopAbort (fun _ => True) 3 1 ∧ ends .captureTimeout late 4 2 ∧ ends .passWaitTimeout waits 4 6 ∧
   Acts .lopAbort (fun s => s.dev.f ACCUM_LOPSTAT_STATE = 2) (fun d t => OnlyRegs [ACCUM_LOPSTAT.addr 0] d t ∧
     t.b ACCUM_LOPSTAT_ABORT_LATE = true ∧ t.f ACCUM_LOPSTAT_STATE = 2) ∧
   NoEffect .lopAbort (fun s => s.dev.f ACCUM_LOPSTAT_STATE ≠ 1 ∧ s.dev.f ACCUM_LOPSTAT_STATE ≠ 2) ∧
   NoEffect .captureTimeout (fun s => ¬ late s) ∧ NoEffect .passWaitTimeout (fun s => ¬ waits s))

/-! ### The incident log (R280-R288) -/

/-- R280, R282 to R285, R287 and R288: the next queued entry is written in the lowest empty slot with the next SEQ, or
merges into its coalesced record; an incident closes once it has been quiet; a software post of a class 1 to 3 and a TYPE
from 0x800 enters the queue, or is lost and counted when 48 places are taken, and another one sets SWREJ; a read of LOG_NEXT
pins the oldest unread entry that the host does not pin; an acknowledgement marks the pinned slot read, or sets ACK_REJ;
RELEASE frees the groups of closed incidents; CLRLOSS clears the loss counts. How long a quiet incident stays open in cycles
of CCLK (log entry 30), that merging is decided at LOG_WRITE (log entry 45) and how a group is named (log entry 75) are the
model's own. -/
def Obligations.LogCommands : Prop :=
  NoEffect .logWrite (fun s => s.dev.log.intake = []) ∧
  (∀ (e : LogEnt) (rest : List LogEnt) (k : Nat) (s : State), Powered s → s.dev.log.intake = e :: rest → e.cls < 4 →
    s.dev.coalMode = false → firstEmpty s.dev.log.slots 0 = some k → Completes .logWrite s fun t =>
      let a := slotAddr k
      let w := t.mem.readN 4 a
      w % 4 = e.cls ∧ w / 2 ^ 4 % 2 ^ 12 = e.typ % 2 ^ 12 ∧ w / 2 ^ 16 % 256 = e.src % 256 ∧ w / 2 ^ 24 = e.inc % 256 ∧
      t.mem.readN 4 (a + 4) = s.dev.r LOG_SEQ ∧ t.mem.readN 4 (a + 8) = e.rt % 2 ^ 32 ∧
      t.mem.readN 4 (a + 12) = e.epoch % 2 ^ 32 ∧
      (∀ j < 4, t.mem.readN 4 (a + 16 + 4 * j) = e.data.getD j 0 % 2 ^ 32) ∧ SameMemBut s t a 32 ∧ SameQueue s t ∧
      t.dev.log.intake = rest ∧ t.dev.r LOG_SEQ = (s.dev.r LOG_SEQ + 1) % 2 ^ 32 ∧
      (e.cls = 0 → t.dev.b LOG_FLAGS_C0_WRITTEN = true) ∧
      ∃ x ∈ t.dev.log.slots, x.slot = k ∧ x.seq = s.dev.r LOG_SEQ ∧ x.cls = e.cls ∧ x.typ = e.typ ∧ x.src = e.src ∧
        x.read = false) ∧
  (∀ (e : LogEnt) (rest : List LogEnt) (x : SlotSt) (s : State), Powered s → s.dev.log.intake = e :: rest → 1 ≤ e.cls →
    s.dev.coalMode = true → s.dev.mergeSlot e = some x → Completes .logWrite s fun t =>
      let a := slotAddr x.slot + 16
      t.mem.readN 4 a = e.rt % 2 ^ 32 ∧ t.mem.readN 4 (a + 4) = e.epoch % 2 ^ 32 ∧
      t.mem.readN 4 (a + 8) = min (s.mem.readN 4 (a + 8) + 1) (2 ^ 32 - 1) ∧
      t.mem.readN 4 (a + 12) = e.data.getD 0 0 % 2 ^ 32 ∧ SameMemBut s t a 16 ∧ SameQueue s t ∧
      t.dev.log.intake = rest ∧ t.dev.log.slots = s.dev.log.slots ∧ t.dev.r LOG_SEQ = s.dev.r LOG_SEQ ∧
      t.dev.r LOG_COALCNT = min (s.dev.r LOG_COALCNT + 1) (2 ^ 32 - 1)) ∧
  (let opened := fun s : State => s.dev.b LOG_INCID_OPEN = true ∧
     s.dev.log.quietAt + 400000 * max 1 (s.dev.f LOG_XCFG_QUIET) ≤ s.dev.now
   NoEffect .incidentClose (fun s => ¬ opened s) ∧
   Acts .incidentClose opened fun d t => t.b LOG_INCID_OPEN = false ∧ t.f LOG_INCID_NUMBER = d.f LOG_INCID_NUMBER ∧
     t.b LOG_FLAGS_INC_CLOSE = true ∧ t.b LOG_STAT_INCIDENT = false ∧
     t.log.groups = d.log.groups.map fun g => if g.1 = d.f LOG_INCID_NUMBER then (g.1, true, g.2.2) else g) ∧
  (∀ v : Word,
    let typ := v.toNat % 2 ^ 12
    let cls := v.toNat / 2 ^ 12 % 4
    let src := v.toNat / 2 ^ 16 % 256
    (cls = 0 ∨ typ < 0x800 →
      ActsOn (.logSwpost v) (fun _ => True) [LOG_FLAGS.addr 0] fun _ t => t.b LOG_FLAGS_SWREJ = true) ∧
    (cls ≠ 0 → 0x800 ≤ typ →
      let cyc := fun d : Dev => d.now / if d.b SYSCTL_CLK_SRC then 2 else 8
      let alone := fun s : State => ∀ x ∈ s.dev.log.intake, x.cyc ≠ cyc s.dev
      Acts (.logSwpost v) (fun s => s.dev.log.intake.length < 48 ∧ alone s) (fun d t => SameRegs d t ∧
        t.log.intake = d.log.intake ++ [⟨cls, typ, src, d.r CHAIN_RTIME, d.r LOG_EPOCH,
          (List.range 4).map fun k => d.r LOG_SWDATA k, if d.b LOG_INCID_OPEN then d.f LOG_INCID_NUMBER else 0, cyc d⟩]) ∧
      Acts (.logSwpost v) (fun s => 48 ≤ s.dev.log.intake.length ∧ alone s) fun d t => t.log.intake = d.log.intake ∧
        t.r LOG_LOSS cls = min (d.r LOG_LOSS cls + 1) (2 ^ 32 - 1) ∧ t.b LOG_FLAGS_LOSS = true ∧
        t.b LOG_STAT_LOSSY = true)) ∧
  (let fresh := fun (d : Dev) (x : SlotSt) => x ∈ d.log.slots ∧ x.read = false ∧ d.log.pinHost ≠ some x.slot
   (∀ k, ActsOn .logNextRead (fun s => s.dev.log.pinCore = some k) [LOG_NEXT.addr 0] fun _ t =>
     t.bus.data = (k + 2 ^ 31) % 2 ^ 32 ∧ t.r LOG_NEXT = (k + 2 ^ 31) % 2 ^ 32 ∧ t.bus.err = 0) ∧
   ActsOn .logNextRead (fun s => s.dev.log.pinCore = none ∧ ∀ x, ¬ fresh s.dev x) [LOG_NEXT.addr 0]
     (fun _ t => t.bus.data = 0 ∧ t.bus.err = 0) ∧
   Acts .logNextRead (fun s => s.dev.log.pinCore = none ∧ ∃ x, fresh s.dev x) fun d t =>
     ∃ x, fresh d x ∧ (∀ y, fresh d y → x.seq ≤ y.seq) ∧ t.log.pinCore = some x.slot ∧ t.log.slots = d.log.slots ∧
       t.bus.data = (x.slot + 2 ^ 31) % 2 ^ 32) ∧
  (∀ v : Word,
    let k := v.toNat % 2 ^ 11
    Acts (.logAck v) (fun s => s.dev.log.pinCore = some k) (fun d t => t.log.pinCore = none ∧
      t.log.slots = d.log.slots.map fun x => if x.slot = k then { x with read := true } else x) ∧
    ActsOn (.logAck v) (fun s => s.dev.log.pinCore ≠ some k) [LOG_FLAGS.addr 0]
      (fun _ t => t.b LOG_FLAGS_ACK_REJ = true)) ∧
  Acts .logRelease (fun _ => True) (fun d t => t.log.groups = d.log.groups.filter (fun g => !g.2.1) ∧
    t.log.slots = d.log.slots.map fun x =>
      if d.log.groups.any fun g => g.2.1 && x.group == some g.1 then { x with group := none } else x) ∧
  Acts .logClrloss (fun _ => True) (fun d t => (∀ c < 4, t.r LOG_LOSS c = 0) ∧ t.b LOG_STAT_LOSSY = false ∧
    t.log.slots = d.log.slots)

/-! ### Modes, supplies, resets, sleep, the watchdog, BD_TIME, the start of the ROM (R25, R294-R316, R322, R325, R334) -/

/-- R295, R297, R299, R301, R302, R304 to R311, R313, R315, R316: power-on reset leaves DORMANT with the battery domain and
the flash as they were and every other register at its reset value, and its release starts the ROM; a warning that is not
masked, SAFE with its key and a reset request with a rail enabled enter SAFE with their cause; a wrong key is refused with
REJ 8; the reset that is due is taken when no rail is enabled and no PROGRAM runs; STANDBY is refused outside CONFIGURE and
taken when nothing is in progress; a wake source whose condition holds, the alarm, the wake comparator and a failed slow
clock wake the device, the last with MAKEUP_BAD; the slow clock is good again after 1,024 consecutive good edges; the makeup
counts the sleep. That a wake in the cycle in which the cores stop aborts the sleep, the watchdog counting on, is the
model's reading of R312 (log entry 31). A mode request in the cycle of a SAFE trigger is refused with REJ 9. While the
system domain runs from the start-up oscillator, no happening of the fabric domain has an effect (R25).
R322, R325 and R334: the watchdog warns at half its timeout, enters SAFE at its end or at a kick with a wrong key, and a
kick with the key restarts it; a write of BD_TIME waits for the slow edge that loads it, a read of its low half fills the
shadow of the high one; PLL_LOCK completes on every powered device, moves the system domain to the PLL and ends a boot that
waits for it, and a root whose PLL does not lock within 10 ms ends its boot in SAFE. Which cause stands when several are
due, and what a warning and a reset request do in SAFE, are the model's readings (log entries 32 and 66), a wrong key's REJ
too (log entry 36); what one cycle is among commands is its choice (log entry 67). -/
def Obligations.ModesResetsAndWatchdog : Prop :=
  (let restarts := fun (i : Instr) (pre : State → Prop) => ∀ (s : State) (cause : Nat), Powered s → pre s → RomWaits s false →
     s.dev.mode.due = some cause → 5 < cause → cause < 256 → s.dev.anyEnabled = false → s.dev.flash.op ≠ 1 → s.dev.sec.op = 0 →
     Completes i s fun t =>
       t.mem = s.mem.completeFuses ∧ SameQueue s t ∧ t.dev.f SYSCTL_RESETCAUSE_CAUSE = cause ∧
       t.dev.f SYSCTL_RESETCAUSE_MODE = s.dev.modeNow ∧ t.dev.modeNow = modeBoot ∧ t.dev.mode.due = none ∧
       t.dev.f SECURE_STAT_BOOTSTEP = 2 ∧ t.dev.cpu.a.pc = 0 ∧ t.dev.cpu.b.pc = 0 ∧
       t.dev.b SYSCTL_CLK_PLL_LOCK = false ∧ t.dev.log.intake = [] ∧
       bits (t.dev.r BD_REG (2 * s.dev.f BD_STAT_SREC_NEXT)) 0 8 = cause
   let requests := fun (i : Instr) (pre : State → Prop) (cause : Nat) =>
     EntersSafe i (fun s => pre s ∧ s.dev.anyEnabled = true) cause ∧
     Acts i (fun s => Calm s ∧ pre s ∧ s.dev.anyEnabled = false) (fun d t => SameRegs d t ∧
       t.mode.due = some (d.mode.due.getD cause))
   let badKey := fun i : Instr => ActsOn i Calm [SYSCTL_FLAGS.addr 0, SYSCTL_MODE.addr 0] fun d t =>
     t.b SYSCTL_FLAGS_MODE_REJ = true ∧ t.b SYSCTL_FLAGS_KEY_REJ = true ∧ t.f SYSCTL_MODE_REJ = 8 ∧
     t.modeNow = d.modeNow
   let battery := fun a : Nat => 0xF0000000 ≤ a ∧ a < 0xF0000400
   let safeNow := fun s : State => s.dev.modeNow = modeSafe ∧ s.dev.mode.safeAt = some s.dev.now
   let rejects := fun (i : Instr) (pre : State → Prop) (why : Nat) =>
     ActsOn i (fun s => Calm s ∧ pre s) [SYSCTL_FLAGS.addr 0, SYSCTL_MODE.addr 0] fun d t =>
       t.b SYSCTL_FLAGS_MODE_REJ = true ∧ t.f SYSCTL_MODE_REJ = why ∧ t.modeNow = d.modeNow
   let batteryCleared := fun d t : Dev => (∀ a, battery a → a ≠ BD_STAT.addr 0 → t.rd a = 0) ∧ t.r BD_STAT = 4 ∧
     (∀ a, ¬ battery a → a ≠ CHAIN_STAT.addr 0 → t.rd a = d.rd a) ∧ (d.mode.dormant = false → t.f CHAIN_STAT_RING = 0)
   (∀ i, fabricRow i = true → NoEffect i (fun s => ¬ FabricRuns s)) ∧
   (∀ supply : Fin 4, NoEffect (.porAssert supply) (fun s => ¬ Powered s) ∧
     ∀ s, Powered s → s.dev.mode.warned < 256 → s.dev.flash.op ≠ 1 → s.dev.sec.op = 0 → Completes (.porAssert supply) s fun t =>
       t.dev.mode.dormant = true ∧ SameQueue s t ∧ t.dev.faultN = false ∧ (∀ a, a < 0x20000000 → t.mem.read a = s.mem.read a) ∧
       (∀ a, 0x20000000 ≤ a → t.mem.read a = 0) ∧
       t.dev.f SYSCTL_RESETCAUSE_CAUSE = (if s.dev.mode.warned = 0 then 5 else s.dev.mode.warned) ∧
       t.dev.f SYSCTL_RESETCAUSE_MODE = s.dev.modeNow ∧ t.dev.f SYSCTL_SUPPLY_POR_OK = 15 - 2 ^ supply.val ∧
       (∀ a, ¬ battery a → a ≠ SYSCTL_RESETCAUSE.addr 0 → a ≠ SYSCTL_SUPPLY.addr 0 →
         t.dev.rd a = Dev.power.rd a) ∧
       (∀ a, battery a → (∀ n < 10, a ≠ BD_REG.addr n) → a ≠ BD_STAT.addr 0 → t.dev.rd a = s.dev.rd a)) ∧
   (∀ (strap : Fin 8) (root : Bool), NoEffect (.porRelease strap root) Powered ∧
     ∀ s, ¬ Powered s → RomWaits s s.dev.coldBoot → Completes (.porRelease strap root) s fun t =>
       t.mem = s.mem.completeFuses ∧ SameQueue s t ∧ t.dev.mode.dormant = false ∧ t.dev.f SYSCTL_SUPPLY_POR_OK = 15 ∧
       t.dev.f HB_STAT_STRAP = strap ∧ t.dev.b SYSCTL_CLK_ROOT = root ∧ t.dev.b CHAIN_STAT_ROOT = root ∧
       t.dev.f CHAIN_UPORT_RX = 1 ∧ t.dev.f CHAIN_DPORT_RX = 1 ∧ t.dev.f SECURE_STAT_BOOTSTEP = 2) ∧
   (∀ w : Fin 7,
     let masked := fun s : State => (s.dev.f SYSCTL_XSUP_WARN_MASK).testBit w = true
     let cause := if w.val < 3 then 1 + w.val else 4
     ActsOn (.brownoutWarning w) (fun s => Calm s ∧ masked s) [SYSCTL_SUPPLY.addr 0]
       (fun d t => t.f SYSCTL_SUPPLY_WARN = d.f SYSCTL_SUPPLY_WARN ||| 2 ^ w.val) ∧
     EntersSafe (.brownoutWarning w) (fun s => ¬ masked s) cause ∧
     Acts (.brownoutWarning w) (fun s => Calm s ∧ ¬ masked s ∧ s.dev.modeNow = modeSafe) fun d t =>
       t.modeNow = modeSafe ∧ bits (t.r BD_REG (2 * d.f BD_STAT_SREC_NEXT)) 0 8 = cause ∧ t.mode.warned = cause) ∧
   (∀ s, Completes .batReset s fun t => t.mem = s.mem ∧ SameQueue s t ∧ batteryCleared s.dev t.dev) ∧
   (∀ key : Half, (key.toNat = 0xC1EA → Acts (.bdClear key) (fun _ => True) batteryCleared) ∧
     (key.toNat ≠ 0xC1EA → ActsOn (.bdClear key) (fun _ => True) [] fun _ _ => True)) ∧
   rejects .modecmdStandby (fun s => s.dev.modeNow ≠ modeConfigure ∧ ¬ safeNow s) 1 ∧
   rejects .modecmdStandby safeNow 9 ∧
   Acts .modecmdStandby (fun s => Calm s ∧ s.dev.modeNow = modeConfigure ∧ s.dev.b CFG_CTRL_FABRIC_EN = false ∧
       s.dev.flash.op = 0 ∧ s.dev.suspBlock = none ∧ (∀ n < 16, s.dev.f CHn_STAT_STATE n = 0) ∧ s.dev.accum.lop.op = 0 ∧
       s.dev.lockstep = true ∧ s.dev.r SYSCTL_WAKEEN = 0)
     (fun d t => OnlyRegs [SYSCTL_MODE.addr 0] d t ∧ t.modeNow = modeStandby ∧ t.mode.sleep = 1 ∧
       t.mode.wdog = d.mode.wdog) ∧
   (∀ key : Half,
     (key.toNat = 0xC3A5 → EntersSafe (.modecmdSafe key) (fun _ => True) 9 ∧
       ActsOn (.modecmdSafe key) (fun s => Calm s ∧ s.dev.modeNow = modeSafe) [] (fun _ _ => True) ∧
       rejects (.modecmdBoot key) safeNow 9 ∧
       Acts (.modecmdBoot key) (fun s => Calm s ∧ s.dev.modeNow = modeSafe ∧ ¬ safeNow s)
         (fun d t => SameRegs d t ∧ t.mode.due = some (d.mode.due.getD 0xF)) ∧
       ActsOn (.modecmdBoot key) (fun s => Calm s ∧ s.dev.modeNow ≠ modeSafe) [] (fun _ _ => True)) ∧
     (key.toNat ≠ 0xC3A5 → badKey (.modecmdSafe key) ∧ badKey (.modecmdBoot key))) ∧
   requests .resetNLow (fun s => s.dev.modeNow ≠ modeSafe) 6 ∧
   (∀ v : Word, (v.toNat / 2 ^ 16 = 0xA53C → v.toNat % 2 = 1 →
       requests (.softwareReset v) (fun s => s.dev.modeNow ≠ modeSafe) 7 ∧
       ActsOn (.softwareReset v) (fun s => Calm s ∧ s.dev.modeNow = modeSafe) [] (fun _ _ => True)) ∧
     (v.toNat / 2 ^ 16 = 0xA53C → v.toNat % 2 = 0 → ActsOn (.softwareReset v) Calm [] fun _ _ => True) ∧
     (v.toNat / 2 ^ 16 ≠ 0xA53C → ActsOn (.softwareReset v) Calm [SYSCTL_FLAGS.addr 0]
       fun _ t => t.b SYSCTL_FLAGS_KEY_REJ = true)) ∧
   requests .debugReset (fun s => s.dev.modeNow ≠ modeSafe ∧ s.dev.debugOpen = true) 8 ∧
   NoEffect .debugReset (fun s => s.dev.debugOpen = false) ∧
   restarts .sysReset (fun _ => True) ∧ restarts .safeReturn (fun s => s.dev.modeNow = modeSafe ∧ s.dev.mode.nLow = false) ∧
   Acts .sysReset (fun s => s.dev.mode.due = none) (fun d t => SameRegs d t ∧ t.mode.nLow = false) ∧
   NoEffect .safeReturn (fun s => s.dev.modeNow ≠ modeSafe ∨ s.dev.mode.nLow = true ∨ s.dev.mode.due = none) ∧
   (∀ source : Fin 6,
     let wakes := fun s : State => s.dev.modeNow = modeStandby ∧ (s.dev.r SYSCTL_WAKEEN).testBit source = true ∧
       (if source.val = 4 then s.dev.enWired s.mem else s.dev.wakeHolds source) = true
     NoEffect (.wake source) (fun s => ¬ wakes s) ∧
     Acts (.wake source) wakes fun d t => t.modeNow = modeConfigure ∧
       (d.mode.sleep = 1 ∧ d.mode.sleepAt = d.now → t.b SYSCTL_FLAGS_SLEEP_ABORT = true ∧ t.mode.wdog = d.mode.wdog) ∧
       t.f SYSCTL_WAKESRC_SOURCE = (if source.val = 5 then 7 else source.val + 1) ∧
       t.mode.sleep = (if d.mode.sleep = 2 then 3 else 0) ∧
       (d.mode.sleep = 2 → t.b SYSCTL_FLAGS_TIMERS_HELD = true)) ∧
   (let due := fun s : State => s.dev.modeNow = modeStandby ∧ s.dev.mode.sleep = 1
    NoEffect .sleepS0 (fun s => ¬ due s) ∧
    Acts .sleepS0 due fun d t => OnlyRegs [BD_SLEEPT_LO.addr 0, BD_SLEEPT_HI.addr 0] d t ∧ t.mode.sleep = 2 ∧
      t.r BD_SLEEPT_LO = d.r BD_TIME_LO ∧ t.r BD_SLEEPT_HI = d.r BD_TIME_HI ∧ t.mode.s0 = d.mode.edges) ∧
   NoEffect .sleepS1Makeup (fun s => s.dev.mode.sleep ≠ 3) ∧
   Acts .sleepS1Makeup (fun s => s.dev.mode.sleep = 3) (fun d t =>
     let n := d.mode.edges - d.mode.s0
     let e := n * 390625 + d.f SYSCTL_MAKEUP_HI_FRAC
     t.mode.sleep = 0 ∧ t.r SYSCTL_SLEEPN = n % 2 ^ 32 ∧ t.r SYSCTL_MAKEUP_LO = e / 64 % 2 ^ 32 ∧
     t.f SYSCTL_MAKEUP_HI_W_HI = e / 64 / 2 ^ 32 % 2 ^ 16 ∧ t.f SYSCTL_MAKEUP_HI_FRAC = e % 64) ∧
   (∀ k tm, let due := fun s : State => s.dev.mode.wakeAt = some (k, tm) ∧ s.dev.modeNow = modeStandby ∧
       s.dev.mode.sleep = 2 ∧ k ≤ s.dev.mode.edges
     NoEffect .timerWake (fun s => s.dev.mode.wakeAt = some (k, tm) ∧ ¬ due s) ∧
     Acts .timerWake due fun _ t => t.modeNow = modeConfigure ∧ t.f SYSCTL_WAKESRC_SOURCE = 6 ∧
       t.f SYSCTL_WAKESRC_TIMER = tm % 16 ∧ t.mode.sleep = 0) ∧
   NoEffect .timerWake (fun s => s.dev.mode.wakeAt = none) ∧
   (let due := fun s : State => s.dev.modeNow = modeStandby ∧ s.dev.b SYSCTL_WAKEEN_ALARM = true ∧
      s.dev.b BD_CTRL_ALARM_EN = true ∧ s.dev.bdTime = s.dev.bdAlarm
    NoEffect .alarmMatch (fun s => ¬ due s) ∧
    Acts .alarmMatch due fun _ t => t.modeNow = modeConfigure ∧ t.f SYSCTL_WAKESRC_SOURCE = 7 ∧ t.mode.sleep = 0) ∧
   (∀ s, Completes .slowClockFail s fun t => t.mem = s.mem ∧ SameQueue s t ∧ t.dev.b BD_STAT_OSC_OK = false ∧
     t.dev.mode.good = 0 ∧
     (Powered s → s.dev.modeNow = modeStandby → t.dev.modeNow = modeConfigure ∧ t.dev.f SYSCTL_WAKESRC_SOURCE = 8 ∧
       t.dev.mode.sleep = 0 ∧ t.dev.b SYSCTL_FLAGS_MAKEUP_BAD = true) ∧
     (¬ Powered s ∨ s.dev.modeNow ≠ modeStandby → OnlyRegs [BD_STAT.addr 0] s.dev t.dev)) ∧
   NoEffect .slowClockOk (fun s => s.dev.b BD_STAT_OSC_OK = true ∨ s.dev.mode.good < 1024) ∧
   (∀ s, s.dev.b BD_STAT_OSC_OK = false → 1024 ≤ s.dev.mode.good → Completes .slowClockOk s fun t => t.mem = s.mem ∧
     SameQueue s t ∧ OnlyRegs [BD_STAT.addr 0] s.dev t.dev ∧ t.dev.b BD_STAT_OSC_OK = true ∧ t.dev.mode = s.dev.mode)) ∧
  ((let half := fun s : State => s.dev.wdogOn = true ∧ s.dev.wdogLimit ≤ 2 * s.dev.mode.wdog
    let ended := fun s : State => s.dev.wdogOn = true ∧ s.dev.wdogLimit ≤ s.dev.mode.wdog
    NoEffect .watchdogHalf (fun s => ¬ half s) ∧
    Acts .watchdogHalf half (fun d t => OnlyRegs [SYSCTL_FLAGS.addr 0] d t ∧ t.b SYSCTL_FLAGS_WDOG_WARN = true) ∧
    NoEffect .watchdogExpiry (fun s => ¬ ended s) ∧ EntersSafe .watchdogExpiry ended 0xA) ∧
   (∀ v : Word,
     (v.toNat % 2 ^ 16 = 0x5A0F → Acts (.watchdogKick v) Calm fun d t => SameRegs d t ∧ t.mode.wdog = 0) ∧
     (v.toNat % 2 ^ 16 ≠ 0x5A0F → EntersSafe (.watchdogKick v) (fun s => s.dev.b SYSCTL_WDOG_EN = true) 0xA ∧
       ActsOn (.watchdogKick v) (fun s => Calm s ∧ s.dev.b SYSCTL_WDOG_EN = false) [] (fun _ _ => True)) ∧
     Acts (.bdTimeLoWrite v) (fun _ => True) fun d t => OnlyRegs [BD_STAT.addr 0] d t ∧
       t.mode.timeLoad = some (v.toNat + d.mode.timeHi * 2 ^ 32) ∧ t.b BD_STAT_BAT_RESET_SEEN = false) ∧
   (∀ s, Completes .bdTimeLoad s fun t => t.mem = s.mem ∧ SameQueue s t ∧
     OnlyRegs [BD_TIME_LO.addr 0, BD_TIME_HI.addr 0, BD_ALARM_LO.addr 0, BD_ALARM_HI.addr 0] s.dev t.dev ∧
     t.dev.mode.timeLoad = none ∧ t.dev.mode.alarmLoad = none ∧
     (∀ x, s.dev.mode.timeLoad = some x → t.dev.bdTime = x % 2 ^ 48) ∧
     (s.dev.mode.timeLoad = none → t.dev.bdTime = s.dev.bdTime) ∧
     (∀ x, s.dev.mode.alarmLoad = some x → t.dev.bdAlarm = x % 2 ^ 48) ∧
     (s.dev.mode.alarmLoad = none → t.dev.bdAlarm = s.dev.bdAlarm)) ∧
   Acts .bdTimeLoRead (fun _ => True) (fun d t => SameRegs d t ∧ t.mode.timeSh = d.r BD_TIME_HI ∧
     t.bus.data = d.r BD_TIME_LO ∧ t.bus.err = 0) ∧
   (∀ s, Powered s → Completes .pllLock s fun t => SameQueue s t ∧ t.dev.b SYSCTL_CLK_PLL_LOCK = true ∧
     t.dev.b SYSCTL_CLK_SRC = true ∧ t.dev.chain.pllOk = true ∧
     (s.dev.modeNow = modeBoot → s.dev.sec.romDone = false → s.dev.f SECURE_STAT_BOOTSTEP = 2 →
       t.dev.sec.romDone = true ∧ (t.dev.modeNow = modeConfigure ∨ t.dev.modeNow = modeSafe))) ∧
   Acts .pllLock (fun s => s.dev.modeNow ≠ modeBoot ∨ s.dev.sec.romDone = true) (fun d t =>
     OnlyRegs [SYSCTL_CLK.addr 0] d t ∧ t.b SYSCTL_CLK_PLL_LOCK = true ∧ t.b SYSCTL_CLK_SRC = true ∧ t.chain.pllOk = true ∧
     t.chain.lockAt = if d.chain.pllOk then d.chain.lockAt else d.now) ∧
   (let fails := fun s : State => s.dev.b SYSCTL_CLK_ROOT = true ∧ s.dev.modeNow = modeBoot ∧ s.dev.sec.romDone = false ∧
      s.dev.b SYSCTL_CLK_PLL_LOCK = false ∧ s.dev.sec.romAt + 4000000 ≤ s.dev.now
    NoEffect .bootPllTimeout (fun s => ¬ fails s) ∧ EntersSafe .bootPllTimeout fails 0xE))

/-! ### Keaquavik security (R339, R344-R349, R361, R362) -/

/-- R346 to R349, R361 and R362: each operation is refused while one runs, fails at once with 0x10, 0x11 or 0x12 where the
device does not allow it, a parameter is out of range or its key slot is empty, and runs otherwise with its parameters
latched, ATTEST with its body written once the memories that it reads and writes are free, or FAILED with 0x0E where the
running header has an uncorrectable error; its end is DONE or FAILED, MINVER_RAISE's with the new minimum version, a KDF's
with slot 7 derived, ATTEST's with its signature behind the body, PROVISION's with the public key at OPDST, not while it
waits for memory; an abort gives 0x13. A good unlock opens debug and clears the seals, another counts a try; a pin drive
acts while no rail is enabled, and then sets every ball that can drive to the level of its cell (R556); a tamper (a clock
glitch only while the PLL clocks the system, and all but FUSE from the end of step 1 of the ROM on) empties every slot but 0
and 1 and enters SAFE. The order of the refusals' checks is the model's reading (log entry 36); when an operation waits for
a held bank and what an abort leaves (log entry 76), and the order of the cells (log entry 83), are its choices. -/
def Obligations.SecurityCommands : Prop :=
  let ops : List (Instr × Nat) := [(.kmac, 1), (.kdf, 2), (.verify, 3), (.verifySlot, 4), (.attest, 5), (.minverRaise, 6),
    (.lcAdvance, 7), (.provision, 8), (.ownerKey, 9)]
  let runs := fun s : State => s.dev.sec.op ≠ 0
  let regs := [SECURE_OPSTAT.addr 0, SECURE_STAT.addr 0, SECURE_FLAGS.addr 0]
  (∀ x ∈ ops,
    let i := x.1
    let op := x.2
    let arg := fun s : State => s.dev.r SECURE_OPARG
    let allowed := fun s : State => ¬ runs s ∧ s.opAllowed op (arg s) = true
    let fits := fun s : State => allowed s ∧
      s.opBadArg op (s.dev.r SECURE_OPSRC) (s.dev.f SECURE_OPLEN_LEN) (s.dev.r SECURE_OPDST) (arg s) = false
    let empty := fun s : State => (op = 1 ∧ arg s % 16 ≠ 15 ∨ op = 2) ∧ s.dev.key (arg s % 16) = [] ∨
      op = 5 ∧ s.dev.key 4 = []
    let clean := fun s : State => s.dev.flash.ue = [] ∧ s.dev.flash.ce = []
    let fails := fun (pre : State → Prop) (why : Nat) => Acts i pre fun d t => OnlyRegs regs d t ∧
      t.f SECURE_OPSTAT_STATE = 4 ∧ t.f SECURE_OPSTAT_REASON = why ∧ t.b SECURE_FLAGS_OP_BAD = true ∧
      t.b SECURE_STAT_BUSY = false ∧ t.sec.op = 0
    let running := fun (d t : Dev) (part : Nat) => OnlyRegs regs d t ∧ t.f SECURE_OPSTAT_STATE = 1 ∧
      t.f SECURE_OPSTAT_PROGRESS = 0 ∧ t.f SECURE_OPSTAT_PARTIALS = part ∧ t.b SECURE_STAT_BUSY = true ∧ t.sec.op = op ∧
      t.sec.src = d.r SECURE_OPSRC ∧ t.sec.len = d.f SECURE_OPLEN_LEN ∧ t.sec.dst = d.r SECURE_OPDST ∧
      t.sec.arg = d.r SECURE_OPARG
    ActsOn i runs [SECURE_FLAGS.addr 0] (fun _ t => t.b SECURE_FLAGS_OP_REJ = true) ∧
    fails (fun s => ¬ runs s ∧ s.opAllowed op (arg s) = false) 0x10 ∧ fails (fun s => allowed s ∧ ¬ fits s) 0x11 ∧
    fails (fun s => fits s ∧ empty s) 0x12 ∧
    (op ≠ 5 → Acts i (fun s => fits s ∧ ¬ empty s ∧ clean s) fun d t => running d t 0) ∧
    (op = 5 → ∀ s, Powered s → fits s → ¬ empty s → (∀ k, (s.dev.core k).aw = false) → s.dev.flash.op = 0 →
      let hdr := bankAt s.dev.runBank
      (clean s → (∃ k ∈ s.dev.flash.fue, hdr ≤ k ∧ k < hdr + 256) → Completes i s fun t => SameMem s t ∧ SameQueue s t ∧
        t.dev.f SECURE_OPSTAT_STATE = 4 ∧ t.dev.f SECURE_OPSTAT_REASON = 0x0E ∧ t.dev.sec.op = 0) ∧
      (clean s → s.dev.flash.fue = [] → s.dev.flash.fce = [] → s.dev.suspBlock = none → Completes i s fun t =>
      running s.dev t.dev 1 ∧ t.dev.sec.fed = true ∧
      SameQueue s t ∧ SameMemBut s t (s.dev.r SECURE_OPDST) 256 ∧
      t.mem.readN 4 (s.dev.r SECURE_OPDST) = 0x414B564B))) ∧
  (let ended := fun (t : Dev) => t.sec.op = 0 ∧ t.b SECURE_STAT_BUSY = false
   let done := fun (t : Dev) => ended t ∧ t.f SECURE_OPSTAT_STATE = 2 ∧ t.b SECURE_FLAGS_OP_DONE = true
   let failed := fun (t : Dev) (why : Nat) => ended t ∧ t.f SECURE_OPSTAT_STATE = 4 ∧ t.f SECURE_OPSTAT_REASON = why ∧
     t.b SECURE_FLAGS_OP_BAD = true
   let still := fun s : State => Powered s ∧ (∀ k, (s.dev.core k).aw = false) ∧ s.dev.flash.op = 0
   let fed := fun s : State => still s ∧ s.dev.sec.fed = true
   (∀ why, NoEffect (.secureOpEnd why) (fun s => ¬ runs s ∨ s.secWaits = true)) ∧
   (∀ why s, still s → 1 ≤ s.dev.sec.op → s.dev.sec.op ≤ 9 → Completes (.secureOpEnd why) s fun t =>
     ended t.dev ∧ SameQueue s t ∧ (t.dev.f SECURE_OPSTAT_STATE = 2 ∨ t.dev.f SECURE_OPSTAT_STATE = 4)) ∧
   (∀ s, fed s → 6 ≤ s.dev.sec.op → s.dev.sec.op = 8 ∨ s.fuseSteps s.dev.sec.op ≠ [] →
     Completes (.secureOpEnd 1) s fun t => failed t.dev 0x15) ∧
   (∀ s, fed s → s.dev.sec.op = 5 ∨ s.dev.sec.op = 8 → Completes (.secureOpEnd 2) s fun t =>
     failed t.dev 0x16 ∧ t.dev.b SECURE_STAT_ENTROPY_OK = false ∧ t.mem = s.mem) ∧
   Acts (.secureOpEnd 0) (fun s => fed s ∧ s.dev.sec.op = 1) (fun _ t => done t) ∧
   (∀ s, fed s → s.dev.sec.op = 5 → Completes (.secureOpEnd 0) s fun t => done t.dev ∧ SameQueue s t ∧
     t.dev.f SECURE_OPSTAT_PARTIALS = 2 ∧ SameMemBut s t (s.dev.sec.dst + 256) 1280 ∧
     t.mem.read (s.dev.sec.dst + 256) = 0x3A) ∧
   (∀ s, fed s → s.dev.sec.op = 2 → Completes (.secureOpEnd 0) s fun t => done t.dev ∧ SameMem s t ∧
     t.dev.key 7 = kdf (s.dev.key (s.dev.sec.arg % 16)) (s.mem.bytes s.dev.sec.len s.dev.sec.src) []) ∧
   (∀ s, still s → s.dev.sec.op = 6 → Completes (.secureOpEnd 0) s fun t => done t.dev ∧
     t.dev.r SECURE_MINVER = t.mem.minver ∧ Arrives s.dev t.dev 1 0x207 0xFF [s.mem.minver, t.mem.minver]) ∧
   (∀ s, still s → s.dev.sec.op = 8 → inSram s.dev.sec.dst 1793 = true → Completes (.secureOpEnd 0) s fun t => done t.dev ∧
     t.mem.groupOn 0 = true ∧ t.mem.read s.dev.sec.dst = 0x0A ∧ Arrives s.dev t.dev 0 0x208 0xFF [0, 1]) ∧
   (∀ s, Powered s → runs s → Completes .secureOpAbort s fun t => ended t.dev ∧ t.dev.f SECURE_OPSTAT_STATE = 3 ∧
     t.dev.f SECURE_OPSTAT_REASON = 0x13 ∧ (s.dev.sec.op < 6 ∨ s.dev.sec.fed = false → SameMem s t)) ∧
   ActsOn .secureOpAbort (fun s => ¬ runs s ∧ s.dev.f SECURE_OPSTAT_STATE = 2) [SECURE_OPSTAT.addr 0]
     (fun _ t => t.b SECURE_OPSTAT_ABORT_LATE = true) ∧
   ActsOn .secureOpAbort (fun s => ¬ runs s ∧ s.dev.f SECURE_OPSTAT_STATE ≠ 2) [] (fun _ _ => True)) ∧
  (∀ (k : Byte) (pk sig : List Byte),
    let i := Instr.debugUnlock k pk sig
    let asked := fun s : State => s.dev.f SECURE_STAT_LC = 2 ∧ s.dev.f SECURE_STAT_DBG = 0 ∧ s.dev.sec.tries < 3
    let good := fun s : State => s.unlockOk k.toNat (pk.map BitVec.toNat) (sig.map BitVec.toNat) = true
    NoEffect i (fun s => ¬ asked s) ∧
    Acts i (fun s => asked s ∧ good s) (fun d t => t.f SECURE_STAT_DBG = 2 ∧ t.sec.openAuth = true ∧
      t.b SECURE_STAT_SEAL_A = false ∧ t.b SECURE_STAT_SEAL_B = false ∧ t.b SECURE_STAT_VERIFIED_A = false ∧
      t.b SECURE_STAT_VERIFIED_B = false ∧ t.b SECURE_FLAGS_DEBUG_OPEN = true ∧ t.sec.tries = d.sec.tries ∧
      Arrives d t 1 0x205 0xFF [k.toNat]) ∧
    Acts i (fun s => asked s ∧ ¬ good s) (fun d t => t.f SECURE_STAT_DBG = 0 ∧ t.sec.tries = d.sec.tries + 1 ∧
      t.f SECURE_STAT_DBG_TRIES = d.sec.tries + 1 ∧ t.b SECURE_FLAGS_DEBUG_DENIED = true ∧
      Arrives d t 1 0x206 0xFF [d.sec.tries + 1])) ∧
  (∀ levels : BitVec 112, Acts (.jtagPinDrive levels) (fun _ => True) fun d t => SameRegs d t ∧
    (d.anyEnabled = true → t.sec.jtagDrive = none) ∧
    (d.anyEnabled = false → t.sec.jtagDrive = some levels.toNat ∧ ∀ (b : Ball) (vddio : Bool), t.ballLevel vddio b =
      if b.output = false then .z else if levels.getLsbD b.cell = false then .low
      else if b.openDrain = true then .z else .high)) ∧
  (∀ source : Fin 4,
    let watched := fun s : State => (source.val = 1 → FabricRuns s) ∧ (source.val ≠ 2 → s.dev.sec.boots ≠ 0)
    NoEffect (.tamper source) (fun s => ¬ watched s) ∧ EntersSafe (.tamper source) watched 0xD ∧
    ∀ s, Powered s → watched s → Completes (.tamper source) s fun t => SameQueue s t ∧ t.dev.modeNow = modeSafe ∧
      (∀ k < 8, t.dev.key k = if k < 2 then s.dev.key k else []) ∧ (∀ j < 16, t.dev.r SECURE_RES j = 0) ∧
      t.dev.f SECURE_TAMPER_SOURCE = s.dev.f SECURE_TAMPER_SOURCE ||| 2 ^ source.val ∧
      t.dev.b SECURE_FLAGS_TAMPER = true ∧ t.dev.sec.tampers = s.dev.sec.tampers + 1 ∧ t.dev.sec.op = 0)

/-! ### RAM, flash and DMA (R434-R464) -/

/-- R434, R435, R437, R440, R441, R443 to R445, R447: the scrubber reads one word, STEP cycles after the one before, and
corrects it or reports it; a flash command is refused with the lowest code that holds, an accepted one runs in the
foreground, SUSPEND and RESUME move the erase out of it and back, no sooner than 1,000 µs after it restarted, with the
pulses of 100 µs that it has completed, ABORT ends it; its end programs the page, erases the block, checks the block or
reads the page, or fails with the reason. SAFE locks FLASHC_CMD. That a failed PROGRAM leaves a weak page is the model's
choice (log entry 34), as is when an erase record counts as incomplete (log entry 76); the order of the refusals and of the
failing checks is its reading (log entry 35). -/
def Obligations.RamAndFlashCommands : Prop :=
  (let on := fun s : State => s.dev.b FLASHC_XSCRUB_EN = true ∧
     s.dev.flash.scrubAt + max 16 (s.dev.f FLASHC_XSCRUB_STEP) ≤ s.dev.cpu.cyc
   let key := fun d : Dev => scrubKey (d.flash.scrub % 147456)
   let moved := fun d t : Dev => t.flash.scrub = (d.flash.scrub + 1) % 147456 ∧
     t.flash.scrubAt = d.cpu.cyc ∧ t.f FLASHC_SCRUB_PASSES =
       (d.f FLASHC_SCRUB_PASSES + if d.flash.scrub % 147456 = 147455 then 1 else 0) % 2 ^ 16
   NoEffect .ramScrubStep (fun s => ¬ on s) ∧
   Acts .ramScrubStep (fun s => on s ∧ WordClean s (key s.dev)) (fun d t => moved d t ∧
     OnlyRegs [FLASHC_SCRUB.addr 0] d t ∧ t.flash.ce = d.flash.ce ∧ t.flash.ue = d.flash.ue) ∧
   Acts .ramScrubStep (fun s => on s ∧ key s.dev ∈ s.dev.flash.ce ∧ key s.dev ∉ s.dev.flash.ue) (fun d t => moved d t ∧
     t.b FLASHC_FLAGS_CE = true ∧ key d ∉ t.flash.ce ∧ t.r FLASHC_ECCCE = key d ∧
     t.f FLASHC_ECCSTAT_CE = min (d.f FLASHC_ECCSTAT_CE + 1) 65535) ∧
   Acts .ramScrubStep (fun s => on s ∧ key s.dev ∈ s.dev.flash.ue) (fun d t => moved d t ∧ t.b FLASHC_FLAGS_UE = true ∧
     t.r FLASHC_ECCUE = key d ∧ t.f FLASHC_ECCSTAT_UE = min (d.f FLASHC_ECCSTAT_UE + 1) 255)) ∧
  (∀ (key : Half) (lvl : Fin 4),
    let cmds : List (Instr × Nat × Nat) := [(.flashProgram key, 1, 0), (.flashErase key, 2, 0), (.flashSuspend key, 3, 0),
      (.flashResume key, 4, 0), (.flashBcheck key, 5, 0), (.flashMread key lvl, 6, lvl.val), (.flashAbort key, 7, 0)]
    let rejects := fun (i : Instr) (pre : State → Prop) (code : Nat) =>
      ActsOn i (fun s => Unlocked s ∧ pre s) [FLASHC_FLAGS.addr 0, FLASHC_REJ.addr 0] fun d t =>
        t.b FLASHC_FLAGS_CMD_REJ = true ∧ t.f FLASHC_REJ_CODE = code ∧
        t.f FLASHC_REJ_COUNT = (d.f FLASHC_REJ_COUNT + 1) % 256
    let onPage := fun (s : State) (n : Nat) => Unlocked s ∧ s.dev.flash.op = 0 ∧ 0x08000000 ≤ s.dev.r FLASHC_ADDR ∧
      s.dev.r FLASHC_ADDR < 0x08400000 ∧ s.dev.r FLASHC_ADDR % n = 0 ∧ s.dev.suspBlock = none
    let taken := fun (d t : Dev) (op : Nat) => t.flash.op = op ∧ t.flash.addr = d.r FLASHC_ADDR ∧
      t.f FLASHC_OPSTAT_STATE = 1 ∧ t.f FLASHC_OPSTAT_PROGRESS = 0 ∧ t.b FLASHC_STAT_BUSY = true ∧
      t.f FLASHC_STAT_BANK = flashBank (d.r FLASHC_ADDR) ∧ t.f FLASHC_OPINFO_OP = op
    (∀ x ∈ cmds, ActsOn x.1 (fun s => s.dev.modeNow = modeSafe) [] (fun _ t => t.bus.err = 7) ∧
      (key.toNat ≠ 0xF1A5 → rejects x.1 (fun _ => True) 1) ∧
      ∀ code, code ≠ 0 → rejects x.1 (fun s => s.dev.flashWhy x.2.1 x.2.2 key.toNat = code) code) ∧
    (key.toNat = 0xF1A5 →
      (∀ x ∈ cmds, x.2.1 ∈ [1, 2, 5, 6] → rejects x.1 (fun s => s.dev.flash.op ≠ 0) 2) ∧
      Acts (.flashProgram key) (fun s => onPage s 0x100) (fun d t => taken d t 1 ∧
        (∀ j < 64, t.flash.buf.getD j 0 = d.r FLASHC_PBUF j) ∧
        (if d.r FLASHC_ADDR < 0x08200000 then t.b SECURE_STAT_VERIFIED_A = false ∧ t.b SECURE_STAT_SEAL_A = false
          else t.b SECURE_STAT_VERIFIED_B = false ∧ t.b SECURE_STAT_SEAL_B = false)) ∧
      (∀ s, Powered s → onPage s 0x2000 → Completes (.flashErase key) s fun t => taken s.dev t.dev 2 ∧ SameQueue s t ∧
        SameMemBut s t (s.dev.r FLASHC_ADDR) 0x2000 ∧ flashBlock (s.dev.r FLASHC_ADDR) ∈ t.dev.flash.incomplete ∧
        ∀ k, flashBlock k ≠ flashBlock (s.dev.r FLASHC_ADDR) → (k ∈ t.dev.flash.fue ↔ k ∈ s.dev.flash.fue) ∧
          (k ∈ t.dev.flash.fce ↔ k ∈ s.dev.flash.fce)) ∧
      Acts (.flashBcheck key) (fun s => onPage s 0x2000) (fun d t => taken d t 5) ∧
      (lvl ≠ 3 → Acts (.flashMread key lvl) (fun s => onPage s 0x100) fun d t => taken d t 6 ∧ t.flash.lvl = lvl) ∧
      Acts (.flashSuspend key) (fun s => Unlocked s ∧ s.dev.flash.op = 2) (fun d t => OnlyRegs [FLASHC_STAT.addr 0] d t ∧
        t.flash.suspReq = true ∧ t.b FLASHC_STAT_SUSP_WAIT = d.flash.fresh.any fun x => decide (d.now < x + 400000)) ∧
      (∀ b, Acts (.flashResume key) (fun s => Unlocked s ∧ s.dev.flash.op = 0 ∧ s.dev.suspBlock = some b) fun _ t =>
        t.flash.op = 2 ∧ t.flash.addr = blockAddr b ∧ t.b FLASHC_SUSP_ACTIVE = false ∧ t.b FLASHC_STAT_BUSY = true ∧
        t.b FLASHC_STAT_SUSPENDED = false ∧ t.f FLASHC_OPSTAT_STATE = 1) ∧
      Acts (.flashAbort key) (fun s => Unlocked s ∧ s.dev.flash.op ≠ 0 ∧ s.dev.flash.op ≠ 1) (fun _ t =>
        t.flash.op = 0 ∧ t.f FLASHC_OPSTAT_STATE = 3 ∧ t.f FLASHC_OPSTAT_REASON = 1 ∧ t.b FLASHC_STAT_BUSY = false ∧
        t.b FLASHC_FLAGS_CMD_FAIL = true) ∧
      rejects (.flashAbort key) (fun s => s.dev.flash.op = 1) 7 ∧
      ActsOn (.flashAbort key) (fun s => Unlocked s ∧ s.dev.flash.op = 0 ∧ s.dev.suspBlock = none ∧
        s.dev.f FLASHC_OPSTAT_STATE = 2) [FLASHC_OPSTAT.addr 0] fun _ t => t.b FLASHC_OPSTAT_ABORT_LATE = true)) ∧
  (let inFlash := fun s : State => 0x08000000 ≤ s.dev.flash.addr ∧ s.dev.flash.addr < 0x08400000
   let due := fun s : State => s.dev.flash.op = 2 ∧ s.dev.flash.suspReq = true ∧
     ∀ x, s.dev.flash.fresh = some x → x + 400000 ≤ s.dev.now
   NoEffect .eraseSuspended (fun s => ¬ due s) ∧
   Acts .eraseSuspended (fun s => due s ∧ inFlash s) (fun d t => t.flash.op = 0 ∧
     t.suspBlock = some (flashBlock d.flash.addr) ∧ t.b FLASHC_STAT_SUSPENDED = true ∧ t.b FLASHC_STAT_BUSY = false ∧
     t.b FLASHC_FLAGS_SUSP_ON = true ∧
     let ran := d.now - d.flash.at_ - if d.flash.fresh = none then 8000 else 0
     let pulses := min 250 (d.flash.done + ran / 40000)
     t.f FLASHC_SUSP_PULSES = pulses ∧ t.f FLASHC_OPSTAT_PROGRESS = pulses) ∧
   ∀ (ok : Bool) (pulses : Byte),
    let i := Instr.flashCommandEnd ok pulses
    let runs := fun (s : State) (op : Nat) => Powered s ∧ inFlash s ∧ s.dev.flash.op = op
    let done := fun t : Dev => t.flash.op = 0 ∧ t.b FLASHC_STAT_BUSY = false ∧ t.f FLASHC_OPSTAT_STATE = 2 ∧
      t.b FLASHC_FLAGS_CMD_DONE = true
    let failed := fun (t : Dev) (why : Nat) => t.flash.op = 0 ∧ t.b FLASHC_STAT_BUSY = false ∧
      t.f FLASHC_OPSTAT_STATE = 4 ∧ t.f FLASHC_OPSTAT_REASON = why ∧ t.b FLASHC_FLAGS_CMD_FAIL = true
    let half := fun s : State => flashBlock s.dev.flash.addr ∈ s.dev.flash.incomplete
    let blank := fun s : State => s.dev.pageBlank s.mem (flashPage s.dev.flash.addr) = true
    NoEffect i (fun s => s.dev.flash.op ∉ [1, 2, 5, 6]) ∧
    (∀ s, runs s 1 → half s → Completes i s fun t => failed t.dev 3 ∧ t.mem = s.mem) ∧
    (∀ s, runs s 1 → ¬ half s → ¬ blank s → Completes i s fun t => failed t.dev 2 ∧ t.mem = s.mem) ∧
    (∀ s, runs s 1 → ¬ half s → blank s → Completes i s fun t => SameMemBut s t s.dev.flash.addr 256 ∧
      (ok = true → done t.dev ∧ ∀ k < 256, t.mem.read (s.dev.flash.addr + k) =
        s.dev.flash.buf.getD (k / 4) 0 / 2 ^ (8 * (k % 4)) % 256) ∧
      (ok = false → failed t.dev 4 ∧ flashPage s.dev.flash.addr ∈ t.dev.flash.weak)) ∧
    (∀ s, runs s 2 →
      let a := blockAddr (flashBlock s.dev.flash.addr)
      Completes i s fun t => SameMemBut s t a 0x2000 ∧
        (ok = true → done t.dev ∧ (∀ k < 0x2000, t.mem.read (a + k) = 0xFF) ∧
          flashBlock s.dev.flash.addr ∉ t.dev.flash.incomplete) ∧
        (ok = false → failed t.dev 5 ∧ t.mem = s.mem)) ∧
    (∀ s, runs s 5 → Completes i s fun t => t.mem = s.mem ∧ (ok = false → failed t.dev 0xE) ∧
      (ok = true → done t.dev ∧ t.dev.f FLASHC_BRES_BLOCK = flashBlock s.dev.flash.addr ∧
        (half s → t.dev.f FLASHC_BRES_BSTATE = 3) ∧
        ∀ p < 32, (t.dev.r FLASHC_BBLANK).testBit p = s.dev.pageBlank s.mem (32 * flashBlock s.dev.flash.addr + p))) ∧
    ∀ s, runs s 6 → Completes i s fun t => t.mem = s.mem ∧ (ok = false → failed t.dev 0xE) ∧
      (ok = true → done t.dev ∧ t.dev.flash.fillAt = some s.dev.now ∧ (s.dev.flash.lvl = 0 →
        (∀ k ∈ s.dev.flash.fce ++ s.dev.flash.fue, flashPage k ≠ flashPage s.dev.flash.addr) →
        ∀ j < 64, t.dev.r FLASHC_PBUF j = s.mem.readN 4 (s.dev.flash.addr + 4 * j))))

/-- R459, R460, R463, R464 and R469: START begins a chain where the channel is IDLE, with DESCS as it was, and is rejected
elsewhere; a descriptor of one word of SRAM, the last of its chain, moves it, writes its STATUS and ends the chain, or waits
for its trigger; one of three words with a BURST of 8 bytes keeps the controller for two of them; while a ready channel of
higher PRIO, or of equal PRIO and earlier in the rotation, waits nothing happens; ABORT ends a channel that runs, with the
bytes moved in STATUS. What a command moves, and where the rotation begins, is the model's choice (log entry 27), and so is
what ABORT does to a channel in ERROR (log entry 76). -/
def Obligations.DmaCommands : Prop :=
  ∀ n : Fin 16,
    let st := fun s : State => s.dev.f CHn_STAT_STATE n
    let sram := fun (a k : Nat) => 0x20000000 ≤ a ∧ a + k ≤ 0x20080000 ∧ a % 4 = 0
    let clear := fun s : State => Calm s ∧ s.dev.flash.ue = [] ∧ s.dev.flash.ce = [] ∧ ∀ b, s.dev.bankHeld .dma b = false
    let served := fun (s : State) (j : Nat) => (s.dev.dma.getD j {}).last = true ∧ ∀ i < j, (s.dev.dma.getD i {}).last = false
    let sooner := fun (s : State) (k : Nat) => (∃ j < 16, served s j ∧ (k + 15 - j) % 16 < (n.val + 15 - j) % 16) ∨
      (∀ j < 16, (s.dev.dma.getD j {}).last = false) ∧ k < n.val
    let ready := fun (s : State) (k : Nat) => s.dev.f CHn_STAT_STATE k = 1 ∨ s.dev.f CHn_STAT_STATE k = 3 ∨
      s.dev.f CHn_STAT_STATE k = 2 ∧ s.dev.eventRaised (bits ((s.dev.dma.getD k {}).desc.getD 3 0) 9 7) = true
    let behind := fun s : State => ∃ k < 16, k ≠ n.val ∧ ready s k ∧
      (s.dev.b CHn_CTRL_PRIO n = false ∧ s.dev.b CHn_CTRL_PRIO k = true ∨
        s.dev.b CHn_CTRL_PRIO n = s.dev.b CHn_CTRL_PRIO k ∧ sooner s k)
    let open_ := fun s : State => clear s ∧ ¬ behind s
    ActsOn (.dmaStart n) (fun s => st s ≠ 0) [CHn_FLAGS.addr n] (fun _ t => t.b CHn_FLAGS_START_REJ n = true) ∧
    Acts (.dmaStart n) (fun s => st s = 0) (fun d t => OnlyRegs [CHn_STAT.addr n, CHn_CUR.addr n, DMA_STAT.addr 0] d t ∧
      t.f CHn_STAT_STATE n = 1 ∧ t.f CHn_STAT_DESCS n = d.f CHn_STAT_DESCS n ∧ t.r CHn_CUR n = d.r CHn_DESC n ∧
      (t.r DMA_STAT).testBit n = true) ∧
    NoEffect (.dmaDescriptor n) (fun s => st s ∉ [1, 2, 3, 4] ∨ behind s) ∧
    (∀ (s : State) (src dst ctl : Nat), Powered s → open_ s → st s = 1 →
      let a := s.dev.r CHn_CUR n
      sram a 32 → sram src 4 → sram dst 4 → s.mem.readN 4 a = src → s.mem.readN 4 (a + 4) = dst →
      s.mem.readN 4 (a + 8) % 2 ^ 24 = 4 → s.mem.readN 4 (a + 12) = ctl →
      (ctl = 0x80 → Completes (.dmaDescriptor n) s fun t => SameQueue s t ∧ t.dev.f CHn_STAT_STATE n = 0 ∧
        t.dev.b CHn_FLAGS_END n = true ∧ (t.dev.r DMA_STAT).testBit n = false ∧
        t.dev.f CHn_STAT_DESCS n = (s.dev.f CHn_STAT_DESCS n + 1) % 2 ^ 16 ∧
        t.mem.readN 4 (a + 0x18) = 4 + 2 ^ 31 ∧ (dst ≠ a + 0x18 → t.mem.readN 4 dst = s.mem.readN 4 src) ∧
        ∀ x, (x < dst ∨ dst + 4 ≤ x) → (x < a + 0x18 ∨ a + 0x1C ≤ x) → t.mem.read x = s.mem.read x) ∧
      (∀ ev < 128, ctl = 0x80 + 2 ^ 16 + 2 ^ 9 * ev → s.dev.eventRaised ev = false →
        Completes (.dmaDescriptor n) s fun t => SameQueue s t ∧ SameMem s t ∧ OnlyRegs [CHn_STAT.addr n] s.dev t.dev ∧
          t.dev.f CHn_STAT_STATE n = 2)) ∧
    (∀ (s : State) (src dst : Nat), Powered s → open_ s → st s = 1 → s.dev.f DMA_XARB_BURST ≤ 8 →
      let a := s.dev.r CHn_CUR n
      sram a 32 → sram src 12 → sram dst 12 → src + 12 ≤ dst ∨ dst + 12 ≤ src → s.mem.readN 4 a = src →
      s.mem.readN 4 (a + 4) = dst → s.mem.readN 4 (a + 8) % 2 ^ 24 = 12 → s.mem.readN 4 (a + 12) = 0x80 →
      Completes (.dmaDescriptor n) s fun t => SameQueue s t ∧ OnlyRegs [CHn_STAT.addr n] s.dev t.dev ∧
        t.dev.f CHn_STAT_STATE n = 3 ∧ (t.dev.dma.getD n {}).move.moved.length = 8 ∧
        (t.dev.dma.getD n {}).last = true ∧ (∀ k < 8, t.mem.read (dst + k) = s.mem.read (src + k)) ∧ SameMemBut s t dst 8) ∧
    ActsOn (.dmaAbort n) (fun s => st s = 0) [CHn_STAT.addr n] (fun _ t => t.b CHn_STAT_ABORT_LATE n = true) ∧
    ActsOn (.dmaAbort n) (fun s => st s = 5) [CHn_STAT.addr n, CHn_FLAGS.addr n, DMA_STAT.addr 0] (fun _ t =>
      t.f CHn_STAT_STATE n = 0 ∧ t.b CHn_FLAGS_ABORTED n = true ∧ (t.r DMA_STAT).testBit n = false) ∧
    (∀ s, Powered s → clear s → 1 ≤ st s → st s ≤ 4 → sram (s.dev.r CHn_CUR n) 32 →
      (s.dev.dma.getD n {}).move.moved.length < 2 ^ 24 → Completes (.dmaAbort n) s fun t =>
      t.mem.readN 4 (s.dev.r CHn_CUR n + 0x18) = 2 ^ 29 + (s.dev.dma.getD n {}).move.moved.length ∧ SameMemBut s t (s.dev.r CHn_CUR n + 0x18) 4 ∧ SameQueue s t ∧
      t.dev.f CHn_STAT_STATE n = 0 ∧ t.dev.b CHn_FLAGS_ABORTED n = true)

/-! ### Stitch engines (R470-R485) -/

/-- R473, R477 to R480, R482 and R485: on an engine that fetches the instruction, while the fabric has its clock, a tick
that the divider places in this cycle runs each to its end, and the next tick is CLKDIV cycles later: the engine is RUNNING
with CUR the word and PC at the next one, or where the instruction sends it, IN holds the samples of its group (of a pin
that the engine has driven long enough its own level, of the others the row's), and the counters, the shift registers, the
pins, the handshake flags and the sticky flags are as the instruction says; a wait whose condition does not hold is WAITING,
a shift or a transfer whose register is not ready is STALLED; of a set and a clear of one flag in one cycle the set wins;
what POST and RELAY hand over reaches Hawkmoth two cycles later, as an observation and as a relayed frame, but not in SAFE
(R34). An edge is one from the sample of the tick before, and an engine's first tick completes on no level alone. When an
own level counts as seen, that first tick, and that the row's samples are those of the tick are the model's choices (log
entries 51 and 77). Registers of nothing else change. An engine that does not run, and one without a tick in this cycle,
does nothing. -/
def Obligations.StitchInstructionsRun : Prop :=
  ∀ e : Fin 8,
    let len := fun d : Dev => max 1 (d.r STITCHe_CLKDIV e)
    let due := fun d : Dev => (d.eng e).tickAt ≤ d.now ∧ (d.now - (d.eng e).tickAt) % len d = 0
    let fetches := fun (w : Nat) (s : State) =>
      FabricRuns s ∧ due s.dev ∧ 2 ≤ s.dev.engState e ∧ s.dev.engState e ≠ 5 ∧ (s.dev.eng e).inj = none ∧
      (s.dev.eng e).busy = false ∧
      s.dev.b STITCHe_STAT_INJ_RUN e = false ∧ s.dev.r2 STITCHe_IMEMw e (s.dev.f STITCHe_STAT_PC e) = w
    let seen := fun (d : Dev) (x : BitVec 8) => ((List.range (min 8 (d.f STITCHe_GROUP_PINCOUNT e))).map fun p =>
      let (v, w) := (drivenAt d.now 5 (d.eng e).hist, drivenAt d.now 4 (d.eng e).hist)
      let own := v.2.testBit p && w.2.testBit p && v.1.testBit p == w.1.testBit p
      if (if own then v.1.testBit p else x.getLsbD p) then 2 ^ p else 0).sum
    let own := [STITCHe_CUR.addr e, STITCHe_STAT.addr e, STITCHe_CNT.addr e, STITCHe_PINS.addr e]
    let next := fun d : Dev => (d.f STITCHe_STAT_PC e + 1) % 32
    let word := fun (op f : Nat) => op * 2 ^ 11 + f
    -- one tick of word `w` from a state of which `pre` holds, the engine then in state `st`
    let tick := fun (i : List (BitVec 8) → Instr) (w : Nat) (pre : Dev → Nat → Prop) (st : Nat) (more : List Nat)
        (post : Dev → Dev → Nat → Prop) =>
      (∀ ins, NoEffect (i ins) fun s => s.dev.engState e < 2 ∨ ¬ FabricRuns s ∨ ¬ due s.dev) ∧
      ∀ x : BitVec 8, Acts (i [x]) (fun s => fetches w s ∧ pre s.dev (seen s.dev x)) fun d t =>
        OnlyRegs (own ++ more) d t ∧ t.engState e = st ∧ t.f STITCHe_CUR_WORD e = w ∧
        t.f STITCHe_CUR_ADDR e = d.f STITCHe_STAT_PC e ∧ t.f STITCHe_PINS_IN e = seen d x ∧
        (t.eng e).busy = decide (st = 3 ∨ st = 4) ∧ (t.eng e).tickAt = d.now + len d ∧ post d t (seen d x)
    let any := fun (_ : Dev) (_ : Nat) => True
    let runs := fun (i : List (BitVec 8) → Instr) (w : Nat) (pre : Dev → Nat → Prop) (more : List Nat)
        (post : Dev → Dev → Nat → Prop) =>
      tick i w pre 2 more fun d t x => t.f STITCHe_STAT_PC e = next d ∧ post d t x
    let stays := fun (i : List (BitVec 8) → Instr) (w : Nat) (pre : Dev → Nat → Prop) =>
      tick i w pre 3 [] fun d t _ => t.f STITCHe_STAT_PC e = next d
    let stalls := fun (i : List (BitVec 8) → Instr) (w : Nat) (pre : Dev → Nat → Prop) =>
      tick i w pre 4 [STITCHe_FLAGS.addr e] fun d t _ => t.f STITCHe_STAT_PC e = next d ∧ t.b STITCHe_FLAGS_STALL e = true
    let ctr := fun (d : Dev) (c : Nat) => if c = 0 then d.f STITCHe_CTR_C0 e else d.f STITCHe_CTR_C1 e
    let full := fun (x : Fld) (v : Bool) (d : Dev) (_ : Nat) => d.b x e = v
    let keepsOut := fun d t : Dev => t.f STITCHe_PINS_LATCH e = d.f STITCHe_PINS_LATCH e ∧
      t.f STITCHe_PINS_DIRS e = d.f STITCHe_PINS_DIRS e
    let flags := fun (t : Dev) (v : Nat) => (t.eng e).fl = v ∧ t.r STITCHe_HSSET e = v ∧ t.r STITCHe_HSCLR e = v
    let hs := [STITCHe_HSSET.addr e, STITCHe_HSCLR.addr e]
    let cleared := fun (d : Dev) (m : Nat) =>
      ((d.eng e).fl &&& (15 - m ||| if (d.eng e).setAt = d.now then (d.eng e).setFl else 0)) % 16
    let handed := fun (d t : Dev) (frame : Bool) (v : Nat) => t.hm.handed = d.hm.handed ++ [⟨(d.r HM_TIME + 2) % 2 ^ 32, e, frame, v⟩]
    (∀ (cond arg : Fin 8) (target : Fin 32),
      (cond.val = 3 ∨ cond.val = 4 ∨ cond.val = 7 ∧ arg.val < 4 ∨ cond.val ≠ 7 ∧ arg.val = 0) →
      let holds := fun (d : Dev) (x : Nat) =>
        if cond = 0 then true else if cond = 1 then ctr d 0 != 0 else if cond = 2 then ctr d 1 != 0
        else if cond = 3 then x.testBit arg else if cond = 4 then !x.testBit arg
        else if cond = 5 then !d.b STITCHe_STAT_OFULL e else if cond = 6 then d.b STITCHe_STAT_IFULL e
        else (d.eng e).fl.testBit arg
      tick (.bra e cond arg target) (word 0 (cond * 2 ^ 8 + arg * 2 ^ 5 + target)) any 2 [] fun d t x =>
        t.f STITCHe_STAT_PC e = (if holds d x then target.val else next d) ∧ keepsOut d t) ∧
    (∀ (c : Fin 2) (target : Fin 32),
      tick (.dbnz e c target) (word 1 (c * 2 ^ 10 + target)) any 2 [STITCHe_CTR.addr e] fun d t _ =>
        ctr t c = ctr d c - 1 ∧ ctr t (1 - c) = ctr d (1 - c) ∧
        t.f STITCHe_STAT_PC e = if 1 < ctr d c then target.val else next d) ∧
    (∀ (pol : Bool) (p : Fin 8),
      let level := fun (x : Nat) => x.testBit p = pol
      runs (.waitl e pol p) (word 2 (pol.toNat * 2 ^ 10 + p * 2 ^ 7)) (fun _ x => level x) [] (fun d t _ => keepsOut d t) ∧
      stays (.waitl e pol p) (word 2 (pol.toNat * 2 ^ 10 + p * 2 ^ 7)) (fun _ x => ¬ level x) ∧
      (let before := fun d : Dev => (d.eng e).tickAt = d.now ∧ (d.eng e).seen = 1
       let first := fun d : Dev => (d.eng e).tickAt = d.now ∧ (d.eng e).seen = 0
       runs (.waite e pol p) (word 3 (pol.toNat * 2 ^ 10 + p * 2 ^ 7))
         (fun d x => before d ∧ level x ∧ ¬ level (d.f STITCHe_PINS_IN e)) [] (fun d t _ => keepsOut d t) ∧
       stays (.waite e pol p) (word 3 (pol.toNat * 2 ^ 10 + p * 2 ^ 7)) fun d x =>
         ¬ level x ∨ first d ∨ before d ∧ level (d.f STITCHe_PINS_IN e))) ∧
    (∀ (pol clr : Bool) (k : Fin 4),
      let w := word 4 (pol.toNat * 2 ^ 10 + k * 2 ^ 8 + clr.toNat * 2 ^ 7)
      let level := fun (d : Dev) (_ : Nat) => (d.eng e).fl.testBit k = pol
      runs (.waitf e pol k clr) w level hs (fun d t _ =>
        (pol = true ∧ clr = true → flags t (cleared d (2 ^ k.val))) ∧
        (pol = false ∨ clr = false → (t.eng e).fl = (d.eng e).fl)) ∧
      stays (.waitf e pol k clr) w fun d x => ¬ level d x) ∧
    (∀ n : Fin 2048,
      (n.val = 0 → runs (.waitt e n) (word 5 n) any [] fun d t _ => keepsOut d t) ∧
      (n.val ≠ 0 → tick (.waitt e n) (word 5 n) any 3 [] fun d t _ => t.f STITCHe_STAT_PC e = next d ∧
        (t.eng e).left = n)) ∧
    (let width := fun d : Dev => 2 ^ (d.f STITCHe_SHCFG_FIELDS e / 8 % 4)
     runs (.sho e 0 1) (word 6 (2 ^ 4)) (full STITCHe_STAT_OFULL true) [STITCHe_SOUT.addr e, STITCHe_FLAGS.addr e]
       (fun d t _ =>
         t.r STITCHe_SOUT e = (if d.b STITCHe_SHCFG_ORDER e then d.r STITCHe_SOUT e / 2 ^ width d
           else d.r STITCHe_SOUT e * 2 ^ width d % 2 ^ 32) ∧
         t.f STITCHe_CNT_OCNT e = d.f STITCHe_CNT_OCNT e - width d ∧
         (t.f STITCHe_CNT_OCNT e = 0 → t.b STITCHe_STAT_OFULL e = false ∧ t.b STITCHe_FLAGS_OEMPTY e = true)) ∧
     stalls (.sho e 0 1) (word 6 (2 ^ 4)) (full STITCHe_STAT_OFULL false) ∧
     runs (.stitchShi e 0 1) (word 7 (2 ^ 4)) (full STITCHe_STAT_IFULL false) [STITCHe_SIN.addr e, STITCHe_FLAGS.addr e]
       (fun d t x =>
         let b := x / 2 ^ (d.f STITCHe_SHCFG_FIELDS e / 32 % 8) % 2 ^ width d
         t.r STITCHe_SIN e = (if d.b STITCHe_SHCFG_ORDER e then d.r STITCHe_SIN e / 2 ^ width d + b * 2 ^ (32 - width d)
           else d.r STITCHe_SIN e * 2 ^ width d % 2 ^ 32 + b) ∧
         t.f STITCHe_CNT_ICNT e = min 32 (d.f STITCHe_CNT_ICNT e + width d) ∧
         (t.f STITCHe_CNT_ICNT e = 32 → t.b STITCHe_STAT_IFULL e = true ∧ t.b STITCHe_FLAGS_IFULL e = true)) ∧
     stalls (.stitchShi e 0 1) (word 7 (2 ^ 4)) (full STITCHe_STAT_IFULL true)) ∧
    (∀ (p : Fin 8) (act : Fin 4), runs (.pin e p act) (word 8 (p * 2 ^ 8 + act * 2 ^ 6)) any [] fun d t _ =>
      ∀ q : Nat, q < 8 →
        let mine := q = p.val ∧ p.val < d.f STITCHe_GROUP_PINCOUNT e
        let latch := (d.f STITCHe_PINS_LATCH e).testBit q
        (t.f STITCHe_PINS_LATCH e).testBit q = (if mine then (if act = 0 then false else if act = 1 then true
          else if act = 2 then !latch else latch) else latch) ∧
        (t.f STITCHe_PINS_DIRS e).testBit q = (if mine ∧ act ≠ 2 then decide (act ≠ 3)
          else (d.f STITCHe_PINS_DIRS e).testBit q)) ∧
    (∀ v : BitVec 8,
      runs (.pset e true v) (word 9 (2 ^ 10 + v.toNat)) any [] (fun d t _ => t.f STITCHe_PINS_DIRS e = v.toNat ∧
        t.f STITCHe_PINS_LATCH e = d.f STITCHe_PINS_LATCH e) ∧
      runs (.pset e false v) (word 9 v.toNat) any [] (fun d t _ => t.f STITCHe_PINS_LATCH e = v.toNat ∧
        t.f STITCHe_PINS_DIRS e = d.f STITCHe_PINS_DIRS e)) ∧
    (∀ (c : Fin 2) (fill : Bool) (v : BitVec 9),
      runs (.ldc e c fill v) (word 0xA (c * 2 ^ 10 + fill.toNat * 2 ^ 9 + v.toNat)) any [STITCHe_CTR.addr e] fun d t _ =>
        ctr t c = v.toNat + fill.toNat * 0xFE00 ∧ ctr t (1 - c) = ctr d (1 - c)) ∧
    (∀ (dst src : Fin 8) (fn : Fin 4), dst.val < 7 → src.val < 6 → fn.val < 3 →
      let w := word 0xB (dst * 2 ^ 8 + src * 2 ^ 5 + fn * 2 ^ 3)
      let raw := fun (d : Dev) (x : Nat) => if src = 0 then ctr d 0 else if src = 1 then ctr d 1
        else if src = 2 then d.r STITCHe_SIN e else if src = 3 then d.r STITCHe_SOUT e else if src = 4 then x else 0
      let val := fun (d : Dev) (x : Nat) =>
        let v := raw d x
        if fn = 0 then v
        else if src.val ≤ 1 then v % 2 ^ 8 * 2 ^ 8 + v / 2 ^ 8
        else if fn = 1 then v % 2 ^ 16 * 2 ^ 16 + v / 2 ^ 16
        else v % 2 ^ 8 * 2 ^ 24 + v / 2 ^ 8 % 2 ^ 8 * 2 ^ 16 + v / 2 ^ 16 % 2 ^ 8 * 2 ^ 8 + v / 2 ^ 24
      let i := Instr.xfer e dst src fn
      (dst.val < 2 → runs i w any [STITCHe_CTR.addr e] fun d t x => ctr t dst = val d x % 2 ^ 16 ∧
        ctr t (1 - dst) = ctr d (1 - dst)) ∧
      (dst.val = 2 → runs i w (full STITCHe_STAT_IFULL false) [STITCHe_SIN.addr e, STITCHe_FLAGS.addr e] (fun d t x =>
          t.r STITCHe_SIN e = val d x ∧ t.f STITCHe_CNT_ICNT e = 32 ∧ t.b STITCHe_STAT_IFULL e = true ∧
          t.b STITCHe_FLAGS_IFULL e = true) ∧ stalls i w (full STITCHe_STAT_IFULL true)) ∧
      (dst.val = 3 → runs i w (full STITCHe_STAT_OFULL false) [STITCHe_SOUT.addr e] (fun d t x =>
          t.r STITCHe_SOUT e = val d x ∧ t.f STITCHe_CNT_OCNT e = 32 ∧ t.b STITCHe_STAT_OFULL e = true) ∧
        stalls i w (full STITCHe_STAT_OFULL true)) ∧
      (dst.val = 4 → runs i w any [] fun d t x => t.f STITCHe_PINS_LATCH e = val d x % 2 ^ 8) ∧
      (dst.val = 5 → runs i w any [] fun d t x => t.f STITCHe_PINS_DIRS e = val d x % 2 ^ 8) ∧
      (dst.val = 6 → tick i w any 2 [] fun d t x => t.f STITCHe_STAT_PC e = val d x % 2 ^ 5)) ∧
    runs (.pub e) (word 0xC 0) (full STITCHe_STAT_IFULL false) [STITCHe_FLAGS.addr e] (fun _ t _ =>
      t.b STITCHe_STAT_IFULL e = true ∧ t.b STITCHe_FLAGS_IFULL e = true) ∧
    stalls (.pub e) (word 0xC 0) (full STITCHe_STAT_IFULL true) ∧
    runs (.empty e) (word 0xC (2 ^ 7)) any [STITCHe_FLAGS.addr e] (fun _ t _ => t.f STITCHe_CNT_OCNT e = 0 ∧
      t.b STITCHe_STAT_OFULL e = false ∧ t.b STITCHe_FLAGS_OEMPTY e = true) ∧
    (∀ k : Fin 4,
      runs (.setf e k) (word 0xC (2 * 2 ^ 7 + k)) any hs (fun d t _ => flags t (((d.eng e).fl ||| 2 ^ k.val) % 16) ∧
        (t.eng e).setAt = d.now ∧ (t.eng e).setFl.testBit k = true) ∧
      runs (.clrf e k) (word 0xC (3 * 2 ^ 7 + k)) any hs fun d t _ => flags t (cleared d (2 ^ k.val))) ∧
    runs (.evt e) (word 0xC (4 * 2 ^ 7)) any [STITCHe_FLAGS.addr e] (fun _ t _ => t.b STITCHe_FLAGS_EVT e = true) ∧
    tick (.halt e) (word 0xC (5 * 2 ^ 7)) any 5 [STITCHe_FLAGS.addr e] (fun d t _ => t.b STITCHe_FLAGS_HALT e = true ∧
      t.f STITCHe_STAT_PC e = next d) ∧
    (∀ (outb inb k : Fin 8) (width : Fin 4),
      let f : Nat := outb.val * 2 ^ 8 + inb.val * 2 ^ 5 + width.val * 2 ^ 3 + k.val
      runs (.shcfg0 e outb inb width k) (word 0xD f) any [STITCHe_SHCFG.addr e] (fun _ t _ => t.r STITCHe_SHCFG e = f) ∧
      runs (.shcfg1 e outb inb width k) (word 0xE f) any [STITCHe_SHCFG.addr e]
        (fun _ t _ => t.r STITCHe_SHCFG e = f + 2 ^ 11)) ∧
    (∀ sin : Bool, runs (.post e sin) (word 0xF (sin.toNat * 2 ^ 10)) any [] fun d t _ =>
      handed d t false (if sin then d.r STITCHe_SIN e % 2 ^ 16 else ctr d 0)) ∧
    runs (.relay e) (word 0x10 0) (fun d _ => d.b HM_CTRL_RELAY_EN = false) [STITCHe_FLAGS.addr e]
      (fun _ t _ => t.b STITCHe_FLAGS_RELAY_DROP e = true) ∧
    runs (.relay e) (word 0x10 0) (fun d _ => d.b HM_CTRL_RELAY_EN = true) [] (fun d t _ =>
      handed d t true (ctr d 0 % 2 ^ 8 * 2 ^ 32 + d.r STITCHe_SIN e)) ∧
    ∀ (s : State) (x : Handed), Powered s → FabricRuns s → Unlocked s → s.pending = [] → s.dev.hm.handed = [x] → s.dev.hm.relays = [] →
      (s.dev.r HM_TIME + 1) % 2 ^ 32 = x.at_ → x.engine = e → ∃ t, step s = .next t ∧ t.dev.hm.handed = [] ∧
        (x.frame = false → (∀ n < 8, (s.dev.hr n).sig = []) → ∀ n < 8, (t.dev.hr n).obs =
          if (s.dev.f HMRAIL_CTRL_TOKSRC n).testBit e && s.dev.hmLeads n then
            (if 4 ≤ (s.dev.hr n).obs.length then (s.dev.hr n).obs.drop 1 else (s.dev.hr n).obs) ++
              [⟨e, x.val, x.at_, s.dev.f HMRAIL_XTIME_WIN n⟩]
          else (s.dev.hr n).obs) ∧
        (x.frame = true → s.dev.b HM_CTRL_RELAY_EN = true →
          let v := x.val
          let crcOk := crc8 [v / 2 ^ 32 % 2 ^ 8, v / 2 ^ 24 % 2 ^ 8, v / 2 ^ 16 % 2 ^ 8, v / 2 ^ 8 % 2 ^ 8] = v % 2 ^ 8
          (¬ crcOk → t.dev.b HM_FLAGS_CRC_ERR = true ∧ t.dev.hm.relays = []) ∧
          (crcOk → v / 2 ^ 38 % 4 = 3 → t.dev.b HM_FLAGS_FMT = true ∧ t.dev.hm.relays = []) ∧
          (crcOk → v / 2 ^ 38 % 4 ≠ 3 → t.dev.hm.relays = [(x.at_, v)]))

/-- R470, R474 to R476, R481 to R484: a start enters its engines in the queue of the girth check as one group and makes them
STARTING; the group whose checks were all accepted starts in one cycle; a stop makes its pins inputs, or withdraws each
group of it that is being checked, or both; in SAFE no group starts (R34); STARTED and WITHDRAWN are the latest group's; a
clock restart restarts the dividers of running engines so that a tick falls in this cycle, once where it was given already;
the words, the flags, the
injections and the program words that software writes are taken or rejected. SAFE locks them. That a start's mask is the
newly set bits is the model's reading (log entry 51), that a synchronous start which adds no engine to the queue does nothing
but restart its choice (log entry 77). -/
def Obligations.StitchControl : Prop :=
  let locked := fun i : Instr => ActsOn i (fun s => s.dev.modeNow = modeSafe) [] fun _ t => t.bus.err = 7
  let asked := fun (mask : Nat) (d : Dev) =>
    (List.range 8).filter fun e => mask.testBit e && !d.cfg.queue.contains (0x20 + e)
  let request := fun (i : Instr) (mask : Dev → Nat) (restart : Nat) =>
    let es := fun d : Dev => asked (mask d) d
    Acts i (fun s => Unlocked s ∧ es s.dev ≠ []) (fun d t =>
      let members := ((es d).map fun e => 2 ^ e).sum
      t.cfg.queue = d.cfg.queue ++ (es d).map (0x20 + ·) ∧
      t.stitch.asked = d.stitch.asked + 1 ∧ t.stitch.groups = d.stitch.groups ++
        [{ no := d.stitch.asked + 1, members := members, todo := es d, restart := restart }] ∧
      t.r STITCH_GRPRES = members ∧ ∀ e < 8, t.engState e = if e ∈ es d ∧ d.engState e < 2 then 1 else d.engState e)
  let restarts := fun (i : Instr) (mask : BitVec 8) (none_ : Dev → Prop) =>
    Acts i (fun s => Unlocked s ∧ none_ s.dev) fun d t => SameRegs d t ∧ ∀ e < 8,
      let len := max 1 (d.r STITCHe_CLKDIV e)
      let last := (d.eng e).tickAt - len
      let given := (d.eng e).seen = 1 ∧ d.now ≤ last ∧ d.now < (d.eng e).tickAt
      (t.eng e).tickAt = if mask.toNat.testBit e && decide (2 ≤ d.engState e) then
        (if given then d.now + len * ((last - d.now) / len + 1) else d.now) else (d.eng e).tickAt
  (∀ mask restart : BitVec 8,
    ActsOn (.stitchStart mask) (fun s => Unlocked s ∧ asked (mask.toNat &&& (255 - s.dev.f STITCH_EN_EN)) s.dev = []) []
      (fun _ _ => True) ∧
    request (.stitchStart mask) (fun d => mask.toNat &&& (255 - d.f STITCH_EN_EN)) 0 ∧
    request (.stitchSyncStart mask restart) (fun _ => mask.toNat) restart.toNat ∧
    restarts (.stitchSyncStart mask restart) restart (fun d => asked mask.toNat d = []) ∧
    restarts (.stitchClockRestart mask) mask (fun _ => True) ∧
    locked (.stitchStart mask) ∧ locked (.stitchSyncStart mask restart) ∧ locked (.stitchClockRestart mask)) ∧
  (let ready := fun s : State => s.dev.stitch.groups.find? fun g => g.todo.isEmpty && g.bad == 0
   NoEffect .stitchGroupStart (fun s => ready s = none ∨ ¬ FabricRuns s ∨ s.dev.modeNow = modeSafe) ∧
   ∀ (g : StartGrp) (s : State), Powered s → FabricRuns s → Unlocked s → ready s = some g → Completes .stitchGroupStart s fun t =>
     SameMem s t ∧ SameQueue s t ∧ t.dev.stitch.groups = s.dev.stitch.groups.filter (· != g) ∧
     t.dev.b STITCH_GRPRES_STARTED = (s.dev.b STITCH_GRPRES_STARTED || g.no == s.dev.stitch.asked) ∧
     ∀ e < 8, (g.members.testBit e = false → t.dev.engState e = s.dev.engState e) ∧
       (g.members.testBit e = true → findSec (dirList s.mem (s.dev.f CFG_STAT_DEV_PLANE)) 6 e ≠ none →
         t.dev.engState e = 2 ∧ t.dev.f STITCHe_STAT_PC e = 0 ∧ t.dev.r STITCHe_CTR e = 0 ∧ t.dev.r STITCHe_SOUT e = 0 ∧
         t.dev.r STITCHe_SIN e = 0 ∧ t.dev.r STITCHe_HSSET e = 0 ∧ t.dev.r STITCHe_HSCLR e = 0 ∧ (t.dev.eng e).fl = 0 ∧
         (t.dev.f STITCH_EN_EN).testBit e = true)) ∧
  (∀ (e : Fin 8) (v : Word) (m : Fin 16) (w : Fin 32),
    let free := fun s : State => Unlocked s ∧ ∀ g ∈ s.dev.stitch.groups, g.members.testBit e = false
    let full := fun s : State => s.dev.b STITCHe_STAT_OFULL e = true
    let word := v.toNat % 2 ^ 16
    let open_ := fun s : State => Unlocked s ∧ s.dev.b STITCH_CTRL_EXPERT_UNLOCK = true
    Acts (.stitchStop e) (fun s => free s ∧ 2 ≤ s.dev.engState e) (fun _ t => t.engState e = 0 ∧
      t.f STITCHe_PINS_DIRS e = 0 ∧ t.b STITCHe_FLAGS_STOPPED e = true ∧ (t.f STITCH_EN_EN).testBit e = false ∧
      (t.eng e).busy = false ∧ (t.eng e).inj = none) ∧
    ActsOn (.stitchStop e) (fun s => free s ∧ s.dev.engState e < 2) [] (fun _ _ => True) ∧
    Acts (.stitchStop e) (fun s => Unlocked s ∧ ∃ g ∈ s.dev.stitch.groups, g.members.testBit e = true) (fun d t =>
      t.b STITCH_GRPRES_WITHDRAWN = (d.b STITCH_GRPRES_WITHDRAWN || d.stitch.groups.any fun g =>
        g.members.testBit e && g.no == d.stitch.asked) ∧
      t.stitch.groups = d.stitch.groups.filter (fun g => !g.members.testBit e) ∧
      (2 ≤ d.engState e → t.engState e = 0) ∧
      ∀ g ∈ d.stitch.groups, g.members.testBit e = true → ∀ k < 8, g.members.testBit k = true → 0x20 + k ∉ t.cfg.queue) ∧
    ActsOn (.stitchSoutWrite e v) (fun s => Unlocked s ∧ full s) [STITCHe_FLAGS.addr e]
      (fun _ t => t.b STITCHe_FLAGS_OUT_REJ e = true) ∧
    ActsOn (.stitchSoutWrite e v) (fun s => Unlocked s ∧ ¬ full s)
      [STITCHe_SOUT.addr e, STITCHe_CNT.addr e, STITCHe_STAT.addr e]
      (fun _ t => t.r STITCHe_SOUT e = v.toNat ∧ t.f STITCHe_CNT_OCNT e = 32 ∧ t.b STITCHe_STAT_OFULL e = true) ∧
    ActsOn (.stitchSinRead e) (fun _ => True) [STITCHe_SIN.addr e, STITCHe_CNT.addr e, STITCHe_STAT.addr e]
      (fun d t => t.bus.data = d.r STITCHe_SIN e ∧ t.b STITCHe_STAT_IFULL e = false ∧
        t.r STITCHe_SIN e = (if d.b STITCHe_STAT_IFULL e then 0 else d.r STITCHe_SIN e) ∧
        (d.b STITCHe_STAT_IFULL e = true → t.f STITCHe_CNT_ICNT e = 0)) ∧
    Acts (.stitchHsset e m) Unlocked (fun d t => OnlyRegs [STITCHe_HSSET.addr e, STITCHe_HSCLR.addr e] d t ∧
      (t.eng e).fl = ((d.eng e).fl ||| m.val) % 16 ∧ (t.eng e).setAt = d.now ∧
      ∀ k < 4, m.val.testBit k = true → (t.eng e).setFl.testBit k = true) ∧
    Acts (.stitchHsclr e m) Unlocked (fun d t => OnlyRegs [STITCHe_HSSET.addr e, STITCHe_HSCLR.addr e] d t ∧
      (t.eng e).fl = ((d.eng e).fl &&& (15 - m.val ||| if (d.eng e).setAt = d.now then (d.eng e).setFl else 0)) % 16) ∧
    (let takes := fun s : State => 2 ≤ s.dev.engState e ∧ s.dev.b STITCHe_STAT_INJ_PEND e = false ∧
       s.dev.b STITCHe_STAT_INJ_RUN e = false ∧ stitchReserved word = false
     ActsOn (.stitchInject e v) (fun s => Unlocked s ∧ ¬ takes s) [STITCHe_FLAGS.addr e]
       (fun _ t => t.b STITCHe_FLAGS_INJ_REJ e = true) ∧
     Acts (.stitchInject e v) (fun s => Unlocked s ∧ takes s) fun d t => OnlyRegs [STITCHe_STAT.addr e] d t ∧
       t.b STITCHe_STAT_INJ_PEND e = true ∧ (t.eng e).inj = some (word, v.toNat.testBit 16)) ∧
    ActsOn (.stitchImemWrite e w v) (fun s => Unlocked s ∧ ¬ open_ s) [] (fun _ _ => True) ∧
    (stitchReserved word = true → ActsOn (.stitchImemWrite e w v) open_ [STITCHe_FLAGS.addr e]
      fun _ t => t.b STITCHe_FLAGS_WR_REJ e = true) ∧
    (stitchReserved word = false → ActsOn (.stitchImemWrite e w v) open_ [STITCHe_IMEMw.addr2 e w, STITCH_CTRL.addr 0]
      fun _ t => t.r2 STITCHe_IMEMw e w = word) ∧
    locked (.stitchStop e) ∧ locked (.stitchSoutWrite e v) ∧ locked (.stitchHsset e m) ∧ locked (.stitchHsclr e m) ∧
    locked (.stitchInject e v) ∧ locked (.stitchImemWrite e w v))

/-! ### The host port (R488-R500) -/

/-- R490, R493 to R495, R497 and R498: a transaction reaches the device while it has an address and does not stretch. A read
returns the value the tables give, the PEC last, and 0xFF in every byte with CML invalid-data while PAGE is 0xFF; a
transaction a command does not list is not acknowledged and latches CML invalid-command; a write that a STOP cuts short has no
effect; what is clocked out after the PEC reads 0xFF. Every one is counted. What makes a transaction one that its command
does not list, and how a value is rounded, are the model's readings (log entries 56 and 57). -/
def Obligations.HostReads : Prop :=
  let at_ := fun s : State => Calm s ∧ s.dev.b HB_STAT_ADDR_VALID = true ∧ s.dev.b HB_STAT_STRETCH = false
  let page := fun d : Dev => d.f HB_STAT_PAGE
  let cnt := HB_CNT.addr 0
  let cmlRegs := [cnt, HB_FLAGS.addr 0, HB_ALERT.addr 0]
  let heard := fun d t : Dev => t.f HB_CNT_TRANS = (d.f HB_CNT_TRANS + 1) % 2 ^ 16
  let latched := fun (d t : Dev) (k : Nat) => OnlyRegs cmlRegs d t ∧ heard d t ∧ t.host.cml = d.host.cml ||| k ∧
    t.b HB_FLAGS_INVALID = true ∧ (t.f HB_ALERT_REQ).testBit 2 = true ∧
    (d.host.cml &&& k = 0 → (t.f HB_ALERT_REQ).testBit 1 = true ∧
      ((d.f HB_ALERTMASK_MASK).testBit 1 = true → (t.f HB_ALERT_PENDING).testBit 1 = true))
  let sends := fun (d t : Dev) (code : Nat) (w l : List Nat) => t.host.ack = true ∧
    t.host.resp = l ++ [crc8 ([2 * d.f HB_STAT_ADDR, code] ++ w ++ [2 * d.f HB_STAT_ADDR + 1] ++ l)] ∧
    ∀ k, l.length < k → t.host.byte k = 0xFF
  let unheard := fun i : Instr => NoEffect i fun s => s.dev.b HB_STAT_ADDR_VALID = false ∨ s.dev.b HB_STAT_STRETCH = true
  let rejected := fun i : Instr => Acts i at_ fun d t => latched d t 0x80 ∧ t.host.ack = false
  let isRead := fun x : HostXact => x.read = true ∧ x.data = none
  let noPage := fun (i : Instr) (code : Nat) (w : List Nat) (len : Nat) => Acts i (fun s => at_ s ∧ page s.dev = 0xFF)
    fun d t => latched d t 0x40 ∧ sends d t code w (List.replicate len 0xFF)
  -- a command that is read, and perhaps written: `ok` holds of the bytes
  let reads := fun (i : HostXact → Instr) (code len : Nat) (ok : Dev → List Nat → Prop) =>
    ∀ x, unheard (i x) ∧ (isRead x → noPage (i x) code [] len ∧
      Acts (i x) (fun s => at_ s ∧ page s.dev ≠ 0xFF) fun d t => OnlyRegs [cnt] d t ∧ heard d t ∧
        ∃ l, l.length = len ∧ ok d l ∧ sends d t code [] l)
  let counted := fun (i : Instr) (pre : State → Prop) => Acts i pre fun d t =>
    OnlyRegs [cnt] d t ∧ heard d t ∧ t.host.cml = d.host.cml
  let cut := fun x : HostXact => x.read = false ∧ (x.data = none ∨ x.data = some [])
  let only := fun (i : HostXact → Instr) => ∀ x, ¬ isRead x →
    (cut x → counted (i x) at_) ∧ (¬ cut x → rejected (i x))
  let value := fun (len : Nat) (v : Dev → Nat) (d : Dev) (l : List Nat) => l = leBytes len (v d)
  let words := fun (v : Dev → List Nat) (d : Dev) (l : List Nat) => l = 4 * (v d).length :: (v d).flatMap (leBytes 4)
  let row := fun (i : HostXact → Instr) (code len : Nat) (v : Dev → Nat) => reads i code len (value len v) ∧ only i
  let low := fun (d : Dev) (v : Nat) =>
    let p := d.page (page d)
    let n := page d
    v.testBit 7 = d.b HB_STAT_FW_PEND ∧ v.testBit 6 = (!d.b RAIL_STAT_ENABLED n || d.b RAIL_STAT_SHUTTING n) ∧
    v.testBit 5 = p.byte.testBit 5 ∧ v.testBit 4 = p.byte.testBit 4 ∧ v.testBit 3 = p.byte.testBit 3 ∧
    v.testBit 2 = (p.temp != 0) ∧ v.testBit 1 = (d.host.cml != 0) ∧
    v.testBit 0 = (v / 2 == 0 && (p.vout != 0 || p.iout != 0 || p.mfr != 0 || p.other))
  let high := fun (d : Dev) (v : Nat) =>
    let p := d.page (page d)
    v.testBit 7 = (p.vout != 0) ∧ v.testBit 6 = (p.iout != 0) ∧ v.testBit 5 = p.byte.testBit 3 ∧
    v.testBit 4 = (p.mfr != 0) ∧ v.testBit 3 = (!d.b RAIL_STAT_POWER_GOOD (page d)) ∧ v.testBit 1 = p.other ∧
    v.testBit 2 = false ∧ v.testBit 0 = false
  reads .page 0x00 1 (value 1 page) ∧
  reads .operation 0x01 1 (value 1 fun d => 0x80 * d.f RAIL_CTRL_EN (page d)) ∧
  row .onOffConfig 0x02 1 (fun d => if d.b RAIL_PWM_ENPIN_USE (page d) then 0x1E else 0x1A) ∧
  reads .writeProtect 0x10 1 (value 1 fun d => d.f HB_STAT_WP) ∧
  row .capability 0x19 1 (fun _ => 0xD0) ∧ row .voutMode 0x20 1 (fun _ => 0x14) ∧
  reads .voutCommand 0x21 2 (value 2 fun d => (rdiv (d.f RAIL_VTARGET_VTARGET (page d) * 4096) 4000).toNat) ∧
  reads .voutTransitionRate 0x27 2 (value 2 fun d => linear11 (d.f RAIL_SLEW_SLEW (page d)) 10 (-4)) ∧
  reads .voutDroop 0x28 2 (value 2 fun d => linear11 (d.f RAIL_LOADLINE_LL (page d)) 1000 (-10)) ∧
  (reads .statusByte 0x78 1 (fun d l => ∃ v, l = [v] ∧ low d v) ∧ only .statusByte) ∧
  (reads .statusWord 0x79 2 (fun d l => ∃ v w, l = [v, w] ∧ low d v ∧ high d w) ∧ only .statusWord) ∧
  row .statusVout 0x7A 1 (fun d => (d.page (page d)).vout) ∧ row .statusIout 0x7B 1 (fun d => (d.page (page d)).iout) ∧
  row .statusInput 0x7C 1 (fun d => if (d.page (page d)).byte.testBit 3 then 0x10 else 0) ∧
  row .statusTemperature 0x7D 1 (fun d => (d.page (page d)).temp) ∧ row .statusCml 0x7E 1 (fun d => d.host.cml) ∧
  row .statusMfrSpecific 0x80 1 (fun d => (d.page (page d)).mfr) ∧
  row .readVin 0x88 2 (fun d => linear11 (d.f RAIL_VIN_VIN (page d)) 1000 (-10)) ∧
  row .readVout 0x8B 2 (fun d => if d.b RAIL_VSENSE_VALID (page d) then
    (rdiv (d.f RAIL_VSENSE_VSENSE (page d) * 4096) 4000).toNat else 0) ∧
  row .readIout 0x8C 2 (fun d => linear11 (d.rail (page d)).lp.it 16 (-4)) ∧
  (reads .readTemperature1 0x8D 2 (fun d l => ∀ T : Int, (∃ i ∈ d.slicesOf (page d), d.fs CL_STAT_TEMP (i / 4) = T) →
    (∀ i ∈ d.slicesOf (page d), d.fs CL_STAT_TEMP (i / 4) ≤ T) → l = leBytes 2 (linear11 T 64 (-6))) ∧
    only .readTemperature1) ∧
  row .readTemperature2 0x8E 2 (fun d =>
    linear11 (max (toS 16 (d.accum.hk.getD 17 0)) (toS 16 (d.accum.hk.getD 18 0))) 64 (-6)) ∧
  row .pmbusRevision 0x98 1 (fun _ => 0x33) ∧
  (reads .mfrId 0x99 5 (fun _ l => l = 4 :: "MURV".toList.map Char.toNat) ∧ only .mfrId) ∧
  (reads .mfrModel 0x9A 7 (fun _ l => l = 6 :: "SK7216".toList.map Char.toNat) ∧ only .mfrModel) ∧
  (reads .mfrDeviceState 0xD0 17 (words fun d => [d.r SYSCTL_MODE, d.r CHAIN_STAT, d.r SECURE_STAT, d.r SECURE_BOOTSEQ]) ∧
    only .mfrDeviceState) ∧
  (reads .mfrLogStatus 0xD3 33 (words fun d => [d.r LOG_STAT, d.r LOG_UNREAD, d.r LOG_SEQ, d.r LOG_LOSS 0, d.r LOG_LOSS 1,
    d.r LOG_LOSS 2, d.r LOG_LOSS 3, d.r LOG_INCID]) ∧ only .mfrLogStatus) ∧
  (reads .mfrRailStatus 0xD4 25 (words fun d => let n := page d
    [d.r RAIL_STAT n, d.r RAIL_FLAGS n, d.r RAIL_GCAUSE n, d.r RAIL_SEQSTAT n, d.r RAIL_BOUND n, d.r HMRAIL_STAT n]) ∧
    only .mfrRailStatus) ∧
  (∀ code : Byte, unheard (.unsupportedCommand code) ∧ rejected (.unsupportedCommand code)) ∧
  only .mfrLogNext ∧
  (∀ x, unheard (.mfrLogNext x) ∧ (isRead x → noPage (.mfrLogNext x) 0xD1 [] 35 ∧
    let fresh := fun (d : Dev) (y : SlotSt) => y ∈ d.log.slots ∧ y.read = false ∧ d.log.pinCore ≠ some y.slot
    ∀ s, Powered s → at_ s → page s.dev ≠ 0xFF → (∀ y ∈ s.dev.log.slots, y.slot < 2048) →
      (∀ k < 2048, s.dev.log.pinHost = some k → Completes (.mfrLogNext x) s fun t => SameMem s t ∧ SameQueue s t ∧
        OnlyRegs [cnt] s.dev t.dev ∧ sends s.dev t.dev 0xD1 [] (34 :: leBytes 2 k ++ s.mem.bytes 32 (slotAddr k))) ∧
      (s.dev.log.pinHost = none → (∀ y, ¬ fresh s.dev y) → Completes (.mfrLogNext x) s fun t => SameMem s t ∧
        SameQueue s t ∧ OnlyRegs [cnt] s.dev t.dev ∧ sends s.dev t.dev 0xD1 [] ([34, 0xFF, 0xFF] ++ List.replicate 32 0)) ∧
      (s.dev.log.pinHost = none → (∃ y, fresh s.dev y) → Completes (.mfrLogNext x) s fun t => SameMem s t ∧ SameQueue s t ∧
        ∃ y, fresh s.dev y ∧ (∀ z, fresh s.dev z → y.seq ≤ z.seq) ∧ t.dev.log.pinHost = some y.slot ∧
          t.dev.log.slots = s.dev.log.slots ∧
          sends s.dev t.dev 0xD1 [] (34 :: leBytes 2 y.slot ++ s.mem.bytes 32 (slotAddr y.slot))))) ∧
  (∀ (x : HostXact) (a : Word),
    let w := 4 :: leBytes 4 a.toNat
    let i := Instr.mfrReadReg x
    let asked := x.read = true ∧ x.data.map (fun l => l.map BitVec.toNat) = some (leBytes 4 a.toNat)
    let open_ := fun s : State => at_ s ∧ s.dev.b HB_CTRL_REGRD_EN = true
    let bytes := (x.data.getD []).length
    unheard i ∧ (¬ isRead x → bytes ≤ 4 → x.read = false ∨ bytes < 4 → counted i open_) ∧
    (isRead x ∨ 4 < bytes → rejected i) ∧
    (asked → Acts i (fun s => at_ s ∧ s.dev.b HB_CTRL_REGRD_EN = false) (fun d t => latched d t 0x80 ∧ t.host.ack = false) ∧
      Acts i (fun s => open_ s ∧ page s.dev = 0xFF) (fun d t => latched d t 0x40 ∧ sends d t 0xD5 w (List.replicate 5 0xFF)) ∧
      (hostReadable a.toNat = false → Acts i (fun s => open_ s ∧ page s.dev ≠ 0xFF) fun d t => latched d t 0x40 ∧
        sends d t 0xD5 w [4, 0, 0, 0, 0]) ∧
      (hostReadable a.toNat = true → Acts i (fun s => open_ s ∧ page s.dev ≠ 0xFF) fun d t => OnlyRegs [cnt] d t ∧
        heard d t ∧ ∃ l, l.length = 4 ∧ sends d t 0xD5 w (4 :: l) ∧
          ∀ n < 8, a.toNat = RAIL_VTARGET.addr n → l = leBytes 4 (d.r RAIL_VTARGET n)))) ∧
  (∀ n < 8, hostReadable (RAIL_VTARGET.addr n) = true) ∧
  ∀ a, a % 4 ≠ 0 ∨ a < 0x40000000 ∨ 0x40010000 ≤ a ∧ a < 0x50000000 ∨ 0x60000000 ≤ a ∧ a < 0xF0000000 →
    hostReadable a = false

/-- R490 to R493, R496 and R498 to R500: what the writes of the host do when nothing refuses them, what refuses them, the
offer of a command to firmware and its answer, the alert response and the timeouts of the bus. The order of the refusals,
that a refused firmware-served write stretches first, the offer that stays after its timeout, FW_READY in BOOT and SAFE, and
the answer of a device without an address are the model's choices (log entries 55 to 58 and 77). -/
def Obligations.HostWrites : Prop :=
  let at_ := fun s : State => Calm s ∧ s.dev.b HB_STAT_ADDR_VALID = true ∧ s.dev.b HB_STAT_STRETCH = false
  let page := fun d : Dev => d.f HB_STAT_PAGE
  let cnt := HB_CNT.addr 0
  let stat := HB_STAT.addr 0
  let cmlRegs := [cnt, HB_FLAGS.addr 0, HB_ALERT.addr 0]
  let heard := fun d t : Dev => t.f HB_CNT_TRANS = (d.f HB_CNT_TRANS + 1) % 2 ^ 16
  let latched := fun (d t : Dev) (k : Nat) => heard d t ∧ t.host.cml = d.host.cml ||| k ∧
    (t.f HB_ALERT_REQ).testBit 2 = true ∧ (d.host.cml &&& k = 0 → (t.f HB_ALERT_REQ).testBit 1 = true)
  let passes := fun (p : Pec) (free : Nat) (paged : Bool) (s : State) => p ≠ .bad ∧
    (p = .none → s.dev.b HB_CTRL_PEC_REQ = false) ∧ s.dev.f HB_STAT_WP ≤ free ∧ ¬ (page s.dev = 0xFF ∧ paged = true)
  let refused := fun (i : Instr) (p : Pec) (free : Nat) (paged : Bool) (pre : State → Prop) =>
    (p = .bad → Acts i (fun s => at_ s ∧ pre s) fun d t => OnlyRegs cmlRegs d t ∧ latched d t 0x20 ∧ t.host.ack = false ∧
      t.b HB_FLAGS_PEC_ERR = true ∧ t.f HB_CNT_PECERR = min 255 (d.f HB_CNT_PECERR + 1)) ∧
    (p = .none → Acts i (fun s => at_ s ∧ pre s ∧ s.dev.b HB_CTRL_PEC_REQ = true) fun d t =>
      OnlyRegs cmlRegs d t ∧ latched d t 0x80) ∧
    (p ≠ .bad → Acts i (fun s => at_ s ∧ pre s ∧ (p = .none → s.dev.b HB_CTRL_PEC_REQ = false) ∧
      (free < s.dev.f HB_STAT_WP ∨ page s.dev = 0xFF ∧ paged = true)) fun d t => OnlyRegs cmlRegs d t ∧ latched d t 0x40)
  let unheard := fun i : Instr => NoEffect i fun s => s.dev.b HB_STAT_ADDR_VALID = false ∨ s.dev.b HB_STAT_STRETCH = true
  let counted := fun i : Instr => Acts i at_ fun d t => OnlyRegs [cnt] d t ∧ heard d t ∧ t.host.cml = d.host.cml
  let rejected := fun i : Instr => Acts i at_ fun d t => OnlyRegs cmlRegs d t ∧ latched d t 0x80 ∧ t.host.ack = false
  let isRead := fun x : HostXact => x.read = true ∧ x.data = none
  let size := fun x : HostXact => (x.data.getD []).length
  -- what is neither a read nor a whole write: cut by a STOP it is only counted, else it is rejected
  let shape := fun (i : HostXact → Instr) (len : Nat) (readable : Bool) => ∀ x : HostXact, ¬ (readable = true ∧ isRead x) →
    (x.read = false → x.data = none ∨ size x < len → counted (i x)) ∧ (x.read = true ∨ len < size x → rejected (i x))
  let fwShape := fun (i : HostXact → Instr) (len : Nat) => ∀ x : HostXact, ¬ isRead x → x.read = true ∨ len < size x → rejected (i x)
  -- a write that passes: registers `regs` and the count change, and `post` holds
  let wrote := fun (i : Instr) (p : Pec) (free : Nat) (paged : Bool) (pre : State → Prop) (regs : List Nat)
      (post : Dev → Dev → Prop) => Acts i (fun s => at_ s ∧ passes p free paged s ∧ pre s) fun d t =>
    OnlyRegs (cnt :: regs) d t ∧ heard d t ∧ t.host.ack = true ∧ post d t
  let any := fun _ : State => True
  let cmlData := [HB_FLAGS.addr 0, HB_ALERT.addr 0]
  let fwBusy := fun s : State => s.dev.b HB_FWCMD_VALID = true ∨ s.dev.modeNow = 1 ∨ s.dev.cpu.replay ≠ none ∨
    s.dev.cpu.selfTest = true ∨ s.dev.cpu.joining = true
  let ready := fun s : State => s.dev.b HB_CTRL_FW_READY = true ∧ s.dev.modeNow ≠ modeBoot ∧ s.dev.modeNow ≠ modeSafe
  let offer := fun (code : Nat) (read : Bool) (bytes : List Byte) (pec : Bool) (v : Nat) (d t : Dev) =>
    t.f HB_FWCMD_CODE = code ∧ t.f HB_FWCMD_COUNT = bytes.length ∧ t.b HB_FWCMD_READ = read ∧ t.b HB_FWCMD_PEC = pec ∧
    t.f HB_FWCMD_PAGE = page d % 8 ∧ t.b HB_FWCMD_ALL = decide (page d = 0xFF) ∧ t.b HB_FWCMD_VALID = true ∧
    t.r HB_FWVAL = v ∧ (∀ j < 32, t.r HB_RXBUF (j / 4) / 2 ^ (8 * (j % 4)) % 256 = (bytes.getD j 0).toNat) ∧
    t.b HB_STAT_FW_PEND = true ∧ t.b HB_FLAGS_FW_CMD = true ∧ t.b HB_STAT_STRETCH = read
  let offerRegs := [stat, HB_FLAGS.addr 0, HB_FWCMD.addr 0, HB_FWVAL.addr 0] ++ (List.range 8).map fun j => HB_RXBUF.addr j
  let fw := fun (i : HostXact → Instr) (code free : Nat) (paged : Bool) (bytes : List Byte) (p : Pec) (conv : Option Nat) =>
    let x : HostXact := ⟨some bytes, false, p⟩
    Acts (i x) (fun s => at_ s ∧ ¬ ready s) (fun d t => OnlyRegs [cnt] d t ∧ heard d t ∧ t.host.ack = false) ∧
    refused (i x) p free paged (fun s => ready s ∧ ¬ fwBusy s) ∧ unheard (i x) ∧
    Acts (i x) (fun s => at_ s ∧ ready s ∧ fwBusy s) (fun d t => OnlyRegs [cnt, stat] d t ∧ heard d t ∧
      t.b HB_STAT_STRETCH = true ∧ t.host.stretchAt = d.now ∧ t.host.xact = some (code, x)) ∧
    (∀ v, conv = some v → wrote (i x) p free paged (fun s => ready s ∧ ¬ fwBusy s) offerRegs
      (offer code false bytes (decide (p = .good)) v)) ∧
    (conv = none → wrote (i x) p free paged (fun s => ready s ∧ ¬ fwBusy s) (stat :: cmlData) (fun d t =>
      latched d t 0x40 ∧ t.b HB_FWCMD_VALID = false))
  let within := fun (v : Int) (lo hi : Nat) => if (lo : Int) ≤ v ∧ v ≤ hi then some v.toNat else none
  (∀ (b : Byte) (p : Pec),
    let x : HostXact := ⟨some [b], false, p⟩
    let v := b.toNat
    refused (.page x) p 0x40 false any ∧
    (v < 8 ∨ v = 0xFF → wrote (.page x) p 0x40 false any [stat] fun _ t => page t = v) ∧
    (¬ (v < 8 ∨ v = 0xFF) → wrote (.page x) p 0x40 false any cmlData fun d t => latched d t 0x40) ∧
    refused (.writeProtect x) p 0x80 false any ∧
    (v ∈ [0x00, 0x20, 0x40, 0x80] → wrote (.writeProtect x) p 0x80 false any [stat] fun _ t => t.f HB_STAT_WP = v) ∧
    (v ∉ [0x00, 0x20, 0x40, 0x80] → wrote (.writeProtect x) p 0x80 false any cmlData fun d t => latched d t 0x40) ∧
    fw .operation 0x01 0x40 false [b] p (if v = 0x80 then some 1 else if v = 0 ∨ v = 0x40 then some 0 else none)) ∧
  (∀ (b c : Byte) (p : Pec),
    let x : HostXact := ⟨some [b, c], false, p⟩
    let w := b.toNat + 256 * c.toNat
    fw .voutCommand 0x21 0x20 true [b, c] p (within (rdiv (w * 4000) 4096) 0x04B0 0x1F40) ∧
    fw .voutTransitionRate 0x27 0 true [b, c] p (within (fromLinear11 w 10) 1 60000) ∧
    fw .voutDroop 0x28 0 true [b, c] p (within (fromLinear11 w 1000) 0 3999) ∧
    refused (.mfrLogAck x) p 0 false any ∧ unheard (.mfrLogAck x) ∧
    wrote (.mfrLogAck x) p 0 false (fun s => s.dev.log.pinHost = some w)
      [LOG_STAT.addr 0, LOG_UNREAD.addr 0, HB_ALERT.addr 0] (fun d t => t.log.pinHost = none ∧
        t.log.slots = d.log.slots.map fun y => if y.slot = w then { y with read := true } else y) ∧
    wrote (.mfrLogAck x) p 0 false (fun s => s.dev.log.pinHost ≠ some w) (LOG_FLAGS.addr 0 :: cmlData) (fun d t =>
      latched d t 0x40 ∧ t.b LOG_FLAGS_ACK_REJ = true ∧ t.log = d.log) ∧
    refused (.mfrSafeReturn x) p 0 false any ∧ unheard (.mfrSafeReturn x) ∧
    (w = 0xC3A5 → wrote (.mfrSafeReturn x) p 0 false any [] fun d t =>
      (d.modeNow ≠ modeSafe → t.mode = d.mode) ∧ (d.modeNow = modeSafe → t.mode.due ≠ none)) ∧
    (w ≠ 0xC3A5 → wrote (.mfrSafeReturn x) p 0 false any cmlData fun d t => latched d t 0x40 ∧ t.mode = d.mode)) ∧
  (∀ p : Pec,
    let x : HostXact := ⟨some [], false, p⟩
    let held := fun (d : Dev) (n : Nat) => d.b RAIL_FLAGS_SUBST n = true ∨ d.b RAIL_FLAGS_SPARES_OUT n = true ∨
      d.b RAIL_FLAGS_CAL_FAIL n = true ∨ d.b LOG_STAT_LOSSY = true ∨ d.b RAIL_FLAGS_LIM_ENTER n = true ∨
      d.b RAIL_STAT_SHUTTING n = true ∨ ∃ i ∈ d.slicesOf n, (d.cluster (i / 4)).seen = true ∧
        (d.fs CL_OTLIM_OT_WARN (i / 4) ≤ d.fs CL_STAT_TEMP (i / 4) ∨ d.fs CL_OTLIM_OT_FAULT (i / 4) ≤ d.fs CL_STAT_TEMP (i / 4))
    refused (.clearFaults x) p 0 false any ∧ unheard (.clearFaults x) ∧
    wrote (.clearFaults x) p 0 false any [HB_ALERT.addr 0] (fun d t => t.host.cml = 0 ∧ ∀ n < 8,
      let named := page d = 0xFF ∨ page d = n
      (named → ¬ held d n → t.page n = {}) ∧ (page d < 8 → page d ≠ n → t.page n = d.page n))) ∧
  shape .page 1 true ∧ shape .writeProtect 1 true ∧ shape .operation 1 true ∧ shape .voutCommand 2 true ∧
  shape .voutTransitionRate 2 true ∧ shape .voutDroop 2 true ∧ shape .clearFaults 0 false ∧ shape .mfrLogAck 2 false ∧
  shape .mfrSafeReturn 2 false ∧
  fwShape .operation 1 ∧ fwShape .voutCommand 2 ∧ fwShape .voutTransitionRate 2 ∧ fwShape .voutDroop 2 ∧
  fwShape .mfrFwMailbox 32 ∧ (∀ p : Pec, counted (.mfrFwMailbox ⟨none, false, p⟩)) ∧
  (∀ (l : List Byte) (p : Pec), l.length ≤ 1 → ∀ i : HostXact → Instr,
    l = [] ∧ i = .operation ∨ i = .voutCommand ∨ i = .voutTransitionRate ∨ i = .voutDroop →
    Acts (i ⟨some l, false, p⟩) (fun s => at_ s ∧ ready s ∧ ¬ fwBusy s) fun d t =>
      OnlyRegs [cnt] d t ∧ heard d t ∧ t.host.cml = d.host.cml ∧ t.host.xact = none) ∧
  (∀ (bytes : List Byte) (p : Pec), bytes.length ≤ 32 → fw .mfrFwMailbox 0xDA 0 false bytes p (some 0)) ∧
  (∀ p : Pec,
    let x : HostXact := ⟨none, true, p⟩
    let i := Instr.mfrFwMailbox x
    Acts i (fun s => at_ s ∧ ¬ ready s) (fun d t => OnlyRegs [cnt] d t ∧ heard d t ∧ t.host.ack = false) ∧
    Acts i (fun s => at_ s ∧ ready s ∧ page s.dev = 0xFF ∧ ¬ fwBusy s) (fun d t => OnlyRegs cmlRegs d t ∧
      latched d t 0x40 ∧ t.b HB_STAT_STRETCH = false ∧ ∀ k, k ≠ 1 → t.host.byte k = 0xFF) ∧
    Acts i (fun s => at_ s ∧ ready s ∧ fwBusy s) (fun d t => OnlyRegs [cnt, stat] d t ∧ heard d t ∧
      t.b HB_STAT_STRETCH = true ∧ t.host.xact = some (0xDA, x)) ∧
    Acts i (fun s => at_ s ∧ ready s ∧ page s.dev ≠ 0xFF ∧ ¬ fwBusy s) (fun d t => OnlyRegs (cnt :: offerRegs) d t ∧
      heard d t ∧ offer 0xDA true [] false 0 d t)) ∧
  (let answers := fun s : State => s.dev.b HB_STAT_STRETCH = false ∧ s.dev.f HB_ALERT_PENDING ≠ 0
   let known := fun s : State => s.dev.b HB_STAT_ADDR_VALID = true
   let won := fun d t : Dev => t.f HB_ALERT_PENDING = 0 ∧ t.f HB_ALERT_REQ = d.f HB_ALERT_REQ ∧
     t.b HB_FLAGS_ARA_WON = true ∧ t.host.ack = true
   NoEffect (.alertResponse true) (fun s => ¬ answers s) ∧ NoEffect (.alertResponse false) (fun s => ¬ answers s) ∧
   ActsOnHost (.alertResponse true) (fun s => answers s ∧ known s) [HB_ALERT.addr 0, HB_FLAGS.addr 0] (fun d t =>
     won d t ∧ t.host.resp = [2 * d.f HB_STAT_ADDR]) ∧
   Acts (.alertResponse true) (fun s => answers s ∧ ¬ known s) (fun d t => OnlyRegs [HB_ALERT.addr 0, HB_FLAGS.addr 0] d t ∧
     won d t ∧ ∃ a < 128, t.host.resp = [2 * a]) ∧
   ActsOnHost (.alertResponse false) answers [] fun _ t => t.host.resp = []) ∧
  (∀ v : Word,
    let done := fun s : State => v.toNat.testBit 0 = true ∧ s.dev.b HB_FWCMD_VALID = true
    let n := min 32 (v.toNat / 2 ^ 8 % 2 ^ 6)
    ActsOn (.fwAck v) (fun s => ¬ done s) [] (fun _ _ => True) ∧
    Acts (.fwAck v) (fun s => done s ∧ s.dev.host.xact = none) fun d t => t.b HB_FWCMD_VALID = false ∧ t.b HB_FWCMD_READ = false ∧
      t.b HB_STAT_FW_PEND = false ∧ t.host.cml = (if v.toNat.testBit 1 then d.host.cml ||| 0x40 else d.host.cml) ∧
      (d.b HB_FWCMD_READ = true ∧ d.b HB_STAT_STRETCH = true → t.b HB_STAT_STRETCH = false ∧
        ∃ c, t.host.resp = n :: (List.range n).map (fun j => d.r HB_TXBUF (j / 4) / 2 ^ (8 * (j % 4)) % 256) ++ [c])) ∧
  (let limit := fun s : State => s.dev.b HB_STAT_STRETCH = true ∧
     s.dev.host.stretchAt + 40000 * min 240 (s.dev.f HB_XTO_FWTO) ≤ s.dev.now
   NoEffect .fwTimeout (fun s => ¬ limit s) ∧
   Acts .fwTimeout limit fun d t => t.b HB_STAT_STRETCH = false ∧ t.host.cml = d.host.cml ||| 0x02 ∧
     t.b HB_FLAGS_FW_TIMEOUT = true ∧ t.host.xact = none ∧ (d.host.xact ≠ none → t.host.ack = false) ∧
     (d.host.xact = none → ∀ k, t.host.byte k = 0xFF) ∧ t.b HB_FWCMD_VALID = d.b HB_FWCMD_VALID ∧
     Arrives d t 2 0x051 ((d.host.xact.map (·.1)).getD (d.f HB_FWCMD_CODE)) [d.r HB_FWCMD]) ∧
  (let stuck := fun (d t : Dev) => t.host.cml = d.host.cml ||| 0x02 ∧ t.b HB_FLAGS_STUCK = true ∧
     t.f HB_CNT_STUCK = min 255 (d.f HB_CNT_STUCK + 1)
   NoEffect .smbusSclTimeout (fun s => s.dev.b HB_STAT_ADDR_VALID = false) ∧
   Acts .smbusSclTimeout (fun s => s.dev.b HB_STAT_ADDR_VALID = true) (fun d t => stuck d t ∧ t.host.xact = none ∧
     t.b HB_STAT_STRETCH = false ∧ Arrives d t 2 0x050 0 [t.r HB_STAT]) ∧
   let free := fun s : State => s.dev.b HB_STAT_STRETCH = false
   NoEffect .smbusSdaStuck (fun s => ¬ free s) ∧ NoEffect .smbusStuckClear (fun s => ¬ free s) ∧
   Acts .smbusSdaStuck free (fun d t => stuck d t ∧ t.host.xact = d.host.xact ∧
     Arrives d t 2 0x050 1 [d.r HB_STAT]) ∧
   ActsOn .smbusStuckClear free [HB_FLAGS.addr 0] fun _ t => t.b HB_FLAGS_STUCK_CLR = true)

/-! ### UARTs and QSPI (R503-R518) -/

/-- R503 and R505 to R510, R514 to R516: what is received enters the RX queue with its errors, or is lost and counted; what
is sent leaves the TX queue in the levels of its path, collides, which releases the line, or echoes, and a retry waits for
an idle line; a break by its length, a line fault and their end; a QSPI command sends its bytes, polls every 10 µs with the
opcode of QSPI_XPOLL from the end of its data phase, and ends done, aborted or failed; the window reads through the prefetch
line, aligned, and misses wait for spills and commands; a spill goes before a command that waits, and is written out or
fails. How the lines and the flash reach the model, and where the spec gives no order or value, are the model's choices (log
entries 28, 29 and 77): one row brings one character, a frame's levels are driven from its command on, a write without data
after a separate write enable counts as a write. -/
def Obligations.SerialCommands : Prop :=
  (∀ u : Fin 2,
    let hears := fun s : State => s.dev.b UART_CTRL_EN u = true ∧ s.dev.b UART_STAT_HELDOFF u = false
    let flags := UART_FLAGS.addr u
    let stat := UART_STAT.addr u
    let rxRegs := [stat, flags, UART_LOST.addr u]
    let queued := fun (d t : Dev) (e : Nat) =>
      ((d.ua u).rx.length < 64 → (t.ua u).rx = (d.ua u).rx ++ [e + b2n (d.ua u).lost * 2 ^ 13 + 2 ^ 15] ∧
        (t.ua u).lost = false ∧ t.f UART_STAT_RXCOUNT u = (d.ua u).rx.length + 1) ∧
      (64 ≤ (d.ua u).rx.length → (t.ua u).rx = (d.ua u).rx ∧ (t.ua u).lost = true ∧ t.b UART_FLAGS_OVR u = true ∧
        t.r UART_LOST u = min (2 ^ 32 - 1) (d.r UART_LOST u + 1))
    let nd := fun d : Dev => if d.b UART_CTRL_D7 u then 7 else 8
    let kind := fun d : Dev => d.f UART_CTRL_PARITY u % 3
    let ones := fun (d : Dev) (c : Nat) => ((List.range (nd d)).filter fun k => c.testBit k).length
    let par := fun (d : Dev) (c : Nat) => decide ((ones d c + kind d) % 2 = 0)
    let stops := fun d : Dev => if d.b UART_CTRL_STOP2 u then 2 else 1
    -- the line can have been high for `k` bit times since a collision or a fault last drove it low
    let idle := fun (k : Dev → Nat) (s : State) => (s.dev.ua u).lineAt + k s.dev *
      ((16 * max 1 (s.dev.f UART_BAUD_DIV u) + s.dev.f UART_BAUD_FRAC u) * if s.dev.b SYSCTL_CLK_SRC then 2 else 8) ≤ s.dev.now
    let bitTime := fun d : Dev => (16 * max 1 (d.f UART_BAUD_DIV u) + d.f UART_BAUD_FRAC u) *
      if d.b SYSCTL_CLK_SRC then 2 else 8
    let quiet := fun s : State => (s.dev.ua u).busyTo ≤ s.dev.now
    let lasts := fun (d t : Dev) (n : Nat) => (t.ua u).sentAt = d.now ∧ (t.ua u).busyTo = d.now + n * bitTime d / 16
    let slot := fun d : Dev => 11 + d.f UART_XLINE_RETRY_SLOT u
    let pw := fun d : Dev => if d.f UART_XLINE_PW u = 0 ∨ 8 < d.f UART_XLINE_PW u then 3 else d.f UART_XLINE_PW u
    -- the levels of a frame, one to a bit
    let frame := fun (d : Dev) (c : Nat) (p stop : Bool) => [false] ++ (List.range (nd d)).map (fun k => c.testBit k) ++
      (if kind d = 0 then [] else [p]) ++ List.replicate (stops d) stop
    -- the sixteen samples of a bit, in the PULSE path with a low pulse of `n` samples from the seventh for a 0
    let wave := fun (pulse : Bool) (n : Nat) (v : Bool) =>
      (List.range 16).map fun k => v || pulse && !(decide (6 ≤ k) && decide (k < 6 + n))
    let driven := fun (d : Dev) (c : Nat) => (frame d c (par d c) true).flatMap (wave (decide ((d.ua u).path = 1)) (pw d))
    let clash := fun (d : Dev) (c : Nat) (back : List Bool) => (d.ua u).path = 2 ∧
      ∃ (b : Nat) (v : Bool), back[b]? = some v ∧ (frame d c (par d c) true)[b]? = some (!v)
    let echo := fun (d : Dev) (c : Nat) => c % 2 ^ nd d + if nd d = 7 ∧ kind d ≠ 0 then b2n (par d c) * 2 ^ 8 else 0
    let popped := fun (d t : Dev) => (t.ua u).tx = (d.ua u).tx.drop 1 ∧ (t.ua u).colls = 0 ∧ (t.ua u).retry = false ∧
      ((d.ua u).tx.length = 1 → t.b UART_FLAGS_TXEMPTY u = true)
    -- a transmission by command `i` from states of which `pre` holds
    let sends := fun (i : List Bool → Instr) (pre : State → Prop) => ∀ back : List Bool,
      let can := fun s : State => pre s ∧ s.dev.b UART_CTRL_EN u = true ∧ quiet s
      (∀ len, Acts (i back) (fun s => can s ∧ (s.dev.ua u).tx.head? = some (true, len)) fun d t =>
        OnlyRegs [stat, flags] d t ∧ popped d t ∧ (t.ua u).rx = (d.ua u).rx ∧ (t.ua u).line = List.replicate (16 * len) false ∧
        lasts d t (16 * len)) ∧
      ∀ c, let head := fun s : State => can s ∧ (s.dev.ua u).tx.head? = some (false, c)
        Acts (i back) (fun s => head s ∧ ¬ clash s.dev c back) (fun d t => OnlyRegs rxRegs d t ∧ popped d t ∧
          (t.ua u).line = driven d c ∧ lasts d t (driven d c).length ∧
          ((d.ua u).path = 2 ∧ d.b UART_CTRL_ECHO u = true → queued d t (echo d c)) ∧
          (¬ ((d.ua u).path = 2 ∧ d.b UART_CTRL_ECHO u = true) → (t.ua u).rx = (d.ua u).rx)) ∧
        Acts (i back) (fun s => head s ∧ clash s.dev c back) (fun d t =>
          let last := d.b UART_CTRL_RETRY_EN u = false ∨ max 1 (d.f UART_XLINE_RETRY_MAX u) ≤ (d.ua u).colls + 1
          OnlyRegs [stat, flags] d t ∧ t.b UART_FLAGS_COLL u = true ∧ (t.ua u).rx = (d.ua u).rx ∧
          (∀ b, (∀ j < b, ∀ v, back[j]? = some v → (frame d c (par d c) true)[j]? ≠ some (!v)) →
            (∃ v, back[b]? = some v ∧ (frame d c (par d c) true)[b]? = some (!v)) → lasts d t (16 * b + 9) ∧ ∀ k : Nat,
              (t.ua u).line[k]? = if 16 * b + 9 ≤ k ∧ k < (driven d c).length then some true else (driven d c)[k]?) ∧
          (last → t.b UART_FLAGS_COLL_DROP u = true ∧ popped d t) ∧
          (¬ last → (t.ua u).tx = (d.ua u).tx ∧ (t.ua u).colls = (d.ua u).colls + 1 ∧ (t.ua u).retry = true ∧
            (t.ua u).lineAt = (t.ua u).busyTo))
    (∀ samples : List Bool, Acts (.uartRxCharacter u samples) (fun _ => True) fun d t => OnlyRegs rxRegs d t ∧
      (t.ua u).tx = (d.ua u).tx ∧ (t.ua u).line = (d.ua u).line) ∧
    -- the idle line, perhaps a false start of `g` low samples, and the frame; where sample 9 of the stop bit before was low,
    -- it is sample 1 of this frame
    (∀ (pulse p stop : Bool) (c n g : Nat), c < 256 → g ≤ 7 → ∀ s : State, Powered s → hears s → c < 2 ^ nd s.dev →
      ((s.dev.ua u).path = 1 ↔ pulse = true) → (pulse = true ∨ true ∈ frame s.dev c p stop) →
      let samples := (frame s.dev c p stop).flatMap (wave pulse 3)
      let glitch := if pulse = true ∨ g = 0 then [] else List.replicate g false ++ List.replicate (9 - g) true
      let begun := pulse = false ∧ (s.dev.ua u).low9 = true ∧ n = 0
      (begun → g = 0) →
      Completes (.uartRxCharacter u (if begun then samples.drop 1 else List.replicate n true ++ glitch ++ samples)) s fun t =>
        SameMem s t ∧ SameQueue s t ∧ t.dev.b UART_STAT_RXIDLE u = (pulse || stop) ∧
        (t.dev.ua u).low9 = (!pulse && !stop) ∧
        let pe := kind s.dev ≠ 0 ∧ p ≠ par s.dev c
        queued s.dev t.dev (c + (if nd s.dev = 7 ∧ kind s.dev ≠ 0 then b2n p * 2 ^ 8 else 0) +
          b2n (decide pe) * 2 ^ 9 + b2n (!stop) * 2 ^ 10) ∧
        (pe ∨ stop = false → t.dev.b UART_FLAGS_RXERR u = true)) ∧
    (∀ samples : List Bool, NoEffect (.uartRxCharacter u samples) fun s => ¬ hears s ∨ samples = []) ∧
    (∀ len : Half,
      let brk := fun s : State => hears s ∧
        16 * (if (s.dev.ua u).path = 1 then 2 else (frame s.dev 0 false true).length) ≤ len.toNat ∧
        len.toNat < 16 * max 16 (s.dev.f UART_XLINE_BRK_MAX u)
      NoEffect (.uartBreakRx u len) (fun s => ¬ brk s) ∧
      Acts (.uartBreakRx u len) brk fun d t => OnlyRegs rxRegs d t ∧ t.b UART_FLAGS_BRK u = true ∧
        queued d t (2 ^ 12 + len.toNat * 2 ^ 16)) ∧
    NoEffect (.uartLineFault u) (fun s => ¬ hears s) ∧
    Acts (.uartLineFault u) hears (fun d t => t.b UART_FLAGS_LINEFLT u = true ∧ t.b UART_STAT_HELDOFF u = true ∧
      t.b UART_STAT_RXIDLE u = false ∧ queued d t (2 ^ 12 + 2 ^ 14 + 0xFFFF * 2 ^ 16) ∧
      Arrives d t 2 0x052 u [max 16 (d.f UART_XLINE_BRK_MAX u)]) ∧
    NoEffect (.uartLineOk u) (fun s => s.dev.b UART_STAT_HELDOFF u = false ∨ ¬ idle (fun _ => 11) s) ∧
    ActsOn (.uartLineOk u) (fun s => s.dev.b UART_STAT_HELDOFF u = true ∧ idle (fun _ => 11) s) [stat, flags]
      (fun _ t => t.b UART_STAT_HELDOFF u = false ∧ t.b UART_STAT_RXIDLE u = true ∧ t.b UART_FLAGS_LINEOK u = true) ∧
    sends (.uartTxFrame u) (fun s => (s.dev.ua u).retry = false) ∧
    sends (.uartRetry u) (fun s => (s.dev.ua u).retry = true ∧ idle slot s) ∧
    (∀ back, NoEffect (.uartTxFrame u back) (fun s => (s.dev.ua u).retry = true ∨ s.dev.b UART_CTRL_EN u = false ∨
        (s.dev.ua u).tx = [] ∨ ¬ quiet s) ∧
      NoEffect (.uartRetry u back) fun s => (s.dev.ua u).retry = false ∨ ¬ idle slot s ∨ ¬ quiet s) ∧
    (∀ v : Word,
      let full := fun s : State => 16 ≤ ((s.dev.ua u).tx.filter fun x => !x.1).length
      ActsOn (.uartTxqWrite u v) full [flags] (fun _ t => t.b UART_FLAGS_TX_REJ u = true) ∧
      Acts (.uartTxqWrite u v) (fun s => ¬ full s) (fun d t => OnlyRegs [stat] d t ∧
        (t.ua u).tx = (d.ua u).tx ++ [(false, v.toNat % 2 ^ 9)] ∧ (t.ua u).rx = (d.ua u).rx ∧
        t.f UART_STAT_TXCOUNT u = ((d.ua u).tx.filter fun x => !x.1).length + 1) ∧
      (let len := v.toNat % 2 ^ 12
       (v.toNat.testBit 31 = true → len ≠ 0 → Acts (.uartBreakSend u v) (fun _ => True) fun d t => SameRegs d t ∧
         (t.ua u).tx = (d.ua u).tx ++ [(true, len)] ∧ (t.ua u).rx = (d.ua u).rx) ∧
       (v.toNat.testBit 31 = false ∨ len = 0 → ActsOn (.uartBreakSend u v) (fun _ => True) [] fun _ _ => True))) ∧
    ActsOn (.uartRxqRead u) (fun s => (s.dev.ua u).rx = []) [] (fun _ t => t.bus.data = 0) ∧
    (∀ e rest, Acts (.uartRxqRead u) (fun s => (s.dev.ua u).rx = e :: rest) fun d t => OnlyRegs [stat] d t ∧
      (t.ua u).rx = rest ∧ t.bus.data = e % 2 ^ 32 ∧ (t.ua u).tx = (d.ua u).tx) ∧
    Acts (.uartEnClear u) (fun _ => True) (fun d t => OnlyRegs [UART_CTRL.addr u, stat] d t ∧
      t.b UART_CTRL_EN u = false ∧ (t.ua u).rx = [] ∧ (t.ua u).tx = [] ∧ t.f UART_STAT_RXCOUNT u = 0 ∧
      (t.ua u).busyTo = if d.now < (d.ua u).busyTo then
        min (d.ua u).busyTo ((d.ua u).sentAt + ((d.now - (d.ua u).sentAt) / (d.ua u).bitT + 1) * (d.ua u).bitT)
        else (d.ua u).busyTo)) ∧
  (let idle := fun s : State => s.dev.qspi.cmd = none
   let runs := fun (v : Nat) (s : State) => s.dev.qspi.cmd = some v
   let len := fun v : Nat => min 256 (v / 2 ^ 16 % 2 ^ 9)
   let writes := fun (d : Dev) (v : Nat) => v.testBit 27 = true ∨ v.testBit 25 = true ∧ 0 < len v ∨
     d.qspi.wel = true ∧ len v = 0 ∧ v % 256 ≠ 6
   let spills := fun s : State => s.dev.log.spill ≠ []
   let bytes3 := fun (four : Bool) (a : Nat) =>
     (if four then [a / 2 ^ 24 % 256] else []) ++ [a / 2 ^ 16 % 256, a / 2 ^ 8 % 256, a % 256]
   -- what command `v` sends
   let sends := fun (d : Dev) (v : Nat) => (if v.testBit 27 then [0x06] else []) ++ [v % 256] ++
     (if v / 2 ^ 8 % 4 = 1 then bytes3 false (d.r QSPI_ADDR) else if v / 2 ^ 8 % 4 = 2 then bytes3 true (d.r QSPI_ADDR) else []) ++
     if v.testBit 25 then (List.range (len v)).map fun k => d.r QSPI_BUF (k / 4) / 2 ^ (8 * (k % 4)) % 256 else []
   let lanes := fun v : Nat => if v / 2 ^ 14 % 4 = 1 then (1, 4, 4) else if v / 2 ^ 14 % 4 = 2 then (1, 1, 4) else (1, 1, 1)
   let bufs := (List.range 64).map fun k => QSPI_BUF.addr k
   let ends := fun (v : Nat) (d t : Dev) (state why : Nat) => t.f QSPI_OPSTAT_STATE = state ∧
     t.f QSPI_OPSTAT_REASON = why ∧ t.b QSPI_STAT_BUSY = false ∧ t.qspi.cmd = none ∧ t.qspi.polling = false ∧
     t.qspi.waits = false ∧ (t.qspi.wel = true ↔ (d.qspi.wel = true ∨ v % 256 = 6) ∧ ¬ writes d v) ∧
     (if state = 2 then t.b QSPI_FLAGS_CMD_DONE = true else t.b QSPI_FLAGS_CMD_FAIL = true) ∧
     (writes d v → t.qspi.line = none ∧ t.b QSPI_STAT_LINE_VALID = false) ∧ (¬ writes d v → t.qspi.line = d.qspi.line)
   let opRegs := [QSPI_OPSTAT.addr 0, QSPI_STAT.addr 0, QSPI_FLAGS.addr 0]
   (∀ v : Word,
     ActsOn (.qspiCommand v) (fun s => ¬ idle s) [QSPI_FLAGS.addr 0] (fun _ t => t.b QSPI_FLAGS_CMD_REJ = true) ∧
     Acts (.qspiCommand v) idle (fun d t => OnlyRegs [QSPI_OPSTAT.addr 0, QSPI_STAT.addr 0] d t ∧
       t.r QSPI_OPSTAT = 2 ^ 28 ∧ t.b QSPI_STAT_BUSY = true ∧ t.qspi.cmd = some v.toNat ∧
       (d.log.spill = [] → t.qspi.waits = false ∧ t.qspi.sent = sends d v.toNat ∧ t.qspi.lanes = lanes v.toNat ∧
         t.qspi.dummy = v.toNat / 2 ^ 10 % 16) ∧
       (d.log.spill ≠ [] → t.qspi.waits = true ∧ t.qspi.sent = d.qspi.sent))) ∧
   Acts .qspiAbort (fun s => idle s ∧ s.dev.f QSPI_OPSTAT_STATE = 2) (fun d t => OnlyRegs [QSPI_OPSTAT.addr 0] d t ∧
     t.b QSPI_OPSTAT_ABORT_LATE = true ∧ t.f QSPI_OPSTAT_STATE = 2) ∧
   ActsOn .qspiAbort (fun s => idle s ∧ s.dev.f QSPI_OPSTAT_STATE ≠ 2) [] (fun _ _ => True) ∧
   (∀ v : Nat,
     let still := fun s : State => s.dev.qspi.waits = true ∨ s.dev.qspi.polling = true
     Acts .qspiAbort (fun s => runs v s ∧ still s) (fun d t => OnlyRegs opRegs d t ∧ ends v d t 3 1 ∧
       t.qspi.sent = d.qspi.sent) ∧
     Acts .qspiAbort (fun s => runs v s ∧ ¬ still s ∧ (v.testBit 25 = true ∨ len v = 0)) (fun d t => OnlyRegs opRegs d t ∧
       ends v d t 3 1 ∧ ∃ k, t.qspi.sent = d.qspi.sent.take k) ∧
     Acts .qspiAbort (fun s => runs v s ∧ ¬ still s ∧ v.testBit 25 = false ∧ len v ≠ 0) fun d t =>
       OnlyRegs (opRegs ++ bufs) d t ∧ ends v d t 3 1 ∧ t.qspi.sent = d.qspi.sent ∧
       ∀ k < 256, len v ≤ k → t.r QSPI_BUF (k / 4) / 2 ^ (8 * (k % 4)) % 256 = d.r QSPI_BUF (k / 4) / 2 ^ (8 * (k % 4)) % 256) ∧
   (∀ (status : Byte) (v : Nat),
     let polls := fun s : State => s.dev.qspi.polling = true ∧ s.dev.qspi.pollAt ≤ s.dev.now
     NoEffect (.qspiPoll status) (fun s => ¬ polls s) ∧
     Acts (.qspiPoll status) (fun s => runs v s ∧ polls s) fun d t => OnlyRegs opRegs d t ∧
       t.f QSPI_OPSTAT_PROGRESS = (d.f QSPI_OPSTAT_PROGRESS + 1) % 2 ^ 12 ∧
       t.qspi.sent = [d.r QSPI_XPOLL % 2 ^ 8] ∧ (status.toNat % 2 = 0 → ends v d t 2 0) ∧
       (status.toNat % 2 = 1 → t.qspi = { d.qspi with sent := [d.r QSPI_XPOLL % 2 ^ 8], pollAt := d.now + 4000 })) ∧
   (∀ v : Nat,
     let late := fun s : State => s.dev.qspi.polling = true ∧
       s.dev.qspi.pollFrom + 400000 * (s.dev.r QSPI_POLLTO % 2 ^ 16) < s.dev.now
     NoEffect .qspiPollTimeout (fun s => ¬ late s) ∧
     Acts .qspiPollTimeout (fun s => runs v s ∧ late s) fun d t => ends v d t 4 2 ∧
       Arrives d t 2 0x053 (v % 256) [d.r QSPI_ADDR, t.r QSPI_OPSTAT]) ∧
   (∀ data : List Byte, NoEffect (.qspiCommandEnd data) (fun s => idle s ∨ s.dev.qspi.polling = true ∨ s.dev.qspi.waits = true) ∧
     ∀ v : Nat, Acts (.qspiCommandEnd data) (fun s => runs v s ∧ s.dev.qspi.polling = false ∧ s.dev.qspi.waits = false) fun d t =>
       OnlyRegs (opRegs ++ bufs) d t ∧
       (∀ k < 256, t.r QSPI_BUF (k / 4) / 2 ^ (8 * (k % 4)) % 256 = if v.testBit 25 = false ∧ k < len v
         then (data.getD k 0).toNat else d.r QSPI_BUF (k / 4) / 2 ^ (8 * (k % 4)) % 256) ∧
       (v.testBit 26 = false → ends v d t 2 0) ∧
       (v.testBit 26 = true → t.qspi = { d.qspi with polling := true, pollFrom := d.now, pollAt := d.now })) ∧
   (∀ (m : Master) (addr : Word) (size : Nat) (line : List Byte),
     let i := Instr.qspiWindowRead m addr size line
     let a := addr.toNat
     let inside := 0x60000000 ≤ a ∧ a < 0x64000000
     let hit := fun (d : Dev) (base : Nat) (bytes : List Nat) => d.qspi.line = some (base, bytes) ∧ base ≤ a ∧ a + size ≤ base + 32
     let on := fun s : State => s.dev.b QSPI_CTRL_EN = true
     (¬ inside → ActsOn i (fun _ => True) [] fun _ t => t.bus.err = synUnmapped) ∧
     ActsOn i (fun s => ¬ on s) [] (fun _ t => t.bus.err = synUnmapped) ∧
     (inside → a % size ≠ 0 → i.wf = true → ActsOn i on [] fun _ t => t.bus.err = synSize) ∧
     (inside → i.wf = true → a % size = 0 →
       (∀ base bytes, ActsOn i (fun s => on s ∧ hit s.dev base bytes) [] fun _ t => t.bus.err = 0 ∧
         t.bus.data = ((List.range size).map fun k => bytes.getD (a - base + k) 0 % 256 * 2 ^ (8 * k)).sum) ∧
       NoEffect i (fun s => on s ∧ (¬ idle s ∨ spills s) ∧ ∀ base bytes, ¬ hit s.dev base bytes) ∧
       Acts i (fun s => on s ∧ idle s ∧ ¬ spills s ∧ ∀ base bytes, ¬ hit s.dev base bytes) fun d t =>
         t.qspi.sent = d.f QSPI_CTRL_RDOP :: bytes3 (d.b QSPI_CTRL_ADDR4) (a - a % 32 - 0x60000000) ∧
         t.qspi.dummy = d.f QSPI_CTRL_DUMMY ∧
         t.qspi.lanes = [(1, 1, 1), (1, 1, 4), (1, 4, 4), (4, 4, 4)].getD (d.f QSPI_CTRL_RDMODE) (1, 1, 1) ∧
         OnlyRegs [QSPI_STAT.addr 0] d t ∧ t.b QSPI_STAT_LINE_VALID = true ∧ t.bus.err = 0 ∧
         t.qspi.line = some (a - a % 32, line.map BitVec.toNat) ∧
         t.bus.data = ((List.range size).map fun k => (line.getD (a % 32 + k) 0).toNat * 2 ^ (8 * k)).sum)) ∧
   (let free := fun s : State => idle s ∨ s.dev.qspi.waits = true
    -- what a spill sends, and a command that waits for the last one after it
    let sent := fun (d t : Dev) (last : Bool) => ∃ body, body.length = 32 ∧
      let l := [0x06, if d.b QSPI_CTRL_ADDR4 then 0x12 else 0x02] ++
        bytes3 (d.b QSPI_CTRL_ADDR4) (d.r LOG_SPILLBASE + 32 * d.r LOG_SPILLPTR) ++ body ++ [d.r QSPI_XPOLL % 2 ^ 8]
      t.qspi.cmd = d.qspi.cmd ∧ (last = false ∨ d.qspi.cmd = none → t.qspi.sent = l ∧ t.qspi.waits = d.qspi.waits) ∧
      ∀ v, last = true → d.qspi.cmd = some v → t.qspi.sent = l ++ sends d v ∧ t.qspi.waits = false
    (∀ ok : Bool, NoEffect (.qspiSpill ok) fun s => ¬ free s ∨ ¬ spills s) ∧
    (∀ e rest, Acts (.qspiSpill true) (fun s => free s ∧ s.dev.log.spill = e :: rest) fun d t =>
      t.log.spill = rest ∧ t.r LOG_SPILLPTR = (d.r LOG_SPILLPTR + 1) % 2 ^ 32 ∧ t.qspi.line = none ∧
      t.b QSPI_STAT_LINE_VALID = false ∧ t.log.slots = d.log.slots ∧ sent d t rest.isEmpty) ∧
    ∀ s, Powered s → free s → spills s → Completes (.qspiSpill false) s fun t => SameQueue s t ∧ t.dev.log.spill = [] ∧
      t.dev.b LOG_FLAGS_SPILL_ERR = true ∧ t.dev.b LOG_CTRL_SPILL_EN = false ∧ sent s.dev t.dev true))

/-! ### Timers and general-purpose I/O (R519-R530) -/

/-- R519 to R523 and R527 to R529: the increment that the prescaler gives in this cycle and that reaches MATCH, that wraps,
or that ends a one-shot, with the timers that follow it; when a timer without a master counts; the writes of the timers'
registers, a count written to MATCH and a reset to it among them, and what is refused; the writes of the output bits, and the
edge of a filtered level. That a write while the timers are held moves no follower, and that an edge row of a ball the device
drives itself has no effect, are the model's choices (log entries 30 and 77). -/
def Obligations.TimersAndPins : Prop :=
  (∀ t : Fin 16,
    let count := fun d : Dev => d.r TIMERt_COUNT t
    let mode := fun d : Dev => d.f TIMERt_CTRL_MODE t
    let counts := fun s : State => s.dev.counts t = true ∧ s.dev.f TIMERt_CTRL_SLAVE t ≠ 3 ∧
      2 ^ s.dev.f TIMERt_CTRL_PRESC t ≤ s.dev.r TIMERt_RESID t + 1
    let next := fun d : Dev => if mode d = 1 ∧ count d = d.r TIMERt_RELOAD t then 0 else (count d + 1) % 2 ^ 32
    let wraps := fun d : Dev => mode d = 0 ∧ count d = 2 ^ 32 - 1 ∨ mode d = 1 ∧ count d = d.r TIMERt_RELOAD t
    let matched := fun d : Dev => next d = d.r TIMERt_MATCH t ∧ next d ≠ count d
    -- the timers that follow no other, and those that follow the MATCH or WRAP of timer t
    let followed := fun (d x : Dev) (mt wr : Prop) =>
      (∀ u < 16, u < t.val ∨ u ≠ t.val ∧ d.f TIMERt_CTRL_SLAVE u = 0 → x.r TIMERt_COUNT u = d.r TIMERt_COUNT u ∧
        x.r TIMERt_FLAGS u = d.r TIMERt_FLAGS u) ∧
      ∀ u < 16, t.val < u → d.f TIMERt_CTRL_MASTER u = t → (if d.b TIMERt_CTRL_MSEL u then wr else mt) →
        (d.f TIMERt_CTRL_SLAVE u = 2 → x.r TIMERt_COUNT u = 0 ∧ x.r TIMERt_RESID u = 0 ∧
          x.b TIMERt_FLAGS_MATCH u = (d.b TIMERt_FLAGS_MATCH u || d.r TIMERt_COUNT u != 0 && d.r TIMERt_MATCH u == 0)) ∧
        (d.f TIMERt_CTRL_SLAVE u = 3 → d.timerOn u = true → d.f TIMERt_CTRL_MODE u = 0 →
          x.r TIMERt_COUNT u = (d.r TIMERt_COUNT u + 1) % 2 ^ 32) ∧
        (d.f TIMERt_CTRL_SLAVE u = 4 → d.b TIMERt_CTRL_EN u = true → x.timer.trig.testBit u = true)
    -- the increment of timer t
    let stepped := fun (d x : Dev) => count x = next d ∧ x.r TIMERt_RESID t = 0 ∧
      x.b TIMERt_FLAGS_MATCH t = (d.b TIMERt_FLAGS_MATCH t || decide (matched d)) ∧
      x.b TIMERt_FLAGS_WRAP t = (d.b TIMERt_FLAGS_WRAP t || decide (wraps d)) ∧
      (mode d = 2 ∧ matched d → x.b TIMERt_FLAGS_DONE t = true ∧ x.b TIMERt_CTRL_EN t = false) ∧
      (¬ (mode d = 2 ∧ matched d) → x.b TIMERt_CTRL_EN t = d.b TIMERt_CTRL_EN t) ∧ followed d x (matched d) (wraps d)
    let tick := fun (i : Instr) (pre : State → Prop) => NoEffect i (fun s => ¬ (counts s ∧ pre s)) ∧
      Acts i (fun s => counts s ∧ pre s) stepped
    tick (.timerMatch t) (fun s => next s.dev = s.dev.r TIMERt_MATCH t) ∧ tick (.timerWrap t) (fun s => wraps s.dev) ∧
    tick (.timerOneshotDone t) (fun s => mode s.dev = 2 ∧ next s.dev = s.dev.r TIMERt_MATCH t) ∧
    (∀ d : Dev, d.f TIMERt_CTRL_SLAVE t = 0 → (d.counts t = true ↔ d.b TIMERt_CTRL_EN t = true ∧
      (d.b TIMERt_CTRL_LEGACY t = true → d.b TIMER_GCTRL_GSTART = true) ∧ d.mode.sleep < 2 ∧
      ¬ (d.b TIMER_XDBG_FREEZE = true ∧ (d.cpu.a.debug = true ∨ d.cpu.b.debug = true)))) ∧
    (∀ v : Word,
      let sl := v.toNat / 2 ^ 8 % 8
      let bad := fun s : State => v.toNat / 2 % 4 = 3 ∨ 5 ≤ sl ∨ sl ≠ 0 ∧ t.val ≤ v.toNat / 2 ^ 12 % 16 ∨
        s.dev.b TIMERt_CTRL_EN t = true ∧ (v.toNat ^^^ s.dev.r TIMERt_CTRL t) &&& 0x1F7F6 ≠ 0
      ActsOn (.timerCtrlWrite t v) bad [TIMERt_FLAGS.addr t] (fun _ x => x.b TIMERt_FLAGS_CFG_REJ t = true) ∧
      Acts (.timerCtrlWrite t v) (fun s => ¬ bad s) (fun d x => OnlyRegs [TIMERt_CTRL.addr t] d x ∧
        x.r TIMERt_CTRL t = v.toNat &&& 0x3F7F7) ∧
      let hits := fun d : Dev => count d ≠ v.toNat ∧ d.r TIMERt_MATCH t = v.toNat
      let own := [TIMERt_COUNT.addr t, TIMERt_RESID.addr t, TIMERt_FLAGS.addr t]
      Acts (.timerCountWrite t v) (fun _ => True) fun d x => count x = v.toNat ∧ x.r TIMERt_RESID t = 0 ∧
        x.r TIMERt_FLAGS t = (d.r TIMERt_FLAGS t ||| if hits d then 1 else 0) ∧
        (2 ≤ d.mode.sleep → OnlyRegs own d x ∧ x.timer.coded.testBit t = true) ∧
        (d.mode.sleep < 2 → ¬ hits d → OnlyRegs own d x ∧ x.timer = d.timer) ∧
        (d.mode.sleep < 2 → hits d → followed d x True False))) ∧
  (∀ v : Bool, ActsOn (.timerGstartWrite v) (fun _ => True) [TIMER_GCTRL.addr 0]
    fun d x => x.b TIMER_GCTRL_GSTART = v ∧ x.b TIMER_GCTRL_EXPERT_UNLOCK = d.b TIMER_GCTRL_EXPERT_UNLOCK) ∧
  (∀ mask : Half,
    let ens := fun (i : Instr) (en : Bool) => Acts i (fun _ => True) fun d x =>
      OnlyRegs ((List.range 16).map fun t => TIMERt_CTRL.addr t) d x ∧ ∀ t < 16,
        x.b TIMERt_CTRL_EN t = (if mask.toNat.testBit t then en else d.b TIMERt_CTRL_EN t) ∧
        (en = true → mask.toNat.testBit t = true → d.b TIMERt_CTRL_EN t = false → x.timer.trig.testBit t = false)
    ens (.timerGset mask) true ∧ ens (.timerGclr mask) false) ∧
  (∀ (k : Fin 2) (v : Word),
    ActsOn (.gpioSet k v) (fun _ => True) [GPIO_OUT.addr k] (fun d x => ∀ b < 32, (x.r GPIO_OUT k).testBit b =
      ((d.r GPIO_OUT k).testBit b || v.toNat.testBit b && (decide (k = 0) || decide (b < 8)))) ∧
    ActsOn (.gpioClr k v) (fun _ => True) [GPIO_OUT.addr k] (fun d x => ∀ b < 32, (x.r GPIO_OUT k).testBit b =
      ((d.r GPIO_OUT k).testBit b && !v.toNat.testBit b))) ∧
  ∀ (j : Fin 40) (level : Bool),
    let func := fun d : Dev => d.cfg.gpcfg.getD j 0 % 16
    let buffer := fun s : State => (s.dev.cfg.pinmap = true → 1 ≤ func s.dev ∧ func s.dev ≤ 5) ∧
      (s.dev.cfg.pinmap = false → (s.dev.r GPIO_CLAIM (j / 32)).testBit (j % 32) = true)
    let selects := fun d : Dev => (d.r GPIO_EDGE (j / 16)).testBit (2 * (j % 16) + if level then 0 else 1)
    let e := fun d : Dev => d.gpio.edgeAt.getD j 0
    let due := fun s : State => e s.dev = 0 ∨ e s.dev - 1 + (s.dev.f GPIO_XFILT_FILT 0 + 1) *
      (if s.dev.b SYSCTL_CLK_SRC then 2 else 8) ≤ s.dev.now
    let cclk := fun d : Dev => if d.b SYSCTL_CLK_SRC then 2 else 8
    let own := fun d : Dev => (d.gpio.balls.getD (2 * cclk d + d.now % cclk d) (0, 0)).1.testBit j = true
    let new := fun d : Dev => d.gpio.filt.testBit j = true ↔ level = false
    let seen := fun s : State => buffer s ∧ due s ∧ ¬ own s.dev ∧ (s.dev.gpio.known.testBit j = true → new s.dev)
    NoEffect (.gpioEdge j level) (fun s => ¬ seen s) ∧
    Acts (.gpioEdge j level) seen fun d x =>
      OnlyRegs [GPIO_IN.addr (j / 32), GPIO_FLAGS.addr (j / 32)] d x ∧
      x.gpio.filt.testBit j = level ∧ x.gpio.known.testBit j = true ∧
      (∀ k, k ≠ j.val → x.gpio.filt.testBit k = d.gpio.filt.testBit k ∧ x.gpio.known.testBit k = d.gpio.known.testBit k ∧
        x.gpio.edgeAt.getD k 0 = d.gpio.edgeAt.getD k 0) ∧ e x = d.now + 1 ∧
      (x.r GPIO_IN (j / 32)).testBit (j % 32) = level ∧
      ∀ b < 32, (x.r GPIO_FLAGS (j / 32)).testBit b = ((d.r GPIO_FLAGS (j / 32)).testBit b ||
        (decide (b = j % 32) && selects d)) ∧
      -- a write of 1 in this cycle leaves the flag (R13)
      (selects d = true → x.gpio.hitAt = d.now ∧ x.gpio.hits.testBit j = true)

/-! ### The step on an empty queue, and the invariant -/

/-- The model's own rule (log entry 2): with no command waiting a step is one FCLK cycle. The memories and the queue keep
their contents; while the fabric clock runs, HM_TIME and RT count one cycle, RT corrected by at most one more in 256 (R197),
and LOG_EPOCH counts the wraps of RT (R280); an erase that runs shows its pulses (R441); an edge of the slow clock that is
due counts, and one that is due while OSC_OK is 0 does so or ends the run of good edges (R316, log entry 31); without the main
supplies no register of the main domain changes (R43). -/
def Obligations.IdleTick : Prop :=
  ∀ s : State, s.pending = [] → ∃ t, step s = .next t ∧ t.pending = [] ∧ SameMem s t ∧ t.dev.now = s.dev.now + 1 ∧
    (Powered s → s.dev.b SYSCTL_CLK_SRC = true →
      t.dev.r HM_TIME = (s.dev.r HM_TIME + 1) % 2 ^ 32 ∧ t.dev.hm.cyc = s.dev.hm.cyc + 1 ∧
      (let err := s.dev.chain.rtErr
       let step : Int := if s.dev.now + 1 < s.dev.chain.rtAt + 256 then 0 else if err < 0 then -1 else if err = 0 then 0 else 1
       let rt := s.dev.r CHAIN_RTIME + 1 + step
       t.dev.r CHAIN_RTIME = ofS 32 rt ∧ t.dev.chain.rtErr = err - step ∧
         t.dev.r LOG_EPOCH = if 2 ^ 32 ≤ rt then (s.dev.r LOG_EPOCH + 1) % 2 ^ 32 else s.dev.r LOG_EPOCH)) ∧
    (Powered s → s.dev.b SYSCTL_CLK_SRC = false →
      t.dev.r HM_TIME = s.dev.r HM_TIME ∧ t.dev.r CHAIN_RTIME = s.dev.r CHAIN_RTIME ∧
      t.dev.r LOG_EPOCH = s.dev.r LOG_EPOCH) ∧
    (Powered s → s.dev.flash.op = 2 → t.dev.f FLASHC_OPSTAT_PROGRESS = min 250 (s.dev.flash.done +
      (s.dev.now + 1 - s.dev.flash.at_ - if s.dev.flash.fresh = none then 8000 else 0) / 40000)) ∧
    (let counted := t.dev.mode.edges = s.dev.mode.edges + 1 ∧ t.dev.mode.good = s.dev.mode.good + 1
     let due := 400000000 ≤ s.dev.mode.phase + 32768
     (¬ due → t.dev.mode.edges = s.dev.mode.edges ∧ t.dev.mode.good = s.dev.mode.good) ∧
     (due → s.dev.b BD_STAT_OSC_OK = true → counted) ∧
     (due → counted ∨ t.dev.mode.edges = s.dev.mode.edges ∧ t.dev.mode.good = 0)) ∧
    (¬ Powered s → OnlyRegs [BD_TIME_LO.addr 0, BD_TIME_HI.addr 0] s.dev t.dev)

/-- Every step keeps the canonical form of the addressed memories: addresses rise strictly, and no entry equals what an
unlisted byte reads as. -/
def Obligations.MemoryFormKept : Prop := ∀ s t : State, MemInv s → step s = .next t → MemInv t

/-- Power-on reset leaves no command waiting, the memories in canonical form, the mode BOOT, both cores in lockstep at the
ROM's start, supervisor, outside every window, and no rail, engine, operation or prediction running; no general, PWM, QSPI
or TDO ball is driven, and PGOOD is low (R536, R538). That the memories list nothing is the model's choice (log entry 3),
and so is the instant that this state stands for, the release of power-on reset before the ROM's first step (log entry 7).
-/
def Obligations.ResetState : Prop :=
  MemInv State.reset ∧ State.reset.pending = [] ∧ State.reset.mem = [] ∧ State.reset.dev.modeNow = modeBoot ∧
  Powered State.reset ∧ State.reset.dev.lockstep = true ∧ Alike State.reset ∧ State.reset.dev.cpu.a.pc = 0 ∧
  State.reset.dev.cpu.a.psr.toNat % 2 = 1 ∧ State.reset.dev.cpu.a.aw = false ∧
  (∀ n < 8, State.reset.dev.b RAIL_STAT_ENABLED n = false ∧ (State.reset.dev.hr n).act = none) ∧
  (∀ e < 8, State.reset.dev.engState e = 0) ∧ State.reset.dev.log.slots = [] ∧ State.reset.dev.qspi.cmd = none ∧
  State.reset.dev.r HB_ALERTMASK = 0xF ∧ (∀ t < 16, State.reset.dev.r TIMERt_MATCH t = 0xFFFFFFFF) ∧
  ((∀ i, State.reset.dev.ballLevel true (.pwm i) = .z) ∧ (∀ j, State.reset.dev.ballLevel true (.gp j) = .z) ∧
    (∀ k, State.reset.dev.ballLevel true (.qspiIo k) = .z) ∧
    ∀ b ∈ [Ball.qspiCs, .qspiSck, .tdo], State.reset.dev.ballLevel true b = .z) ∧
  State.reset.dev.ballLevel true .pgood = .low

/-- R43: in DORMANT, without the main supplies, only the battery domain runs. Of every command but the supplies' own return,
whatever it is and whoever sends it, nothing comes there but what the battery domain does: no memory changes, no register
outside 0xF0000000 to 0xF00003FF, and of the rest of the device only what goes with the battery domain's registers, its held
time and alarm and its edge counts. Every command completes there as in every other state: the block neither faults nor
refuses a row of the table. -/
def Obligations.EveryCommandCompletes : Prop :=
  (∀ (i : Instr) (s : State), ∃ t, exec i s = .next t) ∧
  ∀ (i : Instr) (s t : State), ¬ Powered s → exec i s = .next t → (∀ strap root, i ≠ .porRelease strap root) →
    SameMem s t ∧ SameQueue s t ∧ ¬ Powered t ∧ { t.dev with regs := s.dev.regs, mode := s.dev.mode } = s.dev ∧
    t.dev.mode.edges = s.dev.mode.edges ∧ t.dev.mode.phase = s.dev.mode.phase ∧ t.dev.mode.due = s.dev.mode.due ∧
    ∀ a, a < 0xF0000000 ∨ 0xF0000400 ≤ a → t.dev.rd a = s.dev.rd a
end

