-- ==== Sys2Proof/Laws/State.lean ====
section
/-! SUPPORT. The fields of the device under each named update: one lemma per field and update, each true by unfolding. -/
namespace Sys2Proof.Machine

/-! ### The machine -/

@[simp] theorem State.onDev_live (s : State) (f : Dev → Dev) (h : s.dev.mode.dormant = false) :
    s.onDev f = .next { s with dev := f s.dev } := by simp [State.onDev, State.live, h]

@[simp] theorem State.live_live (s : State) (f : State → State) (h : s.dev.mode.dormant = false) :
    s.live f = .next (f s) := by simp [State.live, h]

theorem State.live_dormant (s : State) (f : State → State) (h : s.dev.mode.dormant = true) : s.live f = .next s := by
  simp [State.live, h]

theorem State.onDev_dormant (s : State) (f : Dev → Dev) (h : s.dev.mode.dormant = true) : s.onDev f = .next s := by
  simp [State.onDev, State.live, h]

/-! ### The device: updates of registers -/

@[simp] theorem Dev.wr_now (d : Dev) (a v : Nat) : (d.wr a v).now = d.now := rfl
@[simp] theorem Dev.wr_free (d : Dev) (a v : Nat) : (d.wr a v).free = d.free := rfl
@[simp] theorem Dev.wr_act (d : Dev) (a v : Nat) : (d.wr a v).act = d.act := rfl
@[simp] theorem Dev.wr_img (d : Dev) (a v : Nat) : (d.wr a v).img = d.img := rfl
@[simp] theorem Dev.wr_rails (d : Dev) (a v : Nat) : (d.wr a v).rails = d.rails := rfl
@[simp] theorem Dev.wr_slices (d : Dev) (a v : Nat) : (d.wr a v).slices = d.slices := rfl
@[simp] theorem Dev.wr_clusters (d : Dev) (a v : Nat) : (d.wr a v).clusters = d.clusters := rfl
@[simp] theorem Dev.wr_hm (d : Dev) (a v : Nat) : (d.wr a v).hm = d.hm := rfl
@[simp] theorem Dev.wr_chain (d : Dev) (a v : Nat) : (d.wr a v).chain = d.chain := rfl
@[simp] theorem Dev.wr_cfg (d : Dev) (a v : Nat) : (d.wr a v).cfg = d.cfg := rfl
@[simp] theorem Dev.wr_accum (d : Dev) (a v : Nat) : (d.wr a v).accum = d.accum := rfl
@[simp] theorem Dev.wr_log (d : Dev) (a v : Nat) : (d.wr a v).log = d.log := rfl
@[simp] theorem Dev.wr_stitch (d : Dev) (a v : Nat) : (d.wr a v).stitch = d.stitch := rfl
@[simp] theorem Dev.wr_mode (d : Dev) (a v : Nat) : (d.wr a v).mode = d.mode := rfl
@[simp] theorem Dev.wr_cpu (d : Dev) (a v : Nat) : (d.wr a v).cpu = d.cpu := rfl
@[simp] theorem Dev.wr_flash (d : Dev) (a v : Nat) : (d.wr a v).flash = d.flash := rfl
@[simp] theorem Dev.wr_sec (d : Dev) (a v : Nat) : (d.wr a v).sec = d.sec := rfl
@[simp] theorem Dev.wr_dma (d : Dev) (a v : Nat) : (d.wr a v).dma = d.dma := rfl
@[simp] theorem Dev.wr_host (d : Dev) (a v : Nat) : (d.wr a v).host = d.host := rfl
@[simp] theorem Dev.wr_uart (d : Dev) (a v : Nat) : (d.wr a v).uart = d.uart := rfl
@[simp] theorem Dev.wr_qspi (d : Dev) (a v : Nat) : (d.wr a v).qspi = d.qspi := rfl
@[simp] theorem Dev.wr_gpio (d : Dev) (a v : Nat) : (d.wr a v).gpio = d.gpio := rfl
@[simp] theorem Dev.wr_timer (d : Dev) (a v : Nat) : (d.wr a v).timer = d.timer := rfl
@[simp] theorem Dev.wr_bus (d : Dev) (a v : Nat) : (d.wr a v).bus = d.bus := rfl
@[simp] theorem Dev.setR_now (d : Dev) (g : Reg) (n v : Nat) : (d.setR g n v).now = d.now := rfl
@[simp] theorem Dev.setR_free (d : Dev) (g : Reg) (n v : Nat) : (d.setR g n v).free = d.free := rfl
@[simp] theorem Dev.setR_act (d : Dev) (g : Reg) (n v : Nat) : (d.setR g n v).act = d.act := rfl
@[simp] theorem Dev.setR_img (d : Dev) (g : Reg) (n v : Nat) : (d.setR g n v).img = d.img := rfl
@[simp] theorem Dev.setR_rails (d : Dev) (g : Reg) (n v : Nat) : (d.setR g n v).rails = d.rails := rfl
@[simp] theorem Dev.setR_slices (d : Dev) (g : Reg) (n v : Nat) : (d.setR g n v).slices = d.slices := rfl
@[simp] theorem Dev.setR_clusters (d : Dev) (g : Reg) (n v : Nat) : (d.setR g n v).clusters = d.clusters := rfl
@[simp] theorem Dev.setR_hm (d : Dev) (g : Reg) (n v : Nat) : (d.setR g n v).hm = d.hm := rfl
@[simp] theorem Dev.setR_chain (d : Dev) (g : Reg) (n v : Nat) : (d.setR g n v).chain = d.chain := rfl
@[simp] theorem Dev.setR_cfg (d : Dev) (g : Reg) (n v : Nat) : (d.setR g n v).cfg = d.cfg := rfl
@[simp] theorem Dev.setR_accum (d : Dev) (g : Reg) (n v : Nat) : (d.setR g n v).accum = d.accum := rfl
@[simp] theorem Dev.setR_log (d : Dev) (g : Reg) (n v : Nat) : (d.setR g n v).log = d.log := rfl
@[simp] theorem Dev.setR_stitch (d : Dev) (g : Reg) (n v : Nat) : (d.setR g n v).stitch = d.stitch := rfl
@[simp] theorem Dev.setR_mode (d : Dev) (g : Reg) (n v : Nat) : (d.setR g n v).mode = d.mode := rfl
@[simp] theorem Dev.setR_cpu (d : Dev) (g : Reg) (n v : Nat) : (d.setR g n v).cpu = d.cpu := rfl
@[simp] theorem Dev.setR_flash (d : Dev) (g : Reg) (n v : Nat) : (d.setR g n v).flash = d.flash := rfl
@[simp] theorem Dev.setR_sec (d : Dev) (g : Reg) (n v : Nat) : (d.setR g n v).sec = d.sec := rfl
@[simp] theorem Dev.setR_dma (d : Dev) (g : Reg) (n v : Nat) : (d.setR g n v).dma = d.dma := rfl
@[simp] theorem Dev.setR_host (d : Dev) (g : Reg) (n v : Nat) : (d.setR g n v).host = d.host := rfl
@[simp] theorem Dev.setR_uart (d : Dev) (g : Reg) (n v : Nat) : (d.setR g n v).uart = d.uart := rfl
@[simp] theorem Dev.setR_qspi (d : Dev) (g : Reg) (n v : Nat) : (d.setR g n v).qspi = d.qspi := rfl
@[simp] theorem Dev.setR_gpio (d : Dev) (g : Reg) (n v : Nat) : (d.setR g n v).gpio = d.gpio := rfl
@[simp] theorem Dev.setR_timer (d : Dev) (g : Reg) (n v : Nat) : (d.setR g n v).timer = d.timer := rfl
@[simp] theorem Dev.setR_bus (d : Dev) (g : Reg) (n v : Nat) : (d.setR g n v).bus = d.bus := rfl
@[simp] theorem Dev.setR2_now (d : Dev) (g : Reg) (n k v : Nat) : (d.setR2 g n k v).now = d.now := rfl
@[simp] theorem Dev.setR2_free (d : Dev) (g : Reg) (n k v : Nat) : (d.setR2 g n k v).free = d.free := rfl
@[simp] theorem Dev.setR2_act (d : Dev) (g : Reg) (n k v : Nat) : (d.setR2 g n k v).act = d.act := rfl
@[simp] theorem Dev.setR2_img (d : Dev) (g : Reg) (n k v : Nat) : (d.setR2 g n k v).img = d.img := rfl
@[simp] theorem Dev.setR2_rails (d : Dev) (g : Reg) (n k v : Nat) : (d.setR2 g n k v).rails = d.rails := rfl
@[simp] theorem Dev.setR2_slices (d : Dev) (g : Reg) (n k v : Nat) : (d.setR2 g n k v).slices = d.slices := rfl
@[simp] theorem Dev.setR2_clusters (d : Dev) (g : Reg) (n k v : Nat) : (d.setR2 g n k v).clusters = d.clusters := rfl
@[simp] theorem Dev.setR2_hm (d : Dev) (g : Reg) (n k v : Nat) : (d.setR2 g n k v).hm = d.hm := rfl
@[simp] theorem Dev.setR2_chain (d : Dev) (g : Reg) (n k v : Nat) : (d.setR2 g n k v).chain = d.chain := rfl
@[simp] theorem Dev.setR2_cfg (d : Dev) (g : Reg) (n k v : Nat) : (d.setR2 g n k v).cfg = d.cfg := rfl
@[simp] theorem Dev.setR2_accum (d : Dev) (g : Reg) (n k v : Nat) : (d.setR2 g n k v).accum = d.accum := rfl
@[simp] theorem Dev.setR2_log (d : Dev) (g : Reg) (n k v : Nat) : (d.setR2 g n k v).log = d.log := rfl
@[simp] theorem Dev.setR2_stitch (d : Dev) (g : Reg) (n k v : Nat) : (d.setR2 g n k v).stitch = d.stitch := rfl
@[simp] theorem Dev.setR2_mode (d : Dev) (g : Reg) (n k v : Nat) : (d.setR2 g n k v).mode = d.mode := rfl
@[simp] theorem Dev.setR2_cpu (d : Dev) (g : Reg) (n k v : Nat) : (d.setR2 g n k v).cpu = d.cpu := rfl
@[simp] theorem Dev.setR2_flash (d : Dev) (g : Reg) (n k v : Nat) : (d.setR2 g n k v).flash = d.flash := rfl
@[simp] theorem Dev.setR2_sec (d : Dev) (g : Reg) (n k v : Nat) : (d.setR2 g n k v).sec = d.sec := rfl
@[simp] theorem Dev.setR2_dma (d : Dev) (g : Reg) (n k v : Nat) : (d.setR2 g n k v).dma = d.dma := rfl
@[simp] theorem Dev.setR2_host (d : Dev) (g : Reg) (n k v : Nat) : (d.setR2 g n k v).host = d.host := rfl
@[simp] theorem Dev.setR2_uart (d : Dev) (g : Reg) (n k v : Nat) : (d.setR2 g n k v).uart = d.uart := rfl
@[simp] theorem Dev.setR2_qspi (d : Dev) (g : Reg) (n k v : Nat) : (d.setR2 g n k v).qspi = d.qspi := rfl
@[simp] theorem Dev.setR2_gpio (d : Dev) (g : Reg) (n k v : Nat) : (d.setR2 g n k v).gpio = d.gpio := rfl
@[simp] theorem Dev.setR2_timer (d : Dev) (g : Reg) (n k v : Nat) : (d.setR2 g n k v).timer = d.timer := rfl
@[simp] theorem Dev.setR2_bus (d : Dev) (g : Reg) (n k v : Nat) : (d.setR2 g n k v).bus = d.bus := rfl
@[simp] theorem Dev.setF_now (d : Dev) (x : Fld) (n v : Nat) : (d.setF x n v).now = d.now := rfl
@[simp] theorem Dev.setF_free (d : Dev) (x : Fld) (n v : Nat) : (d.setF x n v).free = d.free := rfl
@[simp] theorem Dev.setF_act (d : Dev) (x : Fld) (n v : Nat) : (d.setF x n v).act = d.act := rfl
@[simp] theorem Dev.setF_img (d : Dev) (x : Fld) (n v : Nat) : (d.setF x n v).img = d.img := rfl
@[simp] theorem Dev.setF_rails (d : Dev) (x : Fld) (n v : Nat) : (d.setF x n v).rails = d.rails := rfl
@[simp] theorem Dev.setF_slices (d : Dev) (x : Fld) (n v : Nat) : (d.setF x n v).slices = d.slices := rfl
@[simp] theorem Dev.setF_clusters (d : Dev) (x : Fld) (n v : Nat) : (d.setF x n v).clusters = d.clusters := rfl
@[simp] theorem Dev.setF_hm (d : Dev) (x : Fld) (n v : Nat) : (d.setF x n v).hm = d.hm := rfl
@[simp] theorem Dev.setF_chain (d : Dev) (x : Fld) (n v : Nat) : (d.setF x n v).chain = d.chain := rfl
@[simp] theorem Dev.setF_cfg (d : Dev) (x : Fld) (n v : Nat) : (d.setF x n v).cfg = d.cfg := rfl
@[simp] theorem Dev.setF_accum (d : Dev) (x : Fld) (n v : Nat) : (d.setF x n v).accum = d.accum := rfl
@[simp] theorem Dev.setF_log (d : Dev) (x : Fld) (n v : Nat) : (d.setF x n v).log = d.log := rfl
@[simp] theorem Dev.setF_stitch (d : Dev) (x : Fld) (n v : Nat) : (d.setF x n v).stitch = d.stitch := rfl
@[simp] theorem Dev.setF_mode (d : Dev) (x : Fld) (n v : Nat) : (d.setF x n v).mode = d.mode := rfl
@[simp] theorem Dev.setF_cpu (d : Dev) (x : Fld) (n v : Nat) : (d.setF x n v).cpu = d.cpu := rfl
@[simp] theorem Dev.setF_flash (d : Dev) (x : Fld) (n v : Nat) : (d.setF x n v).flash = d.flash := rfl
@[simp] theorem Dev.setF_sec (d : Dev) (x : Fld) (n v : Nat) : (d.setF x n v).sec = d.sec := rfl
@[simp] theorem Dev.setF_dma (d : Dev) (x : Fld) (n v : Nat) : (d.setF x n v).dma = d.dma := rfl
@[simp] theorem Dev.setF_host (d : Dev) (x : Fld) (n v : Nat) : (d.setF x n v).host = d.host := rfl
@[simp] theorem Dev.setF_uart (d : Dev) (x : Fld) (n v : Nat) : (d.setF x n v).uart = d.uart := rfl
@[simp] theorem Dev.setF_qspi (d : Dev) (x : Fld) (n v : Nat) : (d.setF x n v).qspi = d.qspi := rfl
@[simp] theorem Dev.setF_gpio (d : Dev) (x : Fld) (n v : Nat) : (d.setF x n v).gpio = d.gpio := rfl
@[simp] theorem Dev.setF_timer (d : Dev) (x : Fld) (n v : Nat) : (d.setF x n v).timer = d.timer := rfl
@[simp] theorem Dev.setF_bus (d : Dev) (x : Fld) (n v : Nat) : (d.setF x n v).bus = d.bus := rfl
@[simp] theorem Dev.setFs_now (d : Dev) (x : Fld) (n : Nat) (v : Int) : (d.setFs x n v).now = d.now := rfl
@[simp] theorem Dev.setFs_free (d : Dev) (x : Fld) (n : Nat) (v : Int) : (d.setFs x n v).free = d.free := rfl
@[simp] theorem Dev.setFs_act (d : Dev) (x : Fld) (n : Nat) (v : Int) : (d.setFs x n v).act = d.act := rfl
@[simp] theorem Dev.setFs_img (d : Dev) (x : Fld) (n : Nat) (v : Int) : (d.setFs x n v).img = d.img := rfl
@[simp] theorem Dev.setFs_rails (d : Dev) (x : Fld) (n : Nat) (v : Int) : (d.setFs x n v).rails = d.rails := rfl
@[simp] theorem Dev.setFs_slices (d : Dev) (x : Fld) (n : Nat) (v : Int) : (d.setFs x n v).slices = d.slices := rfl
@[simp] theorem Dev.setFs_clusters (d : Dev) (x : Fld) (n : Nat) (v : Int) : (d.setFs x n v).clusters = d.clusters := rfl
@[simp] theorem Dev.setFs_hm (d : Dev) (x : Fld) (n : Nat) (v : Int) : (d.setFs x n v).hm = d.hm := rfl
@[simp] theorem Dev.setFs_chain (d : Dev) (x : Fld) (n : Nat) (v : Int) : (d.setFs x n v).chain = d.chain := rfl
@[simp] theorem Dev.setFs_cfg (d : Dev) (x : Fld) (n : Nat) (v : Int) : (d.setFs x n v).cfg = d.cfg := rfl
@[simp] theorem Dev.setFs_accum (d : Dev) (x : Fld) (n : Nat) (v : Int) : (d.setFs x n v).accum = d.accum := rfl
@[simp] theorem Dev.setFs_log (d : Dev) (x : Fld) (n : Nat) (v : Int) : (d.setFs x n v).log = d.log := rfl
@[simp] theorem Dev.setFs_stitch (d : Dev) (x : Fld) (n : Nat) (v : Int) : (d.setFs x n v).stitch = d.stitch := rfl
@[simp] theorem Dev.setFs_mode (d : Dev) (x : Fld) (n : Nat) (v : Int) : (d.setFs x n v).mode = d.mode := rfl
@[simp] theorem Dev.setFs_cpu (d : Dev) (x : Fld) (n : Nat) (v : Int) : (d.setFs x n v).cpu = d.cpu := rfl
@[simp] theorem Dev.setFs_flash (d : Dev) (x : Fld) (n : Nat) (v : Int) : (d.setFs x n v).flash = d.flash := rfl
@[simp] theorem Dev.setFs_sec (d : Dev) (x : Fld) (n : Nat) (v : Int) : (d.setFs x n v).sec = d.sec := rfl
@[simp] theorem Dev.setFs_dma (d : Dev) (x : Fld) (n : Nat) (v : Int) : (d.setFs x n v).dma = d.dma := rfl
@[simp] theorem Dev.setFs_host (d : Dev) (x : Fld) (n : Nat) (v : Int) : (d.setFs x n v).host = d.host := rfl
@[simp] theorem Dev.setFs_uart (d : Dev) (x : Fld) (n : Nat) (v : Int) : (d.setFs x n v).uart = d.uart := rfl
@[simp] theorem Dev.setFs_qspi (d : Dev) (x : Fld) (n : Nat) (v : Int) : (d.setFs x n v).qspi = d.qspi := rfl
@[simp] theorem Dev.setFs_gpio (d : Dev) (x : Fld) (n : Nat) (v : Int) : (d.setFs x n v).gpio = d.gpio := rfl
@[simp] theorem Dev.setFs_timer (d : Dev) (x : Fld) (n : Nat) (v : Int) : (d.setFs x n v).timer = d.timer := rfl
@[simp] theorem Dev.setFs_bus (d : Dev) (x : Fld) (n : Nat) (v : Int) : (d.setFs x n v).bus = d.bus := rfl
@[simp] theorem Dev.setB_now (d : Dev) (x : Fld) (n : Nat) (v : Bool) : (d.setB x n v).now = d.now := rfl
@[simp] theorem Dev.setB_free (d : Dev) (x : Fld) (n : Nat) (v : Bool) : (d.setB x n v).free = d.free := rfl
@[simp] theorem Dev.setB_act (d : Dev) (x : Fld) (n : Nat) (v : Bool) : (d.setB x n v).act = d.act := rfl
@[simp] theorem Dev.setB_img (d : Dev) (x : Fld) (n : Nat) (v : Bool) : (d.setB x n v).img = d.img := rfl
@[simp] theorem Dev.setB_rails (d : Dev) (x : Fld) (n : Nat) (v : Bool) : (d.setB x n v).rails = d.rails := rfl
@[simp] theorem Dev.setB_slices (d : Dev) (x : Fld) (n : Nat) (v : Bool) : (d.setB x n v).slices = d.slices := rfl
@[simp] theorem Dev.setB_clusters (d : Dev) (x : Fld) (n : Nat) (v : Bool) : (d.setB x n v).clusters = d.clusters := rfl
@[simp] theorem Dev.setB_hm (d : Dev) (x : Fld) (n : Nat) (v : Bool) : (d.setB x n v).hm = d.hm := rfl
@[simp] theorem Dev.setB_chain (d : Dev) (x : Fld) (n : Nat) (v : Bool) : (d.setB x n v).chain = d.chain := rfl
@[simp] theorem Dev.setB_cfg (d : Dev) (x : Fld) (n : Nat) (v : Bool) : (d.setB x n v).cfg = d.cfg := rfl
@[simp] theorem Dev.setB_accum (d : Dev) (x : Fld) (n : Nat) (v : Bool) : (d.setB x n v).accum = d.accum := rfl
@[simp] theorem Dev.setB_log (d : Dev) (x : Fld) (n : Nat) (v : Bool) : (d.setB x n v).log = d.log := rfl
@[simp] theorem Dev.setB_stitch (d : Dev) (x : Fld) (n : Nat) (v : Bool) : (d.setB x n v).stitch = d.stitch := rfl
@[simp] theorem Dev.setB_mode (d : Dev) (x : Fld) (n : Nat) (v : Bool) : (d.setB x n v).mode = d.mode := rfl
@[simp] theorem Dev.setB_cpu (d : Dev) (x : Fld) (n : Nat) (v : Bool) : (d.setB x n v).cpu = d.cpu := rfl
@[simp] theorem Dev.setB_flash (d : Dev) (x : Fld) (n : Nat) (v : Bool) : (d.setB x n v).flash = d.flash := rfl
@[simp] theorem Dev.setB_sec (d : Dev) (x : Fld) (n : Nat) (v : Bool) : (d.setB x n v).sec = d.sec := rfl
@[simp] theorem Dev.setB_dma (d : Dev) (x : Fld) (n : Nat) (v : Bool) : (d.setB x n v).dma = d.dma := rfl
@[simp] theorem Dev.setB_host (d : Dev) (x : Fld) (n : Nat) (v : Bool) : (d.setB x n v).host = d.host := rfl
@[simp] theorem Dev.setB_uart (d : Dev) (x : Fld) (n : Nat) (v : Bool) : (d.setB x n v).uart = d.uart := rfl
@[simp] theorem Dev.setB_qspi (d : Dev) (x : Fld) (n : Nat) (v : Bool) : (d.setB x n v).qspi = d.qspi := rfl
@[simp] theorem Dev.setB_gpio (d : Dev) (x : Fld) (n : Nat) (v : Bool) : (d.setB x n v).gpio = d.gpio := rfl
@[simp] theorem Dev.setB_timer (d : Dev) (x : Fld) (n : Nat) (v : Bool) : (d.setB x n v).timer = d.timer := rfl
@[simp] theorem Dev.setB_bus (d : Dev) (x : Fld) (n : Nat) (v : Bool) : (d.setB x n v).bus = d.bus := rfl
@[simp] theorem Dev.raise_now (d : Dev) (x : Fld) (n : Nat) : (d.raise x n).now = d.now := rfl
@[simp] theorem Dev.raise_free (d : Dev) (x : Fld) (n : Nat) : (d.raise x n).free = d.free := rfl
@[simp] theorem Dev.raise_act (d : Dev) (x : Fld) (n : Nat) : (d.raise x n).act = d.act := rfl
@[simp] theorem Dev.raise_img (d : Dev) (x : Fld) (n : Nat) : (d.raise x n).img = d.img := rfl
@[simp] theorem Dev.raise_rails (d : Dev) (x : Fld) (n : Nat) : (d.raise x n).rails = d.rails := rfl
@[simp] theorem Dev.raise_slices (d : Dev) (x : Fld) (n : Nat) : (d.raise x n).slices = d.slices := rfl
@[simp] theorem Dev.raise_clusters (d : Dev) (x : Fld) (n : Nat) : (d.raise x n).clusters = d.clusters := rfl
@[simp] theorem Dev.raise_hm (d : Dev) (x : Fld) (n : Nat) : (d.raise x n).hm = d.hm := rfl
@[simp] theorem Dev.raise_chain (d : Dev) (x : Fld) (n : Nat) : (d.raise x n).chain = d.chain := rfl
@[simp] theorem Dev.raise_cfg (d : Dev) (x : Fld) (n : Nat) : (d.raise x n).cfg = d.cfg := rfl
@[simp] theorem Dev.raise_accum (d : Dev) (x : Fld) (n : Nat) : (d.raise x n).accum = d.accum := rfl
@[simp] theorem Dev.raise_log (d : Dev) (x : Fld) (n : Nat) : (d.raise x n).log = d.log := rfl
@[simp] theorem Dev.raise_stitch (d : Dev) (x : Fld) (n : Nat) : (d.raise x n).stitch = d.stitch := rfl
@[simp] theorem Dev.raise_mode (d : Dev) (x : Fld) (n : Nat) : (d.raise x n).mode = d.mode := rfl
@[simp] theorem Dev.raise_cpu (d : Dev) (x : Fld) (n : Nat) : (d.raise x n).cpu = d.cpu := rfl
@[simp] theorem Dev.raise_flash (d : Dev) (x : Fld) (n : Nat) : (d.raise x n).flash = d.flash := rfl
@[simp] theorem Dev.raise_sec (d : Dev) (x : Fld) (n : Nat) : (d.raise x n).sec = d.sec := rfl
@[simp] theorem Dev.raise_dma (d : Dev) (x : Fld) (n : Nat) : (d.raise x n).dma = d.dma := rfl
@[simp] theorem Dev.raise_host (d : Dev) (x : Fld) (n : Nat) : (d.raise x n).host = d.host := rfl
@[simp] theorem Dev.raise_uart (d : Dev) (x : Fld) (n : Nat) : (d.raise x n).uart = d.uart := rfl
@[simp] theorem Dev.raise_qspi (d : Dev) (x : Fld) (n : Nat) : (d.raise x n).qspi = d.qspi := rfl
@[simp] theorem Dev.raise_gpio (d : Dev) (x : Fld) (n : Nat) : (d.raise x n).gpio = d.gpio := rfl
@[simp] theorem Dev.raise_timer (d : Dev) (x : Fld) (n : Nat) : (d.raise x n).timer = d.timer := rfl
@[simp] theorem Dev.raise_bus (d : Dev) (x : Fld) (n : Nat) : (d.raise x n).bus = d.bus := rfl
@[simp] theorem Dev.incSat_now (d : Dev) (x : Fld) (n k : Nat) : (d.incSat x n k).now = d.now := rfl
@[simp] theorem Dev.incSat_free (d : Dev) (x : Fld) (n k : Nat) : (d.incSat x n k).free = d.free := rfl
@[simp] theorem Dev.incSat_act (d : Dev) (x : Fld) (n k : Nat) : (d.incSat x n k).act = d.act := rfl
@[simp] theorem Dev.incSat_img (d : Dev) (x : Fld) (n k : Nat) : (d.incSat x n k).img = d.img := rfl
@[simp] theorem Dev.incSat_rails (d : Dev) (x : Fld) (n k : Nat) : (d.incSat x n k).rails = d.rails := rfl
@[simp] theorem Dev.incSat_slices (d : Dev) (x : Fld) (n k : Nat) : (d.incSat x n k).slices = d.slices := rfl
@[simp] theorem Dev.incSat_clusters (d : Dev) (x : Fld) (n k : Nat) : (d.incSat x n k).clusters = d.clusters := rfl
@[simp] theorem Dev.incSat_hm (d : Dev) (x : Fld) (n k : Nat) : (d.incSat x n k).hm = d.hm := rfl
@[simp] theorem Dev.incSat_chain (d : Dev) (x : Fld) (n k : Nat) : (d.incSat x n k).chain = d.chain := rfl
@[simp] theorem Dev.incSat_cfg (d : Dev) (x : Fld) (n k : Nat) : (d.incSat x n k).cfg = d.cfg := rfl
@[simp] theorem Dev.incSat_accum (d : Dev) (x : Fld) (n k : Nat) : (d.incSat x n k).accum = d.accum := rfl
@[simp] theorem Dev.incSat_log (d : Dev) (x : Fld) (n k : Nat) : (d.incSat x n k).log = d.log := rfl
@[simp] theorem Dev.incSat_stitch (d : Dev) (x : Fld) (n k : Nat) : (d.incSat x n k).stitch = d.stitch := rfl
@[simp] theorem Dev.incSat_mode (d : Dev) (x : Fld) (n k : Nat) : (d.incSat x n k).mode = d.mode := rfl
@[simp] theorem Dev.incSat_cpu (d : Dev) (x : Fld) (n k : Nat) : (d.incSat x n k).cpu = d.cpu := rfl
@[simp] theorem Dev.incSat_flash (d : Dev) (x : Fld) (n k : Nat) : (d.incSat x n k).flash = d.flash := rfl
@[simp] theorem Dev.incSat_sec (d : Dev) (x : Fld) (n k : Nat) : (d.incSat x n k).sec = d.sec := rfl
@[simp] theorem Dev.incSat_dma (d : Dev) (x : Fld) (n k : Nat) : (d.incSat x n k).dma = d.dma := rfl
@[simp] theorem Dev.incSat_host (d : Dev) (x : Fld) (n k : Nat) : (d.incSat x n k).host = d.host := rfl
@[simp] theorem Dev.incSat_uart (d : Dev) (x : Fld) (n k : Nat) : (d.incSat x n k).uart = d.uart := rfl
@[simp] theorem Dev.incSat_qspi (d : Dev) (x : Fld) (n k : Nat) : (d.incSat x n k).qspi = d.qspi := rfl
@[simp] theorem Dev.incSat_gpio (d : Dev) (x : Fld) (n k : Nat) : (d.incSat x n k).gpio = d.gpio := rfl
@[simp] theorem Dev.incSat_timer (d : Dev) (x : Fld) (n k : Nat) : (d.incSat x n k).timer = d.timer := rfl
@[simp] theorem Dev.incSat_bus (d : Dev) (x : Fld) (n k : Nat) : (d.incSat x n k).bus = d.bus := rfl
@[simp] theorem Dev.inc_now (d : Dev) (x : Fld) (n : Nat) : (d.inc x n).now = d.now := rfl
@[simp] theorem Dev.inc_free (d : Dev) (x : Fld) (n : Nat) : (d.inc x n).free = d.free := rfl
@[simp] theorem Dev.inc_act (d : Dev) (x : Fld) (n : Nat) : (d.inc x n).act = d.act := rfl
@[simp] theorem Dev.inc_img (d : Dev) (x : Fld) (n : Nat) : (d.inc x n).img = d.img := rfl
@[simp] theorem Dev.inc_rails (d : Dev) (x : Fld) (n : Nat) : (d.inc x n).rails = d.rails := rfl
@[simp] theorem Dev.inc_slices (d : Dev) (x : Fld) (n : Nat) : (d.inc x n).slices = d.slices := rfl
@[simp] theorem Dev.inc_clusters (d : Dev) (x : Fld) (n : Nat) : (d.inc x n).clusters = d.clusters := rfl
@[simp] theorem Dev.inc_hm (d : Dev) (x : Fld) (n : Nat) : (d.inc x n).hm = d.hm := rfl
@[simp] theorem Dev.inc_chain (d : Dev) (x : Fld) (n : Nat) : (d.inc x n).chain = d.chain := rfl
@[simp] theorem Dev.inc_cfg (d : Dev) (x : Fld) (n : Nat) : (d.inc x n).cfg = d.cfg := rfl
@[simp] theorem Dev.inc_accum (d : Dev) (x : Fld) (n : Nat) : (d.inc x n).accum = d.accum := rfl
@[simp] theorem Dev.inc_log (d : Dev) (x : Fld) (n : Nat) : (d.inc x n).log = d.log := rfl
@[simp] theorem Dev.inc_stitch (d : Dev) (x : Fld) (n : Nat) : (d.inc x n).stitch = d.stitch := rfl
@[simp] theorem Dev.inc_mode (d : Dev) (x : Fld) (n : Nat) : (d.inc x n).mode = d.mode := rfl
@[simp] theorem Dev.inc_cpu (d : Dev) (x : Fld) (n : Nat) : (d.inc x n).cpu = d.cpu := rfl
@[simp] theorem Dev.inc_flash (d : Dev) (x : Fld) (n : Nat) : (d.inc x n).flash = d.flash := rfl
@[simp] theorem Dev.inc_sec (d : Dev) (x : Fld) (n : Nat) : (d.inc x n).sec = d.sec := rfl
@[simp] theorem Dev.inc_dma (d : Dev) (x : Fld) (n : Nat) : (d.inc x n).dma = d.dma := rfl
@[simp] theorem Dev.inc_host (d : Dev) (x : Fld) (n : Nat) : (d.inc x n).host = d.host := rfl
@[simp] theorem Dev.inc_uart (d : Dev) (x : Fld) (n : Nat) : (d.inc x n).uart = d.uart := rfl
@[simp] theorem Dev.inc_qspi (d : Dev) (x : Fld) (n : Nat) : (d.inc x n).qspi = d.qspi := rfl
@[simp] theorem Dev.inc_gpio (d : Dev) (x : Fld) (n : Nat) : (d.inc x n).gpio = d.gpio := rfl
@[simp] theorem Dev.inc_timer (d : Dev) (x : Fld) (n : Nat) : (d.inc x n).timer = d.timer := rfl
@[simp] theorem Dev.inc_bus (d : Dev) (x : Fld) (n : Nat) : (d.inc x n).bus = d.bus := rfl

/-! ### The device: updates of structures -/

@[simp] theorem Dev.setAr_now (d : Dev) (a v : Nat) : (d.setAr a v).now = d.now := rfl
@[simp] theorem Dev.setAr_free (d : Dev) (a v : Nat) : (d.setAr a v).free = d.free := rfl
@[simp] theorem Dev.setAr_regs (d : Dev) (a v : Nat) : (d.setAr a v).regs = d.regs := rfl
@[simp] theorem Dev.setAr_img (d : Dev) (a v : Nat) : (d.setAr a v).img = d.img := rfl
@[simp] theorem Dev.setAr_rails (d : Dev) (a v : Nat) : (d.setAr a v).rails = d.rails := rfl
@[simp] theorem Dev.setAr_slices (d : Dev) (a v : Nat) : (d.setAr a v).slices = d.slices := rfl
@[simp] theorem Dev.setAr_clusters (d : Dev) (a v : Nat) : (d.setAr a v).clusters = d.clusters := rfl
@[simp] theorem Dev.setAr_hm (d : Dev) (a v : Nat) : (d.setAr a v).hm = d.hm := rfl
@[simp] theorem Dev.setAr_chain (d : Dev) (a v : Nat) : (d.setAr a v).chain = d.chain := rfl
@[simp] theorem Dev.setAr_cfg (d : Dev) (a v : Nat) : (d.setAr a v).cfg = d.cfg := rfl
@[simp] theorem Dev.setAr_accum (d : Dev) (a v : Nat) : (d.setAr a v).accum = d.accum := rfl
@[simp] theorem Dev.setAr_log (d : Dev) (a v : Nat) : (d.setAr a v).log = d.log := rfl
@[simp] theorem Dev.setAr_stitch (d : Dev) (a v : Nat) : (d.setAr a v).stitch = d.stitch := rfl
@[simp] theorem Dev.setAr_mode (d : Dev) (a v : Nat) : (d.setAr a v).mode = d.mode := rfl
@[simp] theorem Dev.setAr_cpu (d : Dev) (a v : Nat) : (d.setAr a v).cpu = d.cpu := rfl
@[simp] theorem Dev.setAr_flash (d : Dev) (a v : Nat) : (d.setAr a v).flash = d.flash := rfl
@[simp] theorem Dev.setAr_sec (d : Dev) (a v : Nat) : (d.setAr a v).sec = d.sec := rfl
@[simp] theorem Dev.setAr_dma (d : Dev) (a v : Nat) : (d.setAr a v).dma = d.dma := rfl
@[simp] theorem Dev.setAr_host (d : Dev) (a v : Nat) : (d.setAr a v).host = d.host := rfl
@[simp] theorem Dev.setAr_uart (d : Dev) (a v : Nat) : (d.setAr a v).uart = d.uart := rfl
@[simp] theorem Dev.setAr_qspi (d : Dev) (a v : Nat) : (d.setAr a v).qspi = d.qspi := rfl
@[simp] theorem Dev.setAr_gpio (d : Dev) (a v : Nat) : (d.setAr a v).gpio = d.gpio := rfl
@[simp] theorem Dev.setAr_timer (d : Dev) (a v : Nat) : (d.setAr a v).timer = d.timer := rfl
@[simp] theorem Dev.setAr_bus (d : Dev) (a v : Nat) : (d.setAr a v).bus = d.bus := rfl
@[simp] theorem Dev.setIm_now (d : Dev) (a v : Nat) : (d.setIm a v).now = d.now := rfl
@[simp] theorem Dev.setIm_free (d : Dev) (a v : Nat) : (d.setIm a v).free = d.free := rfl
@[simp] theorem Dev.setIm_regs (d : Dev) (a v : Nat) : (d.setIm a v).regs = d.regs := rfl
@[simp] theorem Dev.setIm_act (d : Dev) (a v : Nat) : (d.setIm a v).act = d.act := rfl
@[simp] theorem Dev.setIm_rails (d : Dev) (a v : Nat) : (d.setIm a v).rails = d.rails := rfl
@[simp] theorem Dev.setIm_slices (d : Dev) (a v : Nat) : (d.setIm a v).slices = d.slices := rfl
@[simp] theorem Dev.setIm_clusters (d : Dev) (a v : Nat) : (d.setIm a v).clusters = d.clusters := rfl
@[simp] theorem Dev.setIm_hm (d : Dev) (a v : Nat) : (d.setIm a v).hm = d.hm := rfl
@[simp] theorem Dev.setIm_chain (d : Dev) (a v : Nat) : (d.setIm a v).chain = d.chain := rfl
@[simp] theorem Dev.setIm_cfg (d : Dev) (a v : Nat) : (d.setIm a v).cfg = d.cfg := rfl
@[simp] theorem Dev.setIm_accum (d : Dev) (a v : Nat) : (d.setIm a v).accum = d.accum := rfl
@[simp] theorem Dev.setIm_log (d : Dev) (a v : Nat) : (d.setIm a v).log = d.log := rfl
@[simp] theorem Dev.setIm_stitch (d : Dev) (a v : Nat) : (d.setIm a v).stitch = d.stitch := rfl
@[simp] theorem Dev.setIm_mode (d : Dev) (a v : Nat) : (d.setIm a v).mode = d.mode := rfl
@[simp] theorem Dev.setIm_cpu (d : Dev) (a v : Nat) : (d.setIm a v).cpu = d.cpu := rfl
@[simp] theorem Dev.setIm_flash (d : Dev) (a v : Nat) : (d.setIm a v).flash = d.flash := rfl
@[simp] theorem Dev.setIm_sec (d : Dev) (a v : Nat) : (d.setIm a v).sec = d.sec := rfl
@[simp] theorem Dev.setIm_dma (d : Dev) (a v : Nat) : (d.setIm a v).dma = d.dma := rfl
@[simp] theorem Dev.setIm_host (d : Dev) (a v : Nat) : (d.setIm a v).host = d.host := rfl
@[simp] theorem Dev.setIm_uart (d : Dev) (a v : Nat) : (d.setIm a v).uart = d.uart := rfl
@[simp] theorem Dev.setIm_qspi (d : Dev) (a v : Nat) : (d.setIm a v).qspi = d.qspi := rfl
@[simp] theorem Dev.setIm_gpio (d : Dev) (a v : Nat) : (d.setIm a v).gpio = d.gpio := rfl
@[simp] theorem Dev.setIm_timer (d : Dev) (a v : Nat) : (d.setIm a v).timer = d.timer := rfl
@[simp] theorem Dev.setIm_bus (d : Dev) (a v : Nat) : (d.setIm a v).bus = d.bus := rfl
@[simp] theorem Dev.setRail_now (d : Dev) (n : Nat) (x : RailSt) : (d.setRail n x).now = d.now := rfl
@[simp] theorem Dev.setRail_free (d : Dev) (n : Nat) (x : RailSt) : (d.setRail n x).free = d.free := rfl
@[simp] theorem Dev.setRail_regs (d : Dev) (n : Nat) (x : RailSt) : (d.setRail n x).regs = d.regs := rfl
@[simp] theorem Dev.setRail_act (d : Dev) (n : Nat) (x : RailSt) : (d.setRail n x).act = d.act := rfl
@[simp] theorem Dev.setRail_img (d : Dev) (n : Nat) (x : RailSt) : (d.setRail n x).img = d.img := rfl
@[simp] theorem Dev.setRail_slices (d : Dev) (n : Nat) (x : RailSt) : (d.setRail n x).slices = d.slices := rfl
@[simp] theorem Dev.setRail_clusters (d : Dev) (n : Nat) (x : RailSt) : (d.setRail n x).clusters = d.clusters := rfl
@[simp] theorem Dev.setRail_hm (d : Dev) (n : Nat) (x : RailSt) : (d.setRail n x).hm = d.hm := rfl
@[simp] theorem Dev.setRail_chain (d : Dev) (n : Nat) (x : RailSt) : (d.setRail n x).chain = d.chain := rfl
@[simp] theorem Dev.setRail_cfg (d : Dev) (n : Nat) (x : RailSt) : (d.setRail n x).cfg = d.cfg := rfl
@[simp] theorem Dev.setRail_accum (d : Dev) (n : Nat) (x : RailSt) : (d.setRail n x).accum = d.accum := rfl
@[simp] theorem Dev.setRail_log (d : Dev) (n : Nat) (x : RailSt) : (d.setRail n x).log = d.log := rfl
@[simp] theorem Dev.setRail_stitch (d : Dev) (n : Nat) (x : RailSt) : (d.setRail n x).stitch = d.stitch := rfl
@[simp] theorem Dev.setRail_mode (d : Dev) (n : Nat) (x : RailSt) : (d.setRail n x).mode = d.mode := rfl
@[simp] theorem Dev.setRail_cpu (d : Dev) (n : Nat) (x : RailSt) : (d.setRail n x).cpu = d.cpu := rfl
@[simp] theorem Dev.setRail_flash (d : Dev) (n : Nat) (x : RailSt) : (d.setRail n x).flash = d.flash := rfl
@[simp] theorem Dev.setRail_sec (d : Dev) (n : Nat) (x : RailSt) : (d.setRail n x).sec = d.sec := rfl
@[simp] theorem Dev.setRail_dma (d : Dev) (n : Nat) (x : RailSt) : (d.setRail n x).dma = d.dma := rfl
@[simp] theorem Dev.setRail_host (d : Dev) (n : Nat) (x : RailSt) : (d.setRail n x).host = d.host := rfl
@[simp] theorem Dev.setRail_uart (d : Dev) (n : Nat) (x : RailSt) : (d.setRail n x).uart = d.uart := rfl
@[simp] theorem Dev.setRail_qspi (d : Dev) (n : Nat) (x : RailSt) : (d.setRail n x).qspi = d.qspi := rfl
@[simp] theorem Dev.setRail_gpio (d : Dev) (n : Nat) (x : RailSt) : (d.setRail n x).gpio = d.gpio := rfl
@[simp] theorem Dev.setRail_timer (d : Dev) (n : Nat) (x : RailSt) : (d.setRail n x).timer = d.timer := rfl
@[simp] theorem Dev.setRail_bus (d : Dev) (n : Nat) (x : RailSt) : (d.setRail n x).bus = d.bus := rfl
@[simp] theorem Dev.modRail_now (d : Dev) (n : Nat) (f : RailSt → RailSt) : (d.modRail n f).now = d.now := rfl
@[simp] theorem Dev.modRail_free (d : Dev) (n : Nat) (f : RailSt → RailSt) : (d.modRail n f).free = d.free := rfl
@[simp] theorem Dev.modRail_regs (d : Dev) (n : Nat) (f : RailSt → RailSt) : (d.modRail n f).regs = d.regs := rfl
@[simp] theorem Dev.modRail_act (d : Dev) (n : Nat) (f : RailSt → RailSt) : (d.modRail n f).act = d.act := rfl
@[simp] theorem Dev.modRail_img (d : Dev) (n : Nat) (f : RailSt → RailSt) : (d.modRail n f).img = d.img := rfl
@[simp] theorem Dev.modRail_slices (d : Dev) (n : Nat) (f : RailSt → RailSt) : (d.modRail n f).slices = d.slices := rfl
@[simp] theorem Dev.modRail_clusters (d : Dev) (n : Nat) (f : RailSt → RailSt) : (d.modRail n f).clusters = d.clusters := rfl
@[simp] theorem Dev.modRail_hm (d : Dev) (n : Nat) (f : RailSt → RailSt) : (d.modRail n f).hm = d.hm := rfl
@[simp] theorem Dev.modRail_chain (d : Dev) (n : Nat) (f : RailSt → RailSt) : (d.modRail n f).chain = d.chain := rfl
@[simp] theorem Dev.modRail_cfg (d : Dev) (n : Nat) (f : RailSt → RailSt) : (d.modRail n f).cfg = d.cfg := rfl
@[simp] theorem Dev.modRail_accum (d : Dev) (n : Nat) (f : RailSt → RailSt) : (d.modRail n f).accum = d.accum := rfl
@[simp] theorem Dev.modRail_log (d : Dev) (n : Nat) (f : RailSt → RailSt) : (d.modRail n f).log = d.log := rfl
@[simp] theorem Dev.modRail_stitch (d : Dev) (n : Nat) (f : RailSt → RailSt) : (d.modRail n f).stitch = d.stitch := rfl
@[simp] theorem Dev.modRail_mode (d : Dev) (n : Nat) (f : RailSt → RailSt) : (d.modRail n f).mode = d.mode := rfl
@[simp] theorem Dev.modRail_cpu (d : Dev) (n : Nat) (f : RailSt → RailSt) : (d.modRail n f).cpu = d.cpu := rfl
@[simp] theorem Dev.modRail_flash (d : Dev) (n : Nat) (f : RailSt → RailSt) : (d.modRail n f).flash = d.flash := rfl
@[simp] theorem Dev.modRail_sec (d : Dev) (n : Nat) (f : RailSt → RailSt) : (d.modRail n f).sec = d.sec := rfl
@[simp] theorem Dev.modRail_dma (d : Dev) (n : Nat) (f : RailSt → RailSt) : (d.modRail n f).dma = d.dma := rfl
@[simp] theorem Dev.modRail_host (d : Dev) (n : Nat) (f : RailSt → RailSt) : (d.modRail n f).host = d.host := rfl
@[simp] theorem Dev.modRail_uart (d : Dev) (n : Nat) (f : RailSt → RailSt) : (d.modRail n f).uart = d.uart := rfl
@[simp] theorem Dev.modRail_qspi (d : Dev) (n : Nat) (f : RailSt → RailSt) : (d.modRail n f).qspi = d.qspi := rfl
@[simp] theorem Dev.modRail_gpio (d : Dev) (n : Nat) (f : RailSt → RailSt) : (d.modRail n f).gpio = d.gpio := rfl
@[simp] theorem Dev.modRail_timer (d : Dev) (n : Nat) (f : RailSt → RailSt) : (d.modRail n f).timer = d.timer := rfl
@[simp] theorem Dev.modRail_bus (d : Dev) (n : Nat) (f : RailSt → RailSt) : (d.modRail n f).bus = d.bus := rfl
@[simp] theorem Dev.setSlice_now (d : Dev) (i : Nat) (x : SliceSt) : (d.setSlice i x).now = d.now := rfl
@[simp] theorem Dev.setSlice_free (d : Dev) (i : Nat) (x : SliceSt) : (d.setSlice i x).free = d.free := rfl
@[simp] theorem Dev.setSlice_regs (d : Dev) (i : Nat) (x : SliceSt) : (d.setSlice i x).regs = d.regs := rfl
@[simp] theorem Dev.setSlice_act (d : Dev) (i : Nat) (x : SliceSt) : (d.setSlice i x).act = d.act := rfl
@[simp] theorem Dev.setSlice_img (d : Dev) (i : Nat) (x : SliceSt) : (d.setSlice i x).img = d.img := rfl
@[simp] theorem Dev.setSlice_rails (d : Dev) (i : Nat) (x : SliceSt) : (d.setSlice i x).rails = d.rails := rfl
@[simp] theorem Dev.setSlice_clusters (d : Dev) (i : Nat) (x : SliceSt) : (d.setSlice i x).clusters = d.clusters := rfl
@[simp] theorem Dev.setSlice_hm (d : Dev) (i : Nat) (x : SliceSt) : (d.setSlice i x).hm = d.hm := rfl
@[simp] theorem Dev.setSlice_chain (d : Dev) (i : Nat) (x : SliceSt) : (d.setSlice i x).chain = d.chain := rfl
@[simp] theorem Dev.setSlice_cfg (d : Dev) (i : Nat) (x : SliceSt) : (d.setSlice i x).cfg = d.cfg := rfl
@[simp] theorem Dev.setSlice_accum (d : Dev) (i : Nat) (x : SliceSt) : (d.setSlice i x).accum = d.accum := rfl
@[simp] theorem Dev.setSlice_log (d : Dev) (i : Nat) (x : SliceSt) : (d.setSlice i x).log = d.log := rfl
@[simp] theorem Dev.setSlice_stitch (d : Dev) (i : Nat) (x : SliceSt) : (d.setSlice i x).stitch = d.stitch := rfl
@[simp] theorem Dev.setSlice_mode (d : Dev) (i : Nat) (x : SliceSt) : (d.setSlice i x).mode = d.mode := rfl
@[simp] theorem Dev.setSlice_cpu (d : Dev) (i : Nat) (x : SliceSt) : (d.setSlice i x).cpu = d.cpu := rfl
@[simp] theorem Dev.setSlice_flash (d : Dev) (i : Nat) (x : SliceSt) : (d.setSlice i x).flash = d.flash := rfl
@[simp] theorem Dev.setSlice_sec (d : Dev) (i : Nat) (x : SliceSt) : (d.setSlice i x).sec = d.sec := rfl
@[simp] theorem Dev.setSlice_dma (d : Dev) (i : Nat) (x : SliceSt) : (d.setSlice i x).dma = d.dma := rfl
@[simp] theorem Dev.setSlice_host (d : Dev) (i : Nat) (x : SliceSt) : (d.setSlice i x).host = d.host := rfl
@[simp] theorem Dev.setSlice_uart (d : Dev) (i : Nat) (x : SliceSt) : (d.setSlice i x).uart = d.uart := rfl
@[simp] theorem Dev.setSlice_qspi (d : Dev) (i : Nat) (x : SliceSt) : (d.setSlice i x).qspi = d.qspi := rfl
@[simp] theorem Dev.setSlice_gpio (d : Dev) (i : Nat) (x : SliceSt) : (d.setSlice i x).gpio = d.gpio := rfl
@[simp] theorem Dev.setSlice_timer (d : Dev) (i : Nat) (x : SliceSt) : (d.setSlice i x).timer = d.timer := rfl
@[simp] theorem Dev.setSlice_bus (d : Dev) (i : Nat) (x : SliceSt) : (d.setSlice i x).bus = d.bus := rfl
@[simp] theorem Dev.modSlice_now (d : Dev) (i : Nat) (f : SliceSt → SliceSt) : (d.modSlice i f).now = d.now := rfl
@[simp] theorem Dev.modSlice_free (d : Dev) (i : Nat) (f : SliceSt → SliceSt) : (d.modSlice i f).free = d.free := rfl
@[simp] theorem Dev.modSlice_regs (d : Dev) (i : Nat) (f : SliceSt → SliceSt) : (d.modSlice i f).regs = d.regs := rfl
@[simp] theorem Dev.modSlice_act (d : Dev) (i : Nat) (f : SliceSt → SliceSt) : (d.modSlice i f).act = d.act := rfl
@[simp] theorem Dev.modSlice_img (d : Dev) (i : Nat) (f : SliceSt → SliceSt) : (d.modSlice i f).img = d.img := rfl
@[simp] theorem Dev.modSlice_rails (d : Dev) (i : Nat) (f : SliceSt → SliceSt) : (d.modSlice i f).rails = d.rails := rfl
@[simp] theorem Dev.modSlice_clusters (d : Dev) (i : Nat) (f : SliceSt → SliceSt) : (d.modSlice i f).clusters = d.clusters := rfl
@[simp] theorem Dev.modSlice_hm (d : Dev) (i : Nat) (f : SliceSt → SliceSt) : (d.modSlice i f).hm = d.hm := rfl
@[simp] theorem Dev.modSlice_chain (d : Dev) (i : Nat) (f : SliceSt → SliceSt) : (d.modSlice i f).chain = d.chain := rfl
@[simp] theorem Dev.modSlice_cfg (d : Dev) (i : Nat) (f : SliceSt → SliceSt) : (d.modSlice i f).cfg = d.cfg := rfl
@[simp] theorem Dev.modSlice_accum (d : Dev) (i : Nat) (f : SliceSt → SliceSt) : (d.modSlice i f).accum = d.accum := rfl
@[simp] theorem Dev.modSlice_log (d : Dev) (i : Nat) (f : SliceSt → SliceSt) : (d.modSlice i f).log = d.log := rfl
@[simp] theorem Dev.modSlice_stitch (d : Dev) (i : Nat) (f : SliceSt → SliceSt) : (d.modSlice i f).stitch = d.stitch := rfl
@[simp] theorem Dev.modSlice_mode (d : Dev) (i : Nat) (f : SliceSt → SliceSt) : (d.modSlice i f).mode = d.mode := rfl
@[simp] theorem Dev.modSlice_cpu (d : Dev) (i : Nat) (f : SliceSt → SliceSt) : (d.modSlice i f).cpu = d.cpu := rfl
@[simp] theorem Dev.modSlice_flash (d : Dev) (i : Nat) (f : SliceSt → SliceSt) : (d.modSlice i f).flash = d.flash := rfl
@[simp] theorem Dev.modSlice_sec (d : Dev) (i : Nat) (f : SliceSt → SliceSt) : (d.modSlice i f).sec = d.sec := rfl
@[simp] theorem Dev.modSlice_dma (d : Dev) (i : Nat) (f : SliceSt → SliceSt) : (d.modSlice i f).dma = d.dma := rfl
@[simp] theorem Dev.modSlice_host (d : Dev) (i : Nat) (f : SliceSt → SliceSt) : (d.modSlice i f).host = d.host := rfl
@[simp] theorem Dev.modSlice_uart (d : Dev) (i : Nat) (f : SliceSt → SliceSt) : (d.modSlice i f).uart = d.uart := rfl
@[simp] theorem Dev.modSlice_qspi (d : Dev) (i : Nat) (f : SliceSt → SliceSt) : (d.modSlice i f).qspi = d.qspi := rfl
@[simp] theorem Dev.modSlice_gpio (d : Dev) (i : Nat) (f : SliceSt → SliceSt) : (d.modSlice i f).gpio = d.gpio := rfl
@[simp] theorem Dev.modSlice_timer (d : Dev) (i : Nat) (f : SliceSt → SliceSt) : (d.modSlice i f).timer = d.timer := rfl
@[simp] theorem Dev.modSlice_bus (d : Dev) (i : Nat) (f : SliceSt → SliceSt) : (d.modSlice i f).bus = d.bus := rfl
@[simp] theorem Dev.modCluster_now (d : Dev) (k : Nat) (f : ClusterSt → ClusterSt) : (d.modCluster k f).now = d.now := rfl
@[simp] theorem Dev.modCluster_free (d : Dev) (k : Nat) (f : ClusterSt → ClusterSt) : (d.modCluster k f).free = d.free := rfl
@[simp] theorem Dev.modCluster_regs (d : Dev) (k : Nat) (f : ClusterSt → ClusterSt) : (d.modCluster k f).regs = d.regs := rfl
@[simp] theorem Dev.modCluster_act (d : Dev) (k : Nat) (f : ClusterSt → ClusterSt) : (d.modCluster k f).act = d.act := rfl
@[simp] theorem Dev.modCluster_img (d : Dev) (k : Nat) (f : ClusterSt → ClusterSt) : (d.modCluster k f).img = d.img := rfl
@[simp] theorem Dev.modCluster_rails (d : Dev) (k : Nat) (f : ClusterSt → ClusterSt) : (d.modCluster k f).rails = d.rails := rfl
@[simp] theorem Dev.modCluster_slices (d : Dev) (k : Nat) (f : ClusterSt → ClusterSt) : (d.modCluster k f).slices = d.slices := rfl
@[simp] theorem Dev.modCluster_hm (d : Dev) (k : Nat) (f : ClusterSt → ClusterSt) : (d.modCluster k f).hm = d.hm := rfl
@[simp] theorem Dev.modCluster_chain (d : Dev) (k : Nat) (f : ClusterSt → ClusterSt) : (d.modCluster k f).chain = d.chain := rfl
@[simp] theorem Dev.modCluster_cfg (d : Dev) (k : Nat) (f : ClusterSt → ClusterSt) : (d.modCluster k f).cfg = d.cfg := rfl
@[simp] theorem Dev.modCluster_accum (d : Dev) (k : Nat) (f : ClusterSt → ClusterSt) : (d.modCluster k f).accum = d.accum := rfl
@[simp] theorem Dev.modCluster_log (d : Dev) (k : Nat) (f : ClusterSt → ClusterSt) : (d.modCluster k f).log = d.log := rfl
@[simp] theorem Dev.modCluster_stitch (d : Dev) (k : Nat) (f : ClusterSt → ClusterSt) : (d.modCluster k f).stitch = d.stitch := rfl
@[simp] theorem Dev.modCluster_mode (d : Dev) (k : Nat) (f : ClusterSt → ClusterSt) : (d.modCluster k f).mode = d.mode := rfl
@[simp] theorem Dev.modCluster_cpu (d : Dev) (k : Nat) (f : ClusterSt → ClusterSt) : (d.modCluster k f).cpu = d.cpu := rfl
@[simp] theorem Dev.modCluster_flash (d : Dev) (k : Nat) (f : ClusterSt → ClusterSt) : (d.modCluster k f).flash = d.flash := rfl
@[simp] theorem Dev.modCluster_sec (d : Dev) (k : Nat) (f : ClusterSt → ClusterSt) : (d.modCluster k f).sec = d.sec := rfl
@[simp] theorem Dev.modCluster_dma (d : Dev) (k : Nat) (f : ClusterSt → ClusterSt) : (d.modCluster k f).dma = d.dma := rfl
@[simp] theorem Dev.modCluster_host (d : Dev) (k : Nat) (f : ClusterSt → ClusterSt) : (d.modCluster k f).host = d.host := rfl
@[simp] theorem Dev.modCluster_uart (d : Dev) (k : Nat) (f : ClusterSt → ClusterSt) : (d.modCluster k f).uart = d.uart := rfl
@[simp] theorem Dev.modCluster_qspi (d : Dev) (k : Nat) (f : ClusterSt → ClusterSt) : (d.modCluster k f).qspi = d.qspi := rfl
@[simp] theorem Dev.modCluster_gpio (d : Dev) (k : Nat) (f : ClusterSt → ClusterSt) : (d.modCluster k f).gpio = d.gpio := rfl
@[simp] theorem Dev.modCluster_timer (d : Dev) (k : Nat) (f : ClusterSt → ClusterSt) : (d.modCluster k f).timer = d.timer := rfl
@[simp] theorem Dev.modCluster_bus (d : Dev) (k : Nat) (f : ClusterSt → ClusterSt) : (d.modCluster k f).bus = d.bus := rfl
@[simp] theorem Dev.modHr_now (d : Dev) (n : Nat) (f : HmRailSt → HmRailSt) : (d.modHr n f).now = d.now := rfl
@[simp] theorem Dev.modHr_free (d : Dev) (n : Nat) (f : HmRailSt → HmRailSt) : (d.modHr n f).free = d.free := rfl
@[simp] theorem Dev.modHr_regs (d : Dev) (n : Nat) (f : HmRailSt → HmRailSt) : (d.modHr n f).regs = d.regs := rfl
@[simp] theorem Dev.modHr_act (d : Dev) (n : Nat) (f : HmRailSt → HmRailSt) : (d.modHr n f).act = d.act := rfl
@[simp] theorem Dev.modHr_img (d : Dev) (n : Nat) (f : HmRailSt → HmRailSt) : (d.modHr n f).img = d.img := rfl
@[simp] theorem Dev.modHr_rails (d : Dev) (n : Nat) (f : HmRailSt → HmRailSt) : (d.modHr n f).rails = d.rails := rfl
@[simp] theorem Dev.modHr_slices (d : Dev) (n : Nat) (f : HmRailSt → HmRailSt) : (d.modHr n f).slices = d.slices := rfl
@[simp] theorem Dev.modHr_clusters (d : Dev) (n : Nat) (f : HmRailSt → HmRailSt) : (d.modHr n f).clusters = d.clusters := rfl
@[simp] theorem Dev.modHr_chain (d : Dev) (n : Nat) (f : HmRailSt → HmRailSt) : (d.modHr n f).chain = d.chain := rfl
@[simp] theorem Dev.modHr_cfg (d : Dev) (n : Nat) (f : HmRailSt → HmRailSt) : (d.modHr n f).cfg = d.cfg := rfl
@[simp] theorem Dev.modHr_accum (d : Dev) (n : Nat) (f : HmRailSt → HmRailSt) : (d.modHr n f).accum = d.accum := rfl
@[simp] theorem Dev.modHr_log (d : Dev) (n : Nat) (f : HmRailSt → HmRailSt) : (d.modHr n f).log = d.log := rfl
@[simp] theorem Dev.modHr_stitch (d : Dev) (n : Nat) (f : HmRailSt → HmRailSt) : (d.modHr n f).stitch = d.stitch := rfl
@[simp] theorem Dev.modHr_mode (d : Dev) (n : Nat) (f : HmRailSt → HmRailSt) : (d.modHr n f).mode = d.mode := rfl
@[simp] theorem Dev.modHr_cpu (d : Dev) (n : Nat) (f : HmRailSt → HmRailSt) : (d.modHr n f).cpu = d.cpu := rfl
@[simp] theorem Dev.modHr_flash (d : Dev) (n : Nat) (f : HmRailSt → HmRailSt) : (d.modHr n f).flash = d.flash := rfl
@[simp] theorem Dev.modHr_sec (d : Dev) (n : Nat) (f : HmRailSt → HmRailSt) : (d.modHr n f).sec = d.sec := rfl
@[simp] theorem Dev.modHr_dma (d : Dev) (n : Nat) (f : HmRailSt → HmRailSt) : (d.modHr n f).dma = d.dma := rfl
@[simp] theorem Dev.modHr_host (d : Dev) (n : Nat) (f : HmRailSt → HmRailSt) : (d.modHr n f).host = d.host := rfl
@[simp] theorem Dev.modHr_uart (d : Dev) (n : Nat) (f : HmRailSt → HmRailSt) : (d.modHr n f).uart = d.uart := rfl
@[simp] theorem Dev.modHr_qspi (d : Dev) (n : Nat) (f : HmRailSt → HmRailSt) : (d.modHr n f).qspi = d.qspi := rfl
@[simp] theorem Dev.modHr_gpio (d : Dev) (n : Nat) (f : HmRailSt → HmRailSt) : (d.modHr n f).gpio = d.gpio := rfl
@[simp] theorem Dev.modHr_timer (d : Dev) (n : Nat) (f : HmRailSt → HmRailSt) : (d.modHr n f).timer = d.timer := rfl
@[simp] theorem Dev.modHr_bus (d : Dev) (n : Nat) (f : HmRailSt → HmRailSt) : (d.modHr n f).bus = d.bus := rfl
@[simp] theorem Dev.modLane_now (d : Dev) (l : Nat) (f : LaneSt → LaneSt) : (d.modLane l f).now = d.now := rfl
@[simp] theorem Dev.modLane_free (d : Dev) (l : Nat) (f : LaneSt → LaneSt) : (d.modLane l f).free = d.free := rfl
@[simp] theorem Dev.modLane_regs (d : Dev) (l : Nat) (f : LaneSt → LaneSt) : (d.modLane l f).regs = d.regs := rfl
@[simp] theorem Dev.modLane_act (d : Dev) (l : Nat) (f : LaneSt → LaneSt) : (d.modLane l f).act = d.act := rfl
@[simp] theorem Dev.modLane_img (d : Dev) (l : Nat) (f : LaneSt → LaneSt) : (d.modLane l f).img = d.img := rfl
@[simp] theorem Dev.modLane_rails (d : Dev) (l : Nat) (f : LaneSt → LaneSt) : (d.modLane l f).rails = d.rails := rfl
@[simp] theorem Dev.modLane_slices (d : Dev) (l : Nat) (f : LaneSt → LaneSt) : (d.modLane l f).slices = d.slices := rfl
@[simp] theorem Dev.modLane_clusters (d : Dev) (l : Nat) (f : LaneSt → LaneSt) : (d.modLane l f).clusters = d.clusters := rfl
@[simp] theorem Dev.modLane_hm (d : Dev) (l : Nat) (f : LaneSt → LaneSt) : (d.modLane l f).hm = d.hm := rfl
@[simp] theorem Dev.modLane_cfg (d : Dev) (l : Nat) (f : LaneSt → LaneSt) : (d.modLane l f).cfg = d.cfg := rfl
@[simp] theorem Dev.modLane_accum (d : Dev) (l : Nat) (f : LaneSt → LaneSt) : (d.modLane l f).accum = d.accum := rfl
@[simp] theorem Dev.modLane_log (d : Dev) (l : Nat) (f : LaneSt → LaneSt) : (d.modLane l f).log = d.log := rfl
@[simp] theorem Dev.modLane_stitch (d : Dev) (l : Nat) (f : LaneSt → LaneSt) : (d.modLane l f).stitch = d.stitch := rfl
@[simp] theorem Dev.modLane_mode (d : Dev) (l : Nat) (f : LaneSt → LaneSt) : (d.modLane l f).mode = d.mode := rfl
@[simp] theorem Dev.modLane_cpu (d : Dev) (l : Nat) (f : LaneSt → LaneSt) : (d.modLane l f).cpu = d.cpu := rfl
@[simp] theorem Dev.modLane_flash (d : Dev) (l : Nat) (f : LaneSt → LaneSt) : (d.modLane l f).flash = d.flash := rfl
@[simp] theorem Dev.modLane_sec (d : Dev) (l : Nat) (f : LaneSt → LaneSt) : (d.modLane l f).sec = d.sec := rfl
@[simp] theorem Dev.modLane_dma (d : Dev) (l : Nat) (f : LaneSt → LaneSt) : (d.modLane l f).dma = d.dma := rfl
@[simp] theorem Dev.modLane_host (d : Dev) (l : Nat) (f : LaneSt → LaneSt) : (d.modLane l f).host = d.host := rfl
@[simp] theorem Dev.modLane_uart (d : Dev) (l : Nat) (f : LaneSt → LaneSt) : (d.modLane l f).uart = d.uart := rfl
@[simp] theorem Dev.modLane_qspi (d : Dev) (l : Nat) (f : LaneSt → LaneSt) : (d.modLane l f).qspi = d.qspi := rfl
@[simp] theorem Dev.modLane_gpio (d : Dev) (l : Nat) (f : LaneSt → LaneSt) : (d.modLane l f).gpio = d.gpio := rfl
@[simp] theorem Dev.modLane_timer (d : Dev) (l : Nat) (f : LaneSt → LaneSt) : (d.modLane l f).timer = d.timer := rfl
@[simp] theorem Dev.modLane_bus (d : Dev) (l : Nat) (f : LaneSt → LaneSt) : (d.modLane l f).bus = d.bus := rfl
@[simp] theorem Dev.modSpan_now (d : Dev) (c : Nat) (f : SpanSt → SpanSt) : (d.modSpan c f).now = d.now := rfl
@[simp] theorem Dev.modSpan_free (d : Dev) (c : Nat) (f : SpanSt → SpanSt) : (d.modSpan c f).free = d.free := rfl
@[simp] theorem Dev.modSpan_regs (d : Dev) (c : Nat) (f : SpanSt → SpanSt) : (d.modSpan c f).regs = d.regs := rfl
@[simp] theorem Dev.modSpan_act (d : Dev) (c : Nat) (f : SpanSt → SpanSt) : (d.modSpan c f).act = d.act := rfl
@[simp] theorem Dev.modSpan_img (d : Dev) (c : Nat) (f : SpanSt → SpanSt) : (d.modSpan c f).img = d.img := rfl
@[simp] theorem Dev.modSpan_rails (d : Dev) (c : Nat) (f : SpanSt → SpanSt) : (d.modSpan c f).rails = d.rails := rfl
@[simp] theorem Dev.modSpan_slices (d : Dev) (c : Nat) (f : SpanSt → SpanSt) : (d.modSpan c f).slices = d.slices := rfl
@[simp] theorem Dev.modSpan_clusters (d : Dev) (c : Nat) (f : SpanSt → SpanSt) : (d.modSpan c f).clusters = d.clusters := rfl
@[simp] theorem Dev.modSpan_hm (d : Dev) (c : Nat) (f : SpanSt → SpanSt) : (d.modSpan c f).hm = d.hm := rfl
@[simp] theorem Dev.modSpan_cfg (d : Dev) (c : Nat) (f : SpanSt → SpanSt) : (d.modSpan c f).cfg = d.cfg := rfl
@[simp] theorem Dev.modSpan_accum (d : Dev) (c : Nat) (f : SpanSt → SpanSt) : (d.modSpan c f).accum = d.accum := rfl
@[simp] theorem Dev.modSpan_log (d : Dev) (c : Nat) (f : SpanSt → SpanSt) : (d.modSpan c f).log = d.log := rfl
@[simp] theorem Dev.modSpan_stitch (d : Dev) (c : Nat) (f : SpanSt → SpanSt) : (d.modSpan c f).stitch = d.stitch := rfl
@[simp] theorem Dev.modSpan_mode (d : Dev) (c : Nat) (f : SpanSt → SpanSt) : (d.modSpan c f).mode = d.mode := rfl
@[simp] theorem Dev.modSpan_cpu (d : Dev) (c : Nat) (f : SpanSt → SpanSt) : (d.modSpan c f).cpu = d.cpu := rfl
@[simp] theorem Dev.modSpan_flash (d : Dev) (c : Nat) (f : SpanSt → SpanSt) : (d.modSpan c f).flash = d.flash := rfl
@[simp] theorem Dev.modSpan_sec (d : Dev) (c : Nat) (f : SpanSt → SpanSt) : (d.modSpan c f).sec = d.sec := rfl
@[simp] theorem Dev.modSpan_dma (d : Dev) (c : Nat) (f : SpanSt → SpanSt) : (d.modSpan c f).dma = d.dma := rfl
@[simp] theorem Dev.modSpan_host (d : Dev) (c : Nat) (f : SpanSt → SpanSt) : (d.modSpan c f).host = d.host := rfl
@[simp] theorem Dev.modSpan_uart (d : Dev) (c : Nat) (f : SpanSt → SpanSt) : (d.modSpan c f).uart = d.uart := rfl
@[simp] theorem Dev.modSpan_qspi (d : Dev) (c : Nat) (f : SpanSt → SpanSt) : (d.modSpan c f).qspi = d.qspi := rfl
@[simp] theorem Dev.modSpan_gpio (d : Dev) (c : Nat) (f : SpanSt → SpanSt) : (d.modSpan c f).gpio = d.gpio := rfl
@[simp] theorem Dev.modSpan_timer (d : Dev) (c : Nat) (f : SpanSt → SpanSt) : (d.modSpan c f).timer = d.timer := rfl
@[simp] theorem Dev.modSpan_bus (d : Dev) (c : Nat) (f : SpanSt → SpanSt) : (d.modSpan c f).bus = d.bus := rfl
@[simp] theorem Dev.modUnit_now (d : Dev) (u : Nat) (f : UnitSt → UnitSt) : (d.modUnit u f).now = d.now := rfl
@[simp] theorem Dev.modUnit_free (d : Dev) (u : Nat) (f : UnitSt → UnitSt) : (d.modUnit u f).free = d.free := rfl
@[simp] theorem Dev.modUnit_regs (d : Dev) (u : Nat) (f : UnitSt → UnitSt) : (d.modUnit u f).regs = d.regs := rfl
@[simp] theorem Dev.modUnit_act (d : Dev) (u : Nat) (f : UnitSt → UnitSt) : (d.modUnit u f).act = d.act := rfl
@[simp] theorem Dev.modUnit_img (d : Dev) (u : Nat) (f : UnitSt → UnitSt) : (d.modUnit u f).img = d.img := rfl
@[simp] theorem Dev.modUnit_rails (d : Dev) (u : Nat) (f : UnitSt → UnitSt) : (d.modUnit u f).rails = d.rails := rfl
@[simp] theorem Dev.modUnit_slices (d : Dev) (u : Nat) (f : UnitSt → UnitSt) : (d.modUnit u f).slices = d.slices := rfl
@[simp] theorem Dev.modUnit_clusters (d : Dev) (u : Nat) (f : UnitSt → UnitSt) : (d.modUnit u f).clusters = d.clusters := rfl
@[simp] theorem Dev.modUnit_hm (d : Dev) (u : Nat) (f : UnitSt → UnitSt) : (d.modUnit u f).hm = d.hm := rfl
@[simp] theorem Dev.modUnit_chain (d : Dev) (u : Nat) (f : UnitSt → UnitSt) : (d.modUnit u f).chain = d.chain := rfl
@[simp] theorem Dev.modUnit_cfg (d : Dev) (u : Nat) (f : UnitSt → UnitSt) : (d.modUnit u f).cfg = d.cfg := rfl
@[simp] theorem Dev.modUnit_log (d : Dev) (u : Nat) (f : UnitSt → UnitSt) : (d.modUnit u f).log = d.log := rfl
@[simp] theorem Dev.modUnit_stitch (d : Dev) (u : Nat) (f : UnitSt → UnitSt) : (d.modUnit u f).stitch = d.stitch := rfl
@[simp] theorem Dev.modUnit_mode (d : Dev) (u : Nat) (f : UnitSt → UnitSt) : (d.modUnit u f).mode = d.mode := rfl
@[simp] theorem Dev.modUnit_cpu (d : Dev) (u : Nat) (f : UnitSt → UnitSt) : (d.modUnit u f).cpu = d.cpu := rfl
@[simp] theorem Dev.modUnit_flash (d : Dev) (u : Nat) (f : UnitSt → UnitSt) : (d.modUnit u f).flash = d.flash := rfl
@[simp] theorem Dev.modUnit_sec (d : Dev) (u : Nat) (f : UnitSt → UnitSt) : (d.modUnit u f).sec = d.sec := rfl
@[simp] theorem Dev.modUnit_dma (d : Dev) (u : Nat) (f : UnitSt → UnitSt) : (d.modUnit u f).dma = d.dma := rfl
@[simp] theorem Dev.modUnit_host (d : Dev) (u : Nat) (f : UnitSt → UnitSt) : (d.modUnit u f).host = d.host := rfl
@[simp] theorem Dev.modUnit_uart (d : Dev) (u : Nat) (f : UnitSt → UnitSt) : (d.modUnit u f).uart = d.uart := rfl
@[simp] theorem Dev.modUnit_qspi (d : Dev) (u : Nat) (f : UnitSt → UnitSt) : (d.modUnit u f).qspi = d.qspi := rfl
@[simp] theorem Dev.modUnit_gpio (d : Dev) (u : Nat) (f : UnitSt → UnitSt) : (d.modUnit u f).gpio = d.gpio := rfl
@[simp] theorem Dev.modUnit_timer (d : Dev) (u : Nat) (f : UnitSt → UnitSt) : (d.modUnit u f).timer = d.timer := rfl
@[simp] theorem Dev.modUnit_bus (d : Dev) (u : Nat) (f : UnitSt → UnitSt) : (d.modUnit u f).bus = d.bus := rfl
@[simp] theorem Dev.modCfg_now (d : Dev) (f : CfgSt → CfgSt) : (d.modCfg f).now = d.now := rfl
@[simp] theorem Dev.modCfg_free (d : Dev) (f : CfgSt → CfgSt) : (d.modCfg f).free = d.free := rfl
@[simp] theorem Dev.modCfg_regs (d : Dev) (f : CfgSt → CfgSt) : (d.modCfg f).regs = d.regs := rfl
@[simp] theorem Dev.modCfg_act (d : Dev) (f : CfgSt → CfgSt) : (d.modCfg f).act = d.act := rfl
@[simp] theorem Dev.modCfg_img (d : Dev) (f : CfgSt → CfgSt) : (d.modCfg f).img = d.img := rfl
@[simp] theorem Dev.modCfg_rails (d : Dev) (f : CfgSt → CfgSt) : (d.modCfg f).rails = d.rails := rfl
@[simp] theorem Dev.modCfg_slices (d : Dev) (f : CfgSt → CfgSt) : (d.modCfg f).slices = d.slices := rfl
@[simp] theorem Dev.modCfg_clusters (d : Dev) (f : CfgSt → CfgSt) : (d.modCfg f).clusters = d.clusters := rfl
@[simp] theorem Dev.modCfg_hm (d : Dev) (f : CfgSt → CfgSt) : (d.modCfg f).hm = d.hm := rfl
@[simp] theorem Dev.modCfg_chain (d : Dev) (f : CfgSt → CfgSt) : (d.modCfg f).chain = d.chain := rfl
@[simp] theorem Dev.modCfg_cfg (d : Dev) (f : CfgSt → CfgSt) : (d.modCfg f).cfg = f d.cfg := rfl
@[simp] theorem Dev.modCfg_accum (d : Dev) (f : CfgSt → CfgSt) : (d.modCfg f).accum = d.accum := rfl
@[simp] theorem Dev.modCfg_log (d : Dev) (f : CfgSt → CfgSt) : (d.modCfg f).log = d.log := rfl
@[simp] theorem Dev.modCfg_stitch (d : Dev) (f : CfgSt → CfgSt) : (d.modCfg f).stitch = d.stitch := rfl
@[simp] theorem Dev.modCfg_mode (d : Dev) (f : CfgSt → CfgSt) : (d.modCfg f).mode = d.mode := rfl
@[simp] theorem Dev.modCfg_cpu (d : Dev) (f : CfgSt → CfgSt) : (d.modCfg f).cpu = d.cpu := rfl
@[simp] theorem Dev.modCfg_flash (d : Dev) (f : CfgSt → CfgSt) : (d.modCfg f).flash = d.flash := rfl
@[simp] theorem Dev.modCfg_sec (d : Dev) (f : CfgSt → CfgSt) : (d.modCfg f).sec = d.sec := rfl
@[simp] theorem Dev.modCfg_dma (d : Dev) (f : CfgSt → CfgSt) : (d.modCfg f).dma = d.dma := rfl
@[simp] theorem Dev.modCfg_host (d : Dev) (f : CfgSt → CfgSt) : (d.modCfg f).host = d.host := rfl
@[simp] theorem Dev.modCfg_uart (d : Dev) (f : CfgSt → CfgSt) : (d.modCfg f).uart = d.uart := rfl
@[simp] theorem Dev.modCfg_qspi (d : Dev) (f : CfgSt → CfgSt) : (d.modCfg f).qspi = d.qspi := rfl
@[simp] theorem Dev.modCfg_gpio (d : Dev) (f : CfgSt → CfgSt) : (d.modCfg f).gpio = d.gpio := rfl
@[simp] theorem Dev.modCfg_timer (d : Dev) (f : CfgSt → CfgSt) : (d.modCfg f).timer = d.timer := rfl
@[simp] theorem Dev.modCfg_bus (d : Dev) (f : CfgSt → CfgSt) : (d.modCfg f).bus = d.bus := rfl
@[simp] theorem Dev.modLog_now (d : Dev) (f : LogSt → LogSt) : (d.modLog f).now = d.now := rfl
@[simp] theorem Dev.modLog_free (d : Dev) (f : LogSt → LogSt) : (d.modLog f).free = d.free := rfl
@[simp] theorem Dev.modLog_regs (d : Dev) (f : LogSt → LogSt) : (d.modLog f).regs = d.regs := rfl
@[simp] theorem Dev.modLog_act (d : Dev) (f : LogSt → LogSt) : (d.modLog f).act = d.act := rfl
@[simp] theorem Dev.modLog_img (d : Dev) (f : LogSt → LogSt) : (d.modLog f).img = d.img := rfl
@[simp] theorem Dev.modLog_rails (d : Dev) (f : LogSt → LogSt) : (d.modLog f).rails = d.rails := rfl
@[simp] theorem Dev.modLog_slices (d : Dev) (f : LogSt → LogSt) : (d.modLog f).slices = d.slices := rfl
@[simp] theorem Dev.modLog_clusters (d : Dev) (f : LogSt → LogSt) : (d.modLog f).clusters = d.clusters := rfl
@[simp] theorem Dev.modLog_hm (d : Dev) (f : LogSt → LogSt) : (d.modLog f).hm = d.hm := rfl
@[simp] theorem Dev.modLog_chain (d : Dev) (f : LogSt → LogSt) : (d.modLog f).chain = d.chain := rfl
@[simp] theorem Dev.modLog_cfg (d : Dev) (f : LogSt → LogSt) : (d.modLog f).cfg = d.cfg := rfl
@[simp] theorem Dev.modLog_accum (d : Dev) (f : LogSt → LogSt) : (d.modLog f).accum = d.accum := rfl
@[simp] theorem Dev.modLog_log (d : Dev) (f : LogSt → LogSt) : (d.modLog f).log = f d.log := rfl
@[simp] theorem Dev.modLog_stitch (d : Dev) (f : LogSt → LogSt) : (d.modLog f).stitch = d.stitch := rfl
@[simp] theorem Dev.modLog_mode (d : Dev) (f : LogSt → LogSt) : (d.modLog f).mode = d.mode := rfl
@[simp] theorem Dev.modLog_cpu (d : Dev) (f : LogSt → LogSt) : (d.modLog f).cpu = d.cpu := rfl
@[simp] theorem Dev.modLog_flash (d : Dev) (f : LogSt → LogSt) : (d.modLog f).flash = d.flash := rfl
@[simp] theorem Dev.modLog_sec (d : Dev) (f : LogSt → LogSt) : (d.modLog f).sec = d.sec := rfl
@[simp] theorem Dev.modLog_dma (d : Dev) (f : LogSt → LogSt) : (d.modLog f).dma = d.dma := rfl
@[simp] theorem Dev.modLog_host (d : Dev) (f : LogSt → LogSt) : (d.modLog f).host = d.host := rfl
@[simp] theorem Dev.modLog_uart (d : Dev) (f : LogSt → LogSt) : (d.modLog f).uart = d.uart := rfl
@[simp] theorem Dev.modLog_qspi (d : Dev) (f : LogSt → LogSt) : (d.modLog f).qspi = d.qspi := rfl
@[simp] theorem Dev.modLog_gpio (d : Dev) (f : LogSt → LogSt) : (d.modLog f).gpio = d.gpio := rfl
@[simp] theorem Dev.modLog_timer (d : Dev) (f : LogSt → LogSt) : (d.modLog f).timer = d.timer := rfl
@[simp] theorem Dev.modLog_bus (d : Dev) (f : LogSt → LogSt) : (d.modLog f).bus = d.bus := rfl
@[simp] theorem Dev.modMode_now (d : Dev) (f : ModeSt → ModeSt) : (d.modMode f).now = d.now := rfl
@[simp] theorem Dev.modMode_free (d : Dev) (f : ModeSt → ModeSt) : (d.modMode f).free = d.free := rfl
@[simp] theorem Dev.modMode_regs (d : Dev) (f : ModeSt → ModeSt) : (d.modMode f).regs = d.regs := rfl
@[simp] theorem Dev.modMode_act (d : Dev) (f : ModeSt → ModeSt) : (d.modMode f).act = d.act := rfl
@[simp] theorem Dev.modMode_img (d : Dev) (f : ModeSt → ModeSt) : (d.modMode f).img = d.img := rfl
@[simp] theorem Dev.modMode_rails (d : Dev) (f : ModeSt → ModeSt) : (d.modMode f).rails = d.rails := rfl
@[simp] theorem Dev.modMode_slices (d : Dev) (f : ModeSt → ModeSt) : (d.modMode f).slices = d.slices := rfl
@[simp] theorem Dev.modMode_clusters (d : Dev) (f : ModeSt → ModeSt) : (d.modMode f).clusters = d.clusters := rfl
@[simp] theorem Dev.modMode_hm (d : Dev) (f : ModeSt → ModeSt) : (d.modMode f).hm = d.hm := rfl
@[simp] theorem Dev.modMode_chain (d : Dev) (f : ModeSt → ModeSt) : (d.modMode f).chain = d.chain := rfl
@[simp] theorem Dev.modMode_cfg (d : Dev) (f : ModeSt → ModeSt) : (d.modMode f).cfg = d.cfg := rfl
@[simp] theorem Dev.modMode_accum (d : Dev) (f : ModeSt → ModeSt) : (d.modMode f).accum = d.accum := rfl
@[simp] theorem Dev.modMode_log (d : Dev) (f : ModeSt → ModeSt) : (d.modMode f).log = d.log := rfl
@[simp] theorem Dev.modMode_stitch (d : Dev) (f : ModeSt → ModeSt) : (d.modMode f).stitch = d.stitch := rfl
@[simp] theorem Dev.modMode_mode (d : Dev) (f : ModeSt → ModeSt) : (d.modMode f).mode = f d.mode := rfl
@[simp] theorem Dev.modMode_cpu (d : Dev) (f : ModeSt → ModeSt) : (d.modMode f).cpu = d.cpu := rfl
@[simp] theorem Dev.modMode_flash (d : Dev) (f : ModeSt → ModeSt) : (d.modMode f).flash = d.flash := rfl
@[simp] theorem Dev.modMode_sec (d : Dev) (f : ModeSt → ModeSt) : (d.modMode f).sec = d.sec := rfl
@[simp] theorem Dev.modMode_dma (d : Dev) (f : ModeSt → ModeSt) : (d.modMode f).dma = d.dma := rfl
@[simp] theorem Dev.modMode_host (d : Dev) (f : ModeSt → ModeSt) : (d.modMode f).host = d.host := rfl
@[simp] theorem Dev.modMode_uart (d : Dev) (f : ModeSt → ModeSt) : (d.modMode f).uart = d.uart := rfl
@[simp] theorem Dev.modMode_qspi (d : Dev) (f : ModeSt → ModeSt) : (d.modMode f).qspi = d.qspi := rfl
@[simp] theorem Dev.modMode_gpio (d : Dev) (f : ModeSt → ModeSt) : (d.modMode f).gpio = d.gpio := rfl
@[simp] theorem Dev.modMode_timer (d : Dev) (f : ModeSt → ModeSt) : (d.modMode f).timer = d.timer := rfl
@[simp] theorem Dev.modMode_bus (d : Dev) (f : ModeSt → ModeSt) : (d.modMode f).bus = d.bus := rfl
@[simp] theorem Dev.modCpu_now (d : Dev) (f : CpuSt → CpuSt) : (d.modCpu f).now = d.now := rfl
@[simp] theorem Dev.modCpu_free (d : Dev) (f : CpuSt → CpuSt) : (d.modCpu f).free = d.free := rfl
@[simp] theorem Dev.modCpu_regs (d : Dev) (f : CpuSt → CpuSt) : (d.modCpu f).regs = d.regs := rfl
@[simp] theorem Dev.modCpu_act (d : Dev) (f : CpuSt → CpuSt) : (d.modCpu f).act = d.act := rfl
@[simp] theorem Dev.modCpu_img (d : Dev) (f : CpuSt → CpuSt) : (d.modCpu f).img = d.img := rfl
@[simp] theorem Dev.modCpu_rails (d : Dev) (f : CpuSt → CpuSt) : (d.modCpu f).rails = d.rails := rfl
@[simp] theorem Dev.modCpu_slices (d : Dev) (f : CpuSt → CpuSt) : (d.modCpu f).slices = d.slices := rfl
@[simp] theorem Dev.modCpu_clusters (d : Dev) (f : CpuSt → CpuSt) : (d.modCpu f).clusters = d.clusters := rfl
@[simp] theorem Dev.modCpu_hm (d : Dev) (f : CpuSt → CpuSt) : (d.modCpu f).hm = d.hm := rfl
@[simp] theorem Dev.modCpu_chain (d : Dev) (f : CpuSt → CpuSt) : (d.modCpu f).chain = d.chain := rfl
@[simp] theorem Dev.modCpu_cfg (d : Dev) (f : CpuSt → CpuSt) : (d.modCpu f).cfg = d.cfg := rfl
@[simp] theorem Dev.modCpu_accum (d : Dev) (f : CpuSt → CpuSt) : (d.modCpu f).accum = d.accum := rfl
@[simp] theorem Dev.modCpu_log (d : Dev) (f : CpuSt → CpuSt) : (d.modCpu f).log = d.log := rfl
@[simp] theorem Dev.modCpu_stitch (d : Dev) (f : CpuSt → CpuSt) : (d.modCpu f).stitch = d.stitch := rfl
@[simp] theorem Dev.modCpu_mode (d : Dev) (f : CpuSt → CpuSt) : (d.modCpu f).mode = d.mode := rfl
@[simp] theorem Dev.modCpu_cpu (d : Dev) (f : CpuSt → CpuSt) : (d.modCpu f).cpu = f d.cpu := rfl
@[simp] theorem Dev.modCpu_flash (d : Dev) (f : CpuSt → CpuSt) : (d.modCpu f).flash = d.flash := rfl
@[simp] theorem Dev.modCpu_sec (d : Dev) (f : CpuSt → CpuSt) : (d.modCpu f).sec = d.sec := rfl
@[simp] theorem Dev.modCpu_dma (d : Dev) (f : CpuSt → CpuSt) : (d.modCpu f).dma = d.dma := rfl
@[simp] theorem Dev.modCpu_host (d : Dev) (f : CpuSt → CpuSt) : (d.modCpu f).host = d.host := rfl
@[simp] theorem Dev.modCpu_uart (d : Dev) (f : CpuSt → CpuSt) : (d.modCpu f).uart = d.uart := rfl
@[simp] theorem Dev.modCpu_qspi (d : Dev) (f : CpuSt → CpuSt) : (d.modCpu f).qspi = d.qspi := rfl
@[simp] theorem Dev.modCpu_gpio (d : Dev) (f : CpuSt → CpuSt) : (d.modCpu f).gpio = d.gpio := rfl
@[simp] theorem Dev.modCpu_timer (d : Dev) (f : CpuSt → CpuSt) : (d.modCpu f).timer = d.timer := rfl
@[simp] theorem Dev.modCpu_bus (d : Dev) (f : CpuSt → CpuSt) : (d.modCpu f).bus = d.bus := rfl
@[simp] theorem Dev.modSec_now (d : Dev) (f : SecSt → SecSt) : (d.modSec f).now = d.now := rfl
@[simp] theorem Dev.modSec_free (d : Dev) (f : SecSt → SecSt) : (d.modSec f).free = d.free := rfl
@[simp] theorem Dev.modSec_regs (d : Dev) (f : SecSt → SecSt) : (d.modSec f).regs = d.regs := rfl
@[simp] theorem Dev.modSec_act (d : Dev) (f : SecSt → SecSt) : (d.modSec f).act = d.act := rfl
@[simp] theorem Dev.modSec_img (d : Dev) (f : SecSt → SecSt) : (d.modSec f).img = d.img := rfl
@[simp] theorem Dev.modSec_rails (d : Dev) (f : SecSt → SecSt) : (d.modSec f).rails = d.rails := rfl
@[simp] theorem Dev.modSec_slices (d : Dev) (f : SecSt → SecSt) : (d.modSec f).slices = d.slices := rfl
@[simp] theorem Dev.modSec_clusters (d : Dev) (f : SecSt → SecSt) : (d.modSec f).clusters = d.clusters := rfl
@[simp] theorem Dev.modSec_hm (d : Dev) (f : SecSt → SecSt) : (d.modSec f).hm = d.hm := rfl
@[simp] theorem Dev.modSec_chain (d : Dev) (f : SecSt → SecSt) : (d.modSec f).chain = d.chain := rfl
@[simp] theorem Dev.modSec_cfg (d : Dev) (f : SecSt → SecSt) : (d.modSec f).cfg = d.cfg := rfl
@[simp] theorem Dev.modSec_accum (d : Dev) (f : SecSt → SecSt) : (d.modSec f).accum = d.accum := rfl
@[simp] theorem Dev.modSec_log (d : Dev) (f : SecSt → SecSt) : (d.modSec f).log = d.log := rfl
@[simp] theorem Dev.modSec_stitch (d : Dev) (f : SecSt → SecSt) : (d.modSec f).stitch = d.stitch := rfl
@[simp] theorem Dev.modSec_mode (d : Dev) (f : SecSt → SecSt) : (d.modSec f).mode = d.mode := rfl
@[simp] theorem Dev.modSec_cpu (d : Dev) (f : SecSt → SecSt) : (d.modSec f).cpu = d.cpu := rfl
@[simp] theorem Dev.modSec_flash (d : Dev) (f : SecSt → SecSt) : (d.modSec f).flash = d.flash := rfl
@[simp] theorem Dev.modSec_sec (d : Dev) (f : SecSt → SecSt) : (d.modSec f).sec = f d.sec := rfl
@[simp] theorem Dev.modSec_dma (d : Dev) (f : SecSt → SecSt) : (d.modSec f).dma = d.dma := rfl
@[simp] theorem Dev.modSec_host (d : Dev) (f : SecSt → SecSt) : (d.modSec f).host = d.host := rfl
@[simp] theorem Dev.modSec_uart (d : Dev) (f : SecSt → SecSt) : (d.modSec f).uart = d.uart := rfl
@[simp] theorem Dev.modSec_qspi (d : Dev) (f : SecSt → SecSt) : (d.modSec f).qspi = d.qspi := rfl
@[simp] theorem Dev.modSec_gpio (d : Dev) (f : SecSt → SecSt) : (d.modSec f).gpio = d.gpio := rfl
@[simp] theorem Dev.modSec_timer (d : Dev) (f : SecSt → SecSt) : (d.modSec f).timer = d.timer := rfl
@[simp] theorem Dev.modSec_bus (d : Dev) (f : SecSt → SecSt) : (d.modSec f).bus = d.bus := rfl
@[simp] theorem Dev.modHost_now (d : Dev) (f : HostSt → HostSt) : (d.modHost f).now = d.now := rfl
@[simp] theorem Dev.modHost_free (d : Dev) (f : HostSt → HostSt) : (d.modHost f).free = d.free := rfl
@[simp] theorem Dev.modHost_regs (d : Dev) (f : HostSt → HostSt) : (d.modHost f).regs = d.regs := rfl
@[simp] theorem Dev.modHost_act (d : Dev) (f : HostSt → HostSt) : (d.modHost f).act = d.act := rfl
@[simp] theorem Dev.modHost_img (d : Dev) (f : HostSt → HostSt) : (d.modHost f).img = d.img := rfl
@[simp] theorem Dev.modHost_rails (d : Dev) (f : HostSt → HostSt) : (d.modHost f).rails = d.rails := rfl
@[simp] theorem Dev.modHost_slices (d : Dev) (f : HostSt → HostSt) : (d.modHost f).slices = d.slices := rfl
@[simp] theorem Dev.modHost_clusters (d : Dev) (f : HostSt → HostSt) : (d.modHost f).clusters = d.clusters := rfl
@[simp] theorem Dev.modHost_hm (d : Dev) (f : HostSt → HostSt) : (d.modHost f).hm = d.hm := rfl
@[simp] theorem Dev.modHost_chain (d : Dev) (f : HostSt → HostSt) : (d.modHost f).chain = d.chain := rfl
@[simp] theorem Dev.modHost_cfg (d : Dev) (f : HostSt → HostSt) : (d.modHost f).cfg = d.cfg := rfl
@[simp] theorem Dev.modHost_accum (d : Dev) (f : HostSt → HostSt) : (d.modHost f).accum = d.accum := rfl
@[simp] theorem Dev.modHost_log (d : Dev) (f : HostSt → HostSt) : (d.modHost f).log = d.log := rfl
@[simp] theorem Dev.modHost_stitch (d : Dev) (f : HostSt → HostSt) : (d.modHost f).stitch = d.stitch := rfl
@[simp] theorem Dev.modHost_mode (d : Dev) (f : HostSt → HostSt) : (d.modHost f).mode = d.mode := rfl
@[simp] theorem Dev.modHost_cpu (d : Dev) (f : HostSt → HostSt) : (d.modHost f).cpu = d.cpu := rfl
@[simp] theorem Dev.modHost_flash (d : Dev) (f : HostSt → HostSt) : (d.modHost f).flash = d.flash := rfl
@[simp] theorem Dev.modHost_sec (d : Dev) (f : HostSt → HostSt) : (d.modHost f).sec = d.sec := rfl
@[simp] theorem Dev.modHost_dma (d : Dev) (f : HostSt → HostSt) : (d.modHost f).dma = d.dma := rfl
@[simp] theorem Dev.modHost_host (d : Dev) (f : HostSt → HostSt) : (d.modHost f).host = f d.host := rfl
@[simp] theorem Dev.modHost_uart (d : Dev) (f : HostSt → HostSt) : (d.modHost f).uart = d.uart := rfl
@[simp] theorem Dev.modHost_qspi (d : Dev) (f : HostSt → HostSt) : (d.modHost f).qspi = d.qspi := rfl
@[simp] theorem Dev.modHost_gpio (d : Dev) (f : HostSt → HostSt) : (d.modHost f).gpio = d.gpio := rfl
@[simp] theorem Dev.modHost_timer (d : Dev) (f : HostSt → HostSt) : (d.modHost f).timer = d.timer := rfl
@[simp] theorem Dev.modHost_bus (d : Dev) (f : HostSt → HostSt) : (d.modHost f).bus = d.bus := rfl
@[simp] theorem Dev.modFlash_now (d : Dev) (f : FlashSt → FlashSt) : (d.modFlash f).now = d.now := rfl
@[simp] theorem Dev.modFlash_free (d : Dev) (f : FlashSt → FlashSt) : (d.modFlash f).free = d.free := rfl
@[simp] theorem Dev.modFlash_regs (d : Dev) (f : FlashSt → FlashSt) : (d.modFlash f).regs = d.regs := rfl
@[simp] theorem Dev.modFlash_act (d : Dev) (f : FlashSt → FlashSt) : (d.modFlash f).act = d.act := rfl
@[simp] theorem Dev.modFlash_img (d : Dev) (f : FlashSt → FlashSt) : (d.modFlash f).img = d.img := rfl
@[simp] theorem Dev.modFlash_rails (d : Dev) (f : FlashSt → FlashSt) : (d.modFlash f).rails = d.rails := rfl
@[simp] theorem Dev.modFlash_slices (d : Dev) (f : FlashSt → FlashSt) : (d.modFlash f).slices = d.slices := rfl
@[simp] theorem Dev.modFlash_clusters (d : Dev) (f : FlashSt → FlashSt) : (d.modFlash f).clusters = d.clusters := rfl
@[simp] theorem Dev.modFlash_hm (d : Dev) (f : FlashSt → FlashSt) : (d.modFlash f).hm = d.hm := rfl
@[simp] theorem Dev.modFlash_chain (d : Dev) (f : FlashSt → FlashSt) : (d.modFlash f).chain = d.chain := rfl
@[simp] theorem Dev.modFlash_cfg (d : Dev) (f : FlashSt → FlashSt) : (d.modFlash f).cfg = d.cfg := rfl
@[simp] theorem Dev.modFlash_accum (d : Dev) (f : FlashSt → FlashSt) : (d.modFlash f).accum = d.accum := rfl
@[simp] theorem Dev.modFlash_log (d : Dev) (f : FlashSt → FlashSt) : (d.modFlash f).log = d.log := rfl
@[simp] theorem Dev.modFlash_stitch (d : Dev) (f : FlashSt → FlashSt) : (d.modFlash f).stitch = d.stitch := rfl
@[simp] theorem Dev.modFlash_mode (d : Dev) (f : FlashSt → FlashSt) : (d.modFlash f).mode = d.mode := rfl
@[simp] theorem Dev.modFlash_cpu (d : Dev) (f : FlashSt → FlashSt) : (d.modFlash f).cpu = d.cpu := rfl
@[simp] theorem Dev.modFlash_flash (d : Dev) (f : FlashSt → FlashSt) : (d.modFlash f).flash = f d.flash := rfl
@[simp] theorem Dev.modFlash_sec (d : Dev) (f : FlashSt → FlashSt) : (d.modFlash f).sec = d.sec := rfl
@[simp] theorem Dev.modFlash_dma (d : Dev) (f : FlashSt → FlashSt) : (d.modFlash f).dma = d.dma := rfl
@[simp] theorem Dev.modFlash_host (d : Dev) (f : FlashSt → FlashSt) : (d.modFlash f).host = d.host := rfl
@[simp] theorem Dev.modFlash_uart (d : Dev) (f : FlashSt → FlashSt) : (d.modFlash f).uart = d.uart := rfl
@[simp] theorem Dev.modFlash_qspi (d : Dev) (f : FlashSt → FlashSt) : (d.modFlash f).qspi = d.qspi := rfl
@[simp] theorem Dev.modFlash_gpio (d : Dev) (f : FlashSt → FlashSt) : (d.modFlash f).gpio = d.gpio := rfl
@[simp] theorem Dev.modFlash_timer (d : Dev) (f : FlashSt → FlashSt) : (d.modFlash f).timer = d.timer := rfl
@[simp] theorem Dev.modFlash_bus (d : Dev) (f : FlashSt → FlashSt) : (d.modFlash f).bus = d.bus := rfl
@[simp] theorem Dev.modTimer_now (d : Dev) (f : TimerSt → TimerSt) : (d.modTimer f).now = d.now := rfl
@[simp] theorem Dev.modTimer_free (d : Dev) (f : TimerSt → TimerSt) : (d.modTimer f).free = d.free := rfl
@[simp] theorem Dev.modTimer_regs (d : Dev) (f : TimerSt → TimerSt) : (d.modTimer f).regs = d.regs := rfl
@[simp] theorem Dev.modTimer_act (d : Dev) (f : TimerSt → TimerSt) : (d.modTimer f).act = d.act := rfl
@[simp] theorem Dev.modTimer_img (d : Dev) (f : TimerSt → TimerSt) : (d.modTimer f).img = d.img := rfl
@[simp] theorem Dev.modTimer_rails (d : Dev) (f : TimerSt → TimerSt) : (d.modTimer f).rails = d.rails := rfl
@[simp] theorem Dev.modTimer_slices (d : Dev) (f : TimerSt → TimerSt) : (d.modTimer f).slices = d.slices := rfl
@[simp] theorem Dev.modTimer_clusters (d : Dev) (f : TimerSt → TimerSt) : (d.modTimer f).clusters = d.clusters := rfl
@[simp] theorem Dev.modTimer_hm (d : Dev) (f : TimerSt → TimerSt) : (d.modTimer f).hm = d.hm := rfl
@[simp] theorem Dev.modTimer_chain (d : Dev) (f : TimerSt → TimerSt) : (d.modTimer f).chain = d.chain := rfl
@[simp] theorem Dev.modTimer_cfg (d : Dev) (f : TimerSt → TimerSt) : (d.modTimer f).cfg = d.cfg := rfl
@[simp] theorem Dev.modTimer_accum (d : Dev) (f : TimerSt → TimerSt) : (d.modTimer f).accum = d.accum := rfl
@[simp] theorem Dev.modTimer_log (d : Dev) (f : TimerSt → TimerSt) : (d.modTimer f).log = d.log := rfl
@[simp] theorem Dev.modTimer_stitch (d : Dev) (f : TimerSt → TimerSt) : (d.modTimer f).stitch = d.stitch := rfl
@[simp] theorem Dev.modTimer_mode (d : Dev) (f : TimerSt → TimerSt) : (d.modTimer f).mode = d.mode := rfl
@[simp] theorem Dev.modTimer_cpu (d : Dev) (f : TimerSt → TimerSt) : (d.modTimer f).cpu = d.cpu := rfl
@[simp] theorem Dev.modTimer_flash (d : Dev) (f : TimerSt → TimerSt) : (d.modTimer f).flash = d.flash := rfl
@[simp] theorem Dev.modTimer_sec (d : Dev) (f : TimerSt → TimerSt) : (d.modTimer f).sec = d.sec := rfl
@[simp] theorem Dev.modTimer_dma (d : Dev) (f : TimerSt → TimerSt) : (d.modTimer f).dma = d.dma := rfl
@[simp] theorem Dev.modTimer_host (d : Dev) (f : TimerSt → TimerSt) : (d.modTimer f).host = d.host := rfl
@[simp] theorem Dev.modTimer_uart (d : Dev) (f : TimerSt → TimerSt) : (d.modTimer f).uart = d.uart := rfl
@[simp] theorem Dev.modTimer_qspi (d : Dev) (f : TimerSt → TimerSt) : (d.modTimer f).qspi = d.qspi := rfl
@[simp] theorem Dev.modTimer_gpio (d : Dev) (f : TimerSt → TimerSt) : (d.modTimer f).gpio = d.gpio := rfl
@[simp] theorem Dev.modTimer_timer (d : Dev) (f : TimerSt → TimerSt) : (d.modTimer f).timer = f d.timer := rfl
@[simp] theorem Dev.modTimer_bus (d : Dev) (f : TimerSt → TimerSt) : (d.modTimer f).bus = d.bus := rfl

end Sys2Proof.Machine
end

