-- ==== Sys2Proof/Laws/Store.lean ====
section
/-! SUPPORT. The laws of the sparse store and of the memories over it: what a read gives after a write, and that every
memory operation keeps the canonical form. -/
namespace Sys2Proof.Machine

variable {w : Nat} {dflt : Nat → BitVec w}

/-! ### Reading after a write -/

theorem Store.get_filter_same (m : Store w) (a : Nat) : Store.get dflt (m.filter fun c => c.1 != a) a = dflt a := by
  induction m with
  | nil => rfl
  | cons p t ih =>
    obtain ⟨k, u⟩ := p
    by_cases h : k = a
    · simp [h, ih]
    · simp [h, ih, Store.get, Ne.symm h]

theorem Store.get_filter_keep (m : Store w) (p : Nat → Bool) (b : Nat) (h : p b = true) :
    Store.get dflt (m.filter fun c => p c.1) b = Store.get dflt m b := by
  induction m with
  | nil => rfl
  | cons c t ih =>
    obtain ⟨k, u⟩ := c
    by_cases hk : p k = true
    · simp [hk, Store.get, ih]
    · have : b ≠ k := by rintro rfl; exact hk h
      simp [hk, Store.get, ih, this]

theorem Store.get_insert_same (m : Store w) (a : Nat) (v : BitVec w) (h : ∀ c ∈ m, c.1 ≠ a) :
    Store.get dflt (Store.insert m a v) a = v := by
  induction m with
  | nil => simp [Store.insert, Store.get]
  | cons c t ih =>
    obtain ⟨k, u⟩ := c
    have hk : a ≠ k := fun e => h (k, u) (by simp) e.symm
    have := ih fun c hc => h c (by simp [hc])
    unfold Store.insert
    split <;> simp [Store.get, hk, this]

theorem Store.get_insert_ne (m : Store w) (a b : Nat) (v : BitVec w) (h : b ≠ a) :
    Store.get dflt (Store.insert m a v) b = Store.get dflt m b := by
  induction m with
  | nil => simp [Store.insert, Store.get, h]
  | cons c t ih =>
    obtain ⟨k, u⟩ := c
    unfold Store.insert
    split <;> simp [Store.get, h, ih]

/-- A cell reads what was put there. -/
@[simp] theorem Store.get_set_same (m : Store w) (a : Nat) (v : BitVec w) :
    Store.get dflt (Store.set dflt m a v) a = v := by
  unfold Store.set
  simp only
  split
  · subst_vars; exact Store.get_filter_same m a
  · exact Store.get_insert_same _ a v fun c hc => by simpa using (List.mem_filter.1 hc).2

/-- Every other cell reads as before. -/
theorem Store.get_set_ne (m : Store w) (a b : Nat) (v : BitVec w) (h : b ≠ a) :
    Store.get dflt (Store.set dflt m a v) b = Store.get dflt m b := by
  have hf : Store.get dflt (m.filter fun c => c.1 != a) b = Store.get dflt m b :=
    Store.get_filter_keep m (fun k => k != a) b (by simpa using h)
  unfold Store.set
  simp only
  split
  · exact hf
  · rw [Store.get_insert_ne _ a b v h, hf]

theorem Store.get_set (m : Store w) (a b : Nat) (v : BitVec w) :
    Store.get dflt (Store.set dflt m a v) b = if b = a then v else Store.get dflt m b := by
  split
  · subst_vars; simp
  · exact Store.get_set_ne m a b v ‹_›

/-! ### The canonical form -/

theorem Store.wfFrom_filter (m : Store w) (lo : Option Nat) (p : Nat × BitVec w → Bool) (h : Store.wfFrom dflt lo m = true) :
    Store.wfFrom dflt lo (m.filter p) = true := by
  have weaken : ∀ (m : Store w) (lo : Option Nat) (k : Nat), (∀ a, lo = some a → a < k) →
      Store.wfFrom dflt (some k) m = true → Store.wfFrom dflt lo m = true := by
    intro m lo k hlo h
    cases m with
    | nil => rfl
    | cons c t =>
      obtain ⟨j, u⟩ := c
      simp only [Store.wfFrom, Bool.and_eq_true, decide_eq_true_eq] at h ⊢
      refine ⟨⟨?_, h.1.2⟩, h.2⟩
      cases lo with
      | none => rfl
      | some a => have := hlo a rfl; simp; omega
  induction m generalizing lo with
  | nil => simpa using h
  | cons c t ih =>
    obtain ⟨k, u⟩ := c
    simp only [Store.wfFrom, Bool.and_eq_true] at h
    by_cases hp : p (k, u) = true
    · simp only [List.filter_cons, hp, if_true, Store.wfFrom, Bool.and_eq_true]
      exact ⟨h.1, ih _ h.2⟩
    · simp only [List.filter_cons, hp]
      refine ih _ (weaken t lo k ?_ h.2)
      intro a ha
      subst ha
      simpa using h.1.1

theorem Store.wfFrom_insert (m : Store w) (lo : Option Nat) (a : Nat) (v : BitVec w) (h : Store.wfFrom dflt lo m = true)
    (hlo : ∀ b, lo = some b → b < a) (hv : v ≠ dflt a) (hne : ∀ c ∈ m, c.1 ≠ a) :
    Store.wfFrom dflt lo (Store.insert m a v) = true := by
  have head : ∀ lo : Option Nat, (∀ b, lo = some b → b < a) →
      (match lo with | none => true | some b => decide (b < a)) = true := by
    intro lo hlo
    cases lo with
    | none => rfl
    | some b => simpa using hlo b rfl
  induction m generalizing lo with
  | nil =>
    simp only [Store.insert, Store.wfFrom, Bool.and_eq_true]
    exact ⟨⟨head lo hlo, by simpa using hv⟩, trivial⟩
  | cons c t ih =>
    obtain ⟨k, u⟩ := c
    simp only [Store.wfFrom, Bool.and_eq_true] at h
    unfold Store.insert
    split
    · rename_i hak
      simp only [Store.wfFrom, Bool.and_eq_true]
      exact ⟨⟨head lo hlo, by simpa using hv⟩, ⟨by simpa using hak, h.1.2⟩, h.2⟩
    · have hk : k ≠ a := hne (k, u) (by simp)
      have hlt : k < a := by omega
      simp only [Store.wfFrom, Bool.and_eq_true]
      exact ⟨h.1, ih (some k) h.2 (by rintro b ⟨⟩; exact hlt) (fun c hc => hne c (by simp [hc]))⟩

/-- A write keeps the canonical form. -/
theorem Store.wf_set (m : Store w) (a : Nat) (v : BitVec w) (h : Store.wf dflt m = true) :
    Store.wf dflt (Store.set dflt m a v) = true := by
  unfold Store.set Store.wf at *
  simp only
  split
  · exact Store.wfFrom_filter m none _ h
  · refine Store.wfFrom_insert _ none a v (Store.wfFrom_filter m none _ h) (by simp) ‹_› ?_
    exact fun c hc => by simpa using (List.mem_filter.1 hc).2

/-! ### The memories -/

@[simp] theorem Mem.wf_nil : Mem.wf [] = true := rfl

theorem Mem.read_write (m : Mem) (a b v : Nat) : (m.write a v).read b = if b = a then v % 256 else m.read b := by
  unfold Mem.read Mem.write
  rw [Store.get_set]
  split <;> simp

@[simp] theorem Mem.read_write_same (m : Mem) (a v : Nat) : (m.write a v).read a = v % 256 := by simp [Mem.read_write]

theorem Mem.read_write_ne (m : Mem) (a b v : Nat) (h : b ≠ a) : (m.write a v).read b = m.read b := by
  simp [Mem.read_write, h]

/-- A byte write keeps the canonical form. -/
theorem Mem.wf_write (m : Mem) (a v : Nat) (h : m.wf = true) : (m.write a v).wf = true := Store.wf_set m a _ h

theorem Mem.wf_writeN (n : Nat) (m : Mem) (a v : Nat) (h : m.wf = true) : (m.writeN n a v).wf = true := by
  induction n generalizing m a v with
  | zero => exact h
  | succ n ih => exact ih _ _ _ (Mem.wf_write m a v h)

theorem Mem.wf_writeBytes (l : List Nat) (m : Mem) (a : Nat) (h : m.wf = true) : (m.writeBytes a l).wf = true := by
  induction l generalizing m a with
  | nil => exact h
  | cons b t ih => exact ih _ _ (Mem.wf_write m a b h)

theorem Mem.wf_writePlane (m : Mem) (a v : Nat) (h : m.wf = true) : (m.writePlane a v).wf = true :=
  Mem.wf_write _ _ _ (Mem.wf_write _ _ _ (Mem.wf_write _ _ _ h))

theorem Mem.wf_fill (v n : Nat) (m : Mem) (a : Nat) (h : m.wf = true) : (m.fill v n a).wf = true := by
  induction n generalizing m a with
  | zero => exact h
  | succ n ih => exact ih _ _ (Mem.wf_write m a v h)

theorem Mem.wf_drop (m : Mem) (p : Nat → Bool) (h : m.wf = true) : (m.drop p).wf = true := Store.wfFrom_filter m none _ h

/-- Writes of any list of items keep the canonical form when each does. -/
theorem Mem.wf_foldl {α : Type} (f : Mem → α → Mem) (hf : ∀ m x, m.wf = true → (f m x).wf = true) (l : List α) (m : Mem)
    (h : m.wf = true) : (l.foldl f m).wf = true := by
  induction l generalizing m with
  | nil => exact h
  | cons x t ih => exact ih _ (hf m x h)

/-- Bytes outside a write of `n` bytes read as before. -/
theorem Mem.read_writeN_out (n : Nat) (m : Mem) (a v b : Nat) (h : b < a ∨ a + n ≤ b) :
    (m.writeN n a v).read b = m.read b := by
  induction n generalizing m a v with
  | zero => rfl
  | succ n ih =>
    rw [Mem.writeN, ih _ _ _ (by omega), Mem.read_write_ne _ _ _ _ (by omega)]

/-- Byte `i` of a write of `n` bytes. -/
theorem Mem.read_writeN_in (n : Nat) (m : Mem) (a v i : Nat) (h : i < n) :
    (m.writeN n a v).read (a + i) = v / 256 ^ i % 256 := by
  induction n generalizing m a v i with
  | zero => omega
  | succ n ih =>
    cases i with
    | zero => rw [Mem.writeN, Mem.read_writeN_out _ _ _ _ _ (by omega)]; simp
    | succ i =>
      rw [Mem.writeN, show a + (i + 1) = a + 1 + i by omega, ih _ _ _ _ (by omega), Nat.div_div_eq_div_mul, Nat.pow_succ,
        Nat.mul_comm]

/-- A read of bytes that agree. -/
theorem Mem.readN_congr (n : Nat) (m k : Mem) (a : Nat) (h : ∀ b, a ≤ b → b < a + n → k.read b = m.read b) :
    k.readN n a = m.readN n a := by
  induction n generalizing a with
  | zero => rfl
  | succ n ih =>
    rw [Mem.readN, Mem.readN, h a (by omega) (by omega), ih (a + 1) fun b h1 h2 => h b (by omega) (by omega)]

/-- A read of what was written. -/
theorem Mem.readN_writeN_same (n : Nat) (m : Mem) (a v : Nat) : (m.writeN n a v).readN n a = v % 256 ^ n := by
  induction n generalizing m a v with
  | zero => simp [Mem.readN, Nat.mod_one]
  | succ n ih =>
    rw [Mem.writeN, Mem.readN, ih, Mem.read_writeN_out _ _ _ _ _ (by omega), Mem.read_write_same, Nat.pow_succ,
      Nat.mul_comm (256 ^ n), Nat.mod_mul]

/-- A read beside a write. -/
theorem Mem.readN_writeN_out (n k : Nat) (m : Mem) (a v b : Nat) (h : b + k ≤ a ∨ a + n ≤ b) :
    (m.writeN n a v).readN k b = m.readN k b :=
  Mem.readN_congr k _ _ b fun c _ _ => Mem.read_writeN_out n m a v c (by omega)

end Sys2Proof.Machine
end

