-- ==== Sys2Proof/Laws/Regs.lean ====
section
/-! SUPPORT. What registers and fields read after each update: the laws of `bits` and `putBits`, and of the register file
over them. -/
namespace Sys2Proof.Machine

/-! ### Indexed structures -/

/-- An element after one is set. -/
theorem getD_set {α : Type} {n : Nat} (xs : Vector α n) (i j : Nat) (v d : α) (hi : i < n) :
    (xs.setIfInBounds i v).getD j d = if j = i then v else xs.getD j d := by
  have e : ∀ ys : Vector α n, ys.getD j d = (ys[j]?).getD d := by
    intro ys
    unfold Vector.getD
    rw [Array.getD_eq_getD_getElem?, Vector.getElem?_toArray]
  rw [e, e, Vector.getElem?_setIfInBounds]
  by_cases h : i = j
  · subst h; simp [hi]
  · simp [h, Ne.symm h]

/-! ### Bit fields -/

theorem bits_lt (v lo w : Nat) : bits v lo w < 2 ^ w := Nat.mod_lt _ (Nat.two_pow_pos w)

/-- A field reads what was put there. -/
@[simp] theorem bits_putBits (v lo w x : Nat) : bits (putBits v lo w x) lo w = x % 2 ^ w := by
  unfold bits putBits
  have hl : v % 2 ^ lo < 2 ^ lo := Nat.mod_lt _ (Nat.two_pow_pos lo)
  have e : v % 2 ^ lo + x % 2 ^ w * 2 ^ lo + v / 2 ^ (lo + w) * 2 ^ (lo + w) =
      v % 2 ^ lo + 2 ^ lo * (x % 2 ^ w + 2 ^ w * (v / 2 ^ (lo + w))) := by
    rw [Nat.pow_add]; generalize v / (2 ^ lo * 2 ^ w) = q; generalize x % 2 ^ w = r
    rw [Nat.mul_add, Nat.mul_comm r, ← Nat.mul_assoc (2 ^ lo), Nat.mul_comm q, Nat.add_assoc]
  rw [e, Nat.add_mul_div_left _ _ (Nat.two_pow_pos lo), Nat.div_eq_of_lt hl, Nat.zero_add, Nat.add_mul_mod_self_left,
    Nat.mod_mod]

/-- A register after a put still fits its 32 bits. -/
theorem putBits_lt (v lo w x : Nat) (hv : v < 2 ^ 32) (hw : lo + w ≤ 32) : putBits v lo w x < 2 ^ 32 := by
  unfold putBits
  have hl : v % 2 ^ lo < 2 ^ lo := Nat.mod_lt _ (Nat.two_pow_pos lo)
  have hx : x % 2 ^ w < 2 ^ w := Nat.mod_lt _ (Nat.two_pow_pos w)
  have hq : v / 2 ^ (lo + w) < 2 ^ (32 - (lo + w)) := by
    rw [Nat.div_lt_iff_lt_mul (Nat.two_pow_pos _), ← Nat.pow_add, show 32 - (lo + w) + (lo + w) = 32 by omega]
    exact hv
  have h1 : x % 2 ^ w * 2 ^ lo + 2 ^ lo ≤ 2 ^ (lo + w) := by
    have : (x % 2 ^ w + 1) * 2 ^ lo ≤ 2 ^ w * 2 ^ lo := Nat.mul_le_mul_right _ hx
    rw [Nat.add_mul, Nat.one_mul, ← Nat.pow_add, Nat.add_comm w] at this
    exact this
  have h2 : v / 2 ^ (lo + w) * 2 ^ (lo + w) + 2 ^ (lo + w) ≤ 2 ^ 32 := by
    have : (v / 2 ^ (lo + w) + 1) * 2 ^ (lo + w) ≤ 2 ^ (32 - (lo + w)) * 2 ^ (lo + w) := Nat.mul_le_mul_right _ hq
    rw [Nat.add_mul, Nat.one_mul, ← Nat.pow_add, show 32 - (lo + w) + (lo + w) = 32 by omega] at this
    exact this
  omega

/-- A field that lies below or above the one that is put reads as before. -/
theorem bits_putBits_ne (v lo w x lo' w' : Nat) (h : lo' + w' ≤ lo ∨ lo + w ≤ lo') :
    bits (putBits v lo w x) lo' w' = bits v lo' w' := by
  unfold bits
  apply Nat.eq_of_testBit_eq
  intro i
  rw [Nat.testBit_mod_two_pow, Nat.testBit_mod_two_pow, Nat.testBit_div_two_pow, Nat.testBit_div_two_pow]
  by_cases hi : i < w'
  · simp only [hi, decide_true, Bool.true_and]
    unfold putBits
    have hl : v % 2 ^ lo < 2 ^ lo := Nat.mod_lt _ (Nat.two_pow_pos lo)
    have hx : x % 2 ^ w < 2 ^ w := Nat.mod_lt _ (Nat.two_pow_pos w)
    have hlow : v % 2 ^ lo + x % 2 ^ w * 2 ^ lo < 2 ^ (lo + w) := by
      have : (x % 2 ^ w + 1) * 2 ^ lo ≤ 2 ^ w * 2 ^ lo := Nat.mul_le_mul_right _ hx
      rw [Nat.add_mul, Nat.one_mul, ← Nat.pow_add, Nat.add_comm w] at this
      omega
    rw [Nat.add_comm, Nat.mul_comm (v / 2 ^ (lo + w)), Nat.testBit_two_pow_mul_add _ hlow]
    rcases h with h | h
    · have hi' : w' + lo' ≤ lo := by omega
      rw [if_pos (by omega), Nat.add_comm, Nat.mul_comm (x % 2 ^ w), Nat.testBit_two_pow_mul_add _ hl, if_pos (by omega),
        Nat.testBit_mod_two_pow]
      simp; omega
    · rw [if_neg (by omega), Nat.testBit_div_two_pow]
      congr 1; omega
  · simp [hi]

/-! ### Registers -/

theorem Dev.rd_lt (d : Dev) (a : Nat) : d.rd a < 2 ^ 32 := BitVec.isLt _

theorem Dev.r_lt (d : Dev) (g : Reg) (n : Nat) : d.r g n < 2 ^ 32 := BitVec.isLt _

theorem Dev.rd_wr (d : Dev) (a b v : Nat) : (d.wr a v).rd b = if b = a then v % 2 ^ 32 else d.rd b := by
  unfold Dev.rd Dev.wr
  rw [Store.get_set]
  split <;> simp

@[simp] theorem Dev.rd_wr_same (d : Dev) (a v : Nat) : (d.wr a v).rd a = v % 2 ^ 32 := by simp [Dev.rd_wr]

theorem Dev.rd_wr_ne (d : Dev) (a b v : Nat) (h : b ≠ a) : (d.wr a v).rd b = d.rd b := by simp [Dev.rd_wr, h]

@[simp] theorem Dev.r_setR_same (d : Dev) (g : Reg) (n v : Nat) : (d.setR g n v).r g n = v % 2 ^ 32 := by
  simp [Dev.r, Dev.setR]

/-- A register elsewhere reads as before. -/
theorem Dev.r_setR_ne (d : Dev) (g h : Reg) (n k v : Nat) (ne : h.addr k ≠ g.addr n) : (d.setR g n v).r h k = d.r h k := by
  simp [Dev.r, Dev.setR, Dev.rd_wr, ne]

theorem Dev.rd_setR_ne (d : Dev) (g : Reg) (n a v : Nat) (ne : a ≠ g.addr n) : (d.setR g n v).rd a = d.rd a := by
  simp [Dev.setR, Dev.rd_wr, ne]

theorem Dev.rd_setF_ne (d : Dev) (x : Fld) (n a v : Nat) (ne : a ≠ x.reg.addr n) : (d.setF x n v).rd a = d.rd a := by
  simp [Dev.setF, Dev.setR, Dev.rd_wr, ne]

/-- A field reads what was put there. -/
theorem Dev.f_setF_same (d : Dev) (x : Fld) (n v : Nat) (h : x.lo + x.width ≤ 32) :
    (d.setF x n v).f x n = v % 2 ^ x.width := by
  unfold Dev.f Dev.setF
  rw [Dev.r_setR_same, Nat.mod_eq_of_lt (putBits_lt _ _ _ _ (Dev.r_lt d _ _) h), bits_putBits]

/-- Another field of the same register reads as before. -/
theorem Dev.f_setF_reg (d : Dev) (x y : Fld) (n v : Nat) (hr : y.reg = x.reg) (h : x.lo + x.width ≤ 32)
    (hd : y.lo + y.width ≤ x.lo ∨ x.lo + x.width ≤ y.lo) : (d.setF x n v).f y n = d.f y n := by
  unfold Dev.f Dev.setF
  rw [hr, Dev.r_setR_same, Nat.mod_eq_of_lt (putBits_lt _ _ _ _ (Dev.r_lt d _ _) h), bits_putBits_ne _ _ _ _ _ _ hd]

/-- A field of another register reads as before. -/
theorem Dev.f_setF_ne (d : Dev) (x y : Fld) (n k v : Nat) (ne : y.reg.addr k ≠ x.reg.addr n) :
    (d.setF x n v).f y k = d.f y k := by
  unfold Dev.f Dev.setF
  rw [Dev.r_setR_ne _ _ _ _ _ _ ne]

theorem Dev.b_setB_same (d : Dev) (x : Fld) (n : Nat) (v : Bool) (h : x.lo + x.width ≤ 32) (hw : 0 < x.width) :
    (d.setB x n v).b x n = v := by
  unfold Dev.b Dev.setB
  rw [Dev.f_setF_same _ _ _ _ h]
  have : 1 < 2 ^ x.width := Nat.one_lt_two_pow (by omega)
  cases v <;> simp [b2n, Nat.mod_eq_of_lt, this]

theorem Dev.b_raise_same (d : Dev) (x : Fld) (n : Nat) (h : x.lo + x.width ≤ 32) (hw : 0 < x.width) :
    (d.raise x n).b x n = true := Dev.b_setB_same d x n true h hw

end Sys2Proof.Machine
end

