-- ==== Sys2Proof/Laws/Core.lean ====
section
/-! SUPPORT. What an instruction does on a core that is ready: the fetch check, the comparison and the boundary pass, and
retirement changes the cores that run it alone. -/
namespace Sys2Proof.Machine

/-! ### The cores of an instruction -/

@[simp] theorem Dev.core_modCore_same (d : Dev) (k : CoreId) (f : CoreSt → CoreSt) :
    (d.modCore k f).core k = f (d.core k) := by cases k <;> rfl

theorem Dev.core_modCore_ne (d : Dev) (k j : CoreId) (f : CoreSt → CoreSt) (h : j ≠ k) :
    (d.modCore k f).core j = d.core j := by cases k <;> cases j <;> simp_all [Dev.modCore, Dev.setCore, Dev.core]

@[simp] theorem Dev.modCore_rd (d : Dev) (k : CoreId) (f : CoreSt → CoreSt) (a : Nat) : (d.modCore k f).rd a = d.rd a := by
  cases k <;> rfl

@[simp] theorem Dev.modCore_modCpu_eq (d : Dev) (k : CoreId) (f : CoreSt → CoreSt) (u : CpuSt) :
    { d.modCore k f with cpu := u } = { d with cpu := u } := by cases k <;> rfl

/-- In a pair that is alike, every core that runs an instruction holds what the leading core holds. -/
theorem State.core_of_pair (s : State) (c k : CoreId) (h : Alike s) (hk : k ∈ s.dev.pair c) : s.dev.core k = s.lead c := by
  unfold Dev.pair at hk
  unfold State.lead
  split at hk
  · have e := h ‹_›
    generalize s.dev.lead c = j
    cases k <;> cases j <;> simp [Dev.core, e]
  · simp only [List.mem_singleton] at hk; rw [hk]

theorem Dev.pair_nodup (d : Dev) (c : CoreId) : (d.pair c).Nodup := by unfold Dev.pair; split <;> simp

theorem Dev.lead_mem_pair (d : Dev) (c : CoreId) : d.lead c ∈ d.pair c := by
  unfold Dev.pair; split
  · cases d.lead c <;> simp
  · simp

/-- The same update on each core of a list. -/
def Dev.onCores (d : Dev) (l : List CoreId) (f : CoreSt → CoreSt) : Dev := d.each l fun k d => d.modCore k f

theorem Dev.core_onCores (l : List CoreId) (f : CoreSt → CoreSt) (d : Dev) (k : CoreId) (hl : l.Nodup) :
    (d.onCores l f).core k = if k ∈ l then f (d.core k) else d.core k := by
  unfold Dev.onCores Dev.each
  induction l generalizing d with
  | nil => simp
  | cons e t ih =>
    rw [List.nodup_cons] at hl
    rw [List.foldl_cons, ih _ hl.2]
    by_cases hka : k = e
    · subst hka; simp [hl.1]
    · simp [hka, Dev.core_modCore_ne _ _ _ _ hka]

theorem Dev.rd_onCores (l : List CoreId) (f : CoreSt → CoreSt) (d : Dev) (a : Nat) : (d.onCores l f).rd a = d.rd a := by
  unfold Dev.onCores Dev.each
  induction l generalizing d with
  | nil => rfl
  | cons e t ih => rw [List.foldl_cons, ih, Dev.modCore_rd]

theorem Dev.onCores_cpu (l : List CoreId) (f : CoreSt → CoreSt) (d : Dev) (u : CpuSt) :
    { d.onCores l f with cpu := u } = { d with cpu := u } := by
  unfold Dev.onCores Dev.each
  induction l generalizing d with
  | nil => rfl
  | cons e t ih => rw [List.foldl_cons, ih, Dev.modCore_modCpu_eq]

theorem Dev.onCores_cpuRest (l : List CoreId) (f : CoreSt → CoreSt) (d : Dev) (x y : CoreSt) :
    { (d.onCores l f).cpu with a := x, b := y } = { d.cpu with a := x, b := y } := by
  unfold Dev.onCores Dev.each
  induction l generalizing d with
  | nil => rfl
  | cons e t ih =>
    rw [List.foldl_cons, ih]
    cases e <;> rfl

/-! ### A ready core -/

theorem State.boundary_calm (s : State) (h : Calm s) : s.boundary = s := by
  obtain ⟨h1, h2⟩ := h
  have hf : s.hoFail = s := by
    unfold State.hoFail
    rcases h2 with h2 | h2 <;> simp [h2]
  unfold State.boundary State.takeSafe
  simp [hf, h1]

/-- On a ready core an instruction's own part runs, when nothing waits after it. -/
theorem State.instr_ready (s : State) (c : CoreId) (len : Nat) (act : Dev → CoreSt → Act) (run : State → Act → State)
    (h : Ready s c len) (hc : Calm (run s (act s.dev (s.lead c)))) :
    s.instrWith c len act run = run s (act s.dev (s.lead c)) := by
  obtain ⟨hr, hw, ⟨v, hf⟩, ha, -, hd⟩ := h
  have hw' : (s.dev.core (s.dev.lead c)).wfe = false := hw
  unfold State.instrWith
  have h0 : s.wfeDone c = s := by simp [State.wfeDone, hw']
  have h1 : s.dev.checkpointNow = s.dev := by simp [Dev.checkpointNow, hd]
  simp only [h0, h1, hr, hw', hf, Bool.not_true, Bool.or_self, Bool.false_eq_true, if_false]
  have hi : s.issue c act run = run s (act s.dev (s.lead c)) := by
    unfold State.issue State.lead
    split
    · rename_i hm
      simp only [Bool.and_eq_true, Bool.or_eq_true] at hm
      have := ha hm.1
      rw [this] at hm
      simp at hm
    · rfl
  rw [hi, State.boundary_calm _ hc]

/-! ### Retirement -/

theorem Dev.retire_eq (d : Dev) (c : CoreId) (len : Nat) (r : Ret) :
    d.retire c len r = (d.onCores (d.pair c) fun x => x.retired len r).modCpu fun u => { u with since := u.since + 1 } := rfl

theorem Dev.core_retire (d : Dev) (c k : CoreId) (len : Nat) (r : Ret) (hk : k ∈ d.pair c) :
    (d.retire c len r).core k = (d.core k).retired len r := by
  have h : (d.retire c len r).core k = (d.onCores (d.pair c) fun x => x.retired len r).core k := by cases k <;> rfl
  rw [h, Dev.core_onCores _ _ _ _ (Dev.pair_nodup d c), if_pos hk]

theorem Dev.core_retire_ne (d : Dev) (c k : CoreId) (len : Nat) (r : Ret) (hk : k ∉ d.pair c) :
    (d.retire c len r).core k = d.core k := by
  have h : (d.retire c len r).core k = (d.onCores (d.pair c) fun x => x.retired len r).core k := by cases k <;> rfl
  rw [h, Dev.core_onCores _ _ _ _ (Dev.pair_nodup d c), if_neg hk]

theorem Dev.rd_retire (d : Dev) (c : CoreId) (len : Nat) (r : Ret) (a : Nat) : (d.retire c len r).rd a = d.rd a :=
  Dev.rd_onCores _ _ _ _

theorem Dev.retire_cpu (d : Dev) (c : CoreId) (len : Nat) (r : Ret) (u : CpuSt) :
    { d.retire c len r with cpu := u } = { d with cpu := u } := Dev.onCores_cpu _ _ _ _

theorem Dev.retire_cpuRest (d : Dev) (c : CoreId) (len : Nat) (r : Ret) (x y : CoreSt) (k : Nat) :
    { (d.retire c len r).cpu with a := x, b := y, since := k } = { d.cpu with a := x, b := y, since := k } := by
  have h := Dev.onCores_cpuRest (d.pair c) (fun x => x.retired len r) d x y
  have e : { (d.retire c len r).cpu with a := x, b := y, since := k } =
    { ({ (d.onCores (d.pair c) fun x => x.retired len r).cpu with a := x, b := y } : CpuSt) with since := k } := rfl
  rw [e, h]

/-- Everything but the cores that run the instruction stays when it retires. -/
theorem State.retire_only (s : State) (c : CoreId) (len : Nat) (r : Ret) : OnlyCore s (s.retire c len r) c := by
  refine ⟨fun _ => rfl, rfl, fun a => Dev.rd_retire _ _ _ _ _, ?_, fun k hk => Dev.core_retire_ne _ _ _ _ _ hk, ?_⟩
  · show { s.dev.retire c len r with cpu := s.dev.cpu } = s.dev
    rw [Dev.retire_cpu]
  · exact Dev.retire_cpuRest _ _ _ _ _ _ _

@[simp] theorem CoreSt.retired_halted (x : CoreSt) (len : Nat) (r : Ret) : (x.retired len r).halted = x.halted := by
  unfold CoreSt.retired CoreSt.counted
  simp only
  have h1 : ∀ (l : List (Nat × Word)) (y : CoreSt), (l.foldl (fun y w => y.setSp w.1 w.2) y).halted = y.halted := by
    intro l
    induction l with
    | nil => intro y; rfl
    | cons e t ih => intro y; rw [List.foldl_cons, ih]; unfold CoreSt.setSp; split <;> rfl
  have h2 : ∀ (l : List (Nat × Word)) (y : CoreSt), (l.foldl (fun y w => y.setGr w.1 w.2) y).halted = y.halted := by
    intro l
    induction l with
    | nil => intro y; rfl
    | cons e t ih => intro y; rw [List.foldl_cons, ih]; rfl
  rw [h1, h2]

theorem State.retire_calm (s : State) (c : CoreId) (len : Nat) (r : Ret) (h : Calm s) : Calm (s.retire c len r) := by
  have hb : (s.dev.retire c len r).cpu.b.halted = s.dev.cpu.b.halted := by
    by_cases hk : CoreId.b ∈ s.dev.pair c
    · have := Dev.core_retire s.dev c .b len r hk
      rw [show (s.dev.retire c len r).cpu.b = (s.dev.retire c len r).core .b from rfl, this, CoreSt.retired_halted]; rfl
    · have := Dev.core_retire_ne s.dev c .b len r hk
      rw [show (s.dev.retire c len r).cpu.b = (s.dev.retire c len r).core .b from rfl, this]; rfl
  have hs : (s.dev.retire c len r).cpu.safeDue = s.dev.cpu.safeDue := by
    have := congrArg CpuSt.safeDue (Dev.retire_cpuRest s.dev c len r {} {} 0)
    simpa using this
  have hd : (s.dev.retire c len r).split = s.dev.split := by
    unfold Dev.split Dev.b Dev.f Dev.r
    rw [Dev.rd_retire]
  exact ⟨by rw [← h.1]; exact hs, by
    rcases h.2 with h2 | h2
    · left; rw [← h2]; exact hd
    · right; rw [← h2]; exact hb⟩

/-! ### What retirement leaves of a core -/

theorem CoreSt.gr_setGr (x : CoreSt) (i j : Nat) (v : Word) (hi : i < 16) :
    (x.setGr i v).gr j = if j = i then v else x.gr j := getD_set _ _ _ _ _ hi

/-- The general registers after a list of writes to different registers. -/
theorem CoreSt.gr_writes (l : List (Nat × Word)) (x : CoreSt) (hn : (l.map (·.1)).Nodup) (hl : ∀ w ∈ l, w.1 < 16) :
    (∀ w ∈ l, (l.foldl (fun y w => y.setGr w.1 w.2) x).gr w.1 = w.2) ∧
      ∀ j, j ∉ l.map (·.1) → (l.foldl (fun y w => y.setGr w.1 w.2) x).gr j = x.gr j := by
  induction l generalizing x with
  | nil => simp
  | cons e t ih =>
    rw [List.map_cons, List.nodup_cons] at hn
    have ih := ih (x.setGr e.1 e.2) hn.2 fun w hw => hl w (by simp [hw])
    have ha := hl e (by simp)
    refine ⟨fun w hw => ?_, fun j hj => ?_⟩
    · rcases List.mem_cons.1 hw with rfl | hw
      · rw [List.foldl_cons, ih.2 _ hn.1, CoreSt.gr_setGr _ _ _ _ ha, if_pos rfl]
      · exact ih.1 w hw
    · simp only [List.map_cons, List.mem_cons, not_or] at hj
      rw [List.foldl_cons, ih.2 j hj.2, CoreSt.gr_setGr _ _ _ _ ha, if_neg hj.1]

/-- What writes of general registers leave. -/
theorem CoreSt.writes_other (l : List (Nat × Word)) (x : CoreSt) :
    let y := l.foldl (fun y w => y.setGr w.1 w.2) x
    y.pc = x.pc ∧ y.psr = x.psr ∧ y.lc = x.lc ∧ y.instret = x.instret ∧ SameSpecial x y := by
  induction l generalizing x with
  | nil => exact ⟨rfl, rfl, rfl, rfl, rfl, rfl, rfl, rfl, rfl, rfl, rfl, rfl⟩
  | cons e t ih => exact ih (x.setGr e.1 e.2)

theorem psrRest_bit (i : Nat) (hm : (0xFFFFF01F#32).getLsbD i = true) : i < 5 ∨ 12 ≤ i := by
  rcases Nat.lt_or_ge i 5 with h | h
  · exact .inl h
  · rcases Nat.lt_or_ge i 12 with h' | h'
    · have : i = 5 ∨ i = 6 ∨ i = 7 ∨ i = 8 ∨ i = 9 ∨ i = 10 ∨ i = 11 := by omega
      rcases this with rfl | rfl | rfl | rfl | rfl | rfl | rfl <;> simp at hm
    · exact .inr h'

theorem psrRest_psrPut (p : Word) (lo w v : Nat) (h : 5 ≤ lo ∧ lo + w ≤ 12) : psrRest (psrPut p lo w v) = psrRest p := by
  unfold psrRest psrPut
  apply BitVec.eq_of_getLsbD_eq
  intro i hi
  rw [BitVec.getLsbD_and, BitVec.getLsbD_and]
  cases hm : BitVec.getLsbD (0xFFFFF01F : Word) i
  · rw [Bool.and_false, Bool.and_false]
  · rw [Bool.and_true, Bool.and_true]
    have ho := psrRest_bit i hm
    rw [BitVec.getLsbD_ofNat]
    simp only [hi, decide_true, Bool.true_and]
    have e := bits_putBits_ne p.toNat lo w v i 1 (by omega)
    have t1 : ∀ n : Nat, n.testBit i = decide (bits n i 1 = 1) := by
      intro n; exact Nat.testBit_eq_decide_div_mod_eq
    rw [t1, e, ← t1]
    rfl

/-- The count of a window changes AW and AWCNT alone, and nothing outside a window (R389). -/
theorem CoreSt.counted_psr (x : CoreSt) (o : Bool) : psrRest (x.counted o).psr = psrRest x.psr := by
  unfold CoreSt.counted
  simp only
  split
  · split <;> exact psrRest_psrPut _ _ _ _ (by omega)
  · rfl

theorem CoreSt.counted_other (x : CoreSt) (o : Bool) :
    (∀ i, (x.counted o).gr i = x.gr i) ∧ (x.counted o).pc = x.pc ∧ (x.counted o).lc = x.lc ∧
      (x.counted o).instret = x.instret ∧ SameSpecial x (x.counted o) :=
  ⟨fun _ => rfl, rfl, rfl, rfl, rfl, rfl, rfl, rfl, rfl, rfl, rfl, rfl⟩

theorem CoreSt.counted_closed (x : CoreSt) : (x.counted false).psr = x.psr := by simp [CoreSt.counted]

theorem psrPut_toNat (p : Word) (lo w v : Nat) (h : lo + w ≤ 32) : (psrPut p lo w v).toNat = putBits p.toNat lo w v := by
  unfold psrPut
  rw [BitVec.toNat_ofNat]
  exact Nat.mod_eq_of_lt (putBits_lt _ _ _ _ p.isLt h)

/-- An instruction that retires inside an open window counts (R389). -/
theorem CoreSt.counted_window (x : CoreSt) (h : x.aw = true) : WindowStep x.psr (x.counted true).psr := by
  unfold WindowStep CoreSt.counted
  simp only [h, Bool.true_and, if_true]
  have e : x.awcnt = bits x.psr.toNat 6 6 := rfl
  split
  · rw [if_pos (by omega), psrPut_toNat _ _ _ _ (by omega), bits_putBits, Nat.zero_mod]
  · rw [if_neg (by omega), psrPut_toNat _ _ _ _ (by omega), bits_putBits, e]
    have b : bits (putBits x.psr.toNat 6 6 (bits x.psr.toNat 6 6 - 1)) 5 1 = bits x.psr.toNat 5 1 :=
      bits_putBits_ne _ _ _ _ _ _ (by omega)
    have l : bits x.psr.toNat 6 6 < 64 := Nat.mod_lt _ (by decide)
    have g : bit x.psr.toNat 5 = true := h
    refine ⟨?_, by omega⟩
    unfold bit at g ⊢
    unfold bits at b
    rw [← g]
    exact congrArg (· == 1) b

theorem loopTest_none (x : CoreSt) (h : NoLoopEnd x) : loopTest x [2, 1, 0] x.lc = (none, x.lc) := by
  have t : ∀ l < 3, (x.lc.getD l 0 != 0 && x.pc == x.le.getD l 0) = false := by
    intro l hl
    rcases h l hl with e | e
    · rw [e]; rfl
    · have : (x.pc == x.le.getD l 0) = false := by rw [beq_eq_false_iff_ne]; exact Ne.symm e
      rw [this, Bool.and_false]
  simp only [loopTest, t 2 (by omega), t 1 (by omega), t 0 (by omega), Bool.false_eq_true, if_false]

/-- A plain retirement. -/
theorem CoreSt.retired_spec (x : CoreSt) (len : Nat) (wr : List (Nat × Word)) (psr : Word)
    (hn : (wr.map (·.1)).Nodup) (hl : ∀ w ∈ wr, w.1 < 16) : Retired x (x.retired len { wr := wr, psr := psr }) len wr psr := by
  let y0 : CoreSt := { x with pc := (loopTest x [2, 1, 0] x.lc).1.getD (x.pc + BitVec.ofNat 32 len), psr := psr
                              lc := (loopTest x [2, 1, 0] x.lc).2, instret := x.instret + 1, wfe := false
                              fresh := false }
  have e : x.retired len { wr := wr, psr := psr } = (wr.foldl (fun y w => y.setGr w.1 w.2) y0).counted x.aw := rfl
  have w := CoreSt.gr_writes wr y0 hn hl
  have o := CoreSt.writes_other wr y0
  rw [e]
  generalize wr.foldl (fun y w => y.setGr w.1 w.2) y0 = y at w o
  have k := CoreSt.counted_other y x.aw
  refine ⟨fun v hv => by rw [k.1]; exact w.1 v hv, fun j _ hj => by rw [k.1]; exact w.2 j hj,
    by rw [CoreSt.counted_psr, o.2.1], fun ha => by rw [ha, CoreSt.counted_closed, o.2.1], fun hn => ?_, ?_, ?_,
    fun ha hp => ?_⟩
  · rw [k.2.1, k.2.2.1, o.1, o.2.2.1]
    have := loopTest_none x hn
    simp [y0, this]
  · obtain ⟨a1, a2, a3, a4, a5, a6, a7, a8⟩ := k.2.2.2.2
    obtain ⟨b1, b2, b3, b4, b5, b6, b7, b8⟩ := o.2.2.2.2
    exact ⟨a1.trans b1, a2.trans b2, a3.trans b3, a4.trans b4, a5.trans b5, a6.trans b6, a7.trans b7, a8.trans b8⟩
  · rw [k.2.2.2.1, o.2.2.2.1]
  · have q : y.psr = psr := o.2.1
    rw [ha, ← q]
    exact y.counted_window (by rw [CoreSt.aw, q]; exact hp)

/-- A taken transfer. -/
theorem CoreSt.jumped_spec (x : CoreSt) (len : Nat) (wr : List (Nat × Word)) (dest : Word)
    (hn : (wr.map (·.1)).Nodup) (hl : ∀ w ∈ wr, w.1 < 16) :
    Jumped x (x.retired len { wr := wr, psr := x.psr, dest := some dest }) dest wr := by
  let y0 : CoreSt := { x with pc := dest, instret := x.instret + 1, wfe := false, fresh := false }
  have e : x.retired len { wr := wr, psr := x.psr, dest := some dest } =
    (wr.foldl (fun y w => y.setGr w.1 w.2) y0).counted x.aw := rfl
  have w := CoreSt.gr_writes wr y0 hn hl
  have o := CoreSt.writes_other wr y0
  rw [e]
  generalize wr.foldl (fun y w => y.setGr w.1 w.2) y0 = y at w o
  have k := CoreSt.counted_other y x.aw
  refine ⟨fun v hv => by rw [k.1]; exact w.1 v hv, fun j _ hj => by rw [k.1]; exact w.2 j hj,
    by rw [CoreSt.counted_psr, o.2.1], by rw [k.2.1, o.1], by rw [k.2.2.1, o.2.2.1], ?_, by rw [k.2.2.2.1, o.2.2.2.1],
    fun ha => by
      have q : y.psr = x.psr := o.2.1
      rw [ha, ← q]
      exact y.counted_window (by rw [CoreSt.aw, q]; exact ha)⟩
  obtain ⟨a1, a2, a3, a4, a5, a6, a7, a8⟩ := k.2.2.2.2
  obtain ⟨b1, b2, b3, b4, b5, b6, b7, b8⟩ := o.2.2.2.2
  exact ⟨a1.trans b1, a2.trans b2, a3.trans b3, a4.trans b4, a5.trans b5, a6.trans b6, a7.trans b7, a8.trans b8⟩

/-- An instruction whose meaning on every core is a plain retirement. -/
theorem retiresWith_of (i : Instr) (c : CoreId) (len : Nat) (act : Dev → CoreSt → Act) (wr : CoreSt → List (Nat × Word))
    (psr : CoreSt → Word) (he : ∀ s, exec i s = s.instr c len act) (ha : ∀ d x, act d x = .ret { wr := wr x, psr := psr x })
    (hn : ∀ x, ((wr x).map (·.1)).Nodup) (hl : ∀ x, ∀ w ∈ wr x, w.1 < 16) : RetiresWith i c len wr psr := by
  intro s h
  refine ⟨s.retire c len { wr := wr (s.lead c), psr := psr (s.lead c) }, ?_, State.retire_only _ _ _ _, fun k hk => ?_⟩
  · have hp : State.perform c len s (act s.dev (s.lead c)) = s.retire c len { wr := wr (s.lead c), psr := psr (s.lead c) } := by
      rw [ha]; rfl
    rw [he, State.instr, State.instr_ready _ _ _ _ _ h (by rw [hp]; exact State.retire_calm _ _ _ _ h.calm), hp]
  · show Retired _ ((s.dev.retire c len _).core k) _ _ _
    rw [Dev.core_retire _ _ _ _ _ hk, ← State.core_of_pair s c k h.alike hk]
    exact CoreSt.retired_spec _ _ _ _ (hn _) (hl _)

/-- An instruction that retires on a ready core. -/
theorem completes_ret (i : Instr) (s : State) (c : CoreId) (len : Nat) (act : Dev → CoreSt → Act) (r : Ret)
    (P : State → Prop) (h : Ready s c len) (he : exec i s = s.instr c len act) (ha : act s.dev (s.lead c) = .ret r)
    (hP : P (s.retire c len r)) : Completes i s P := by
  have hp : State.perform c len s (act s.dev (s.lead c)) = s.retire c len r := by rw [ha]; rfl
  exact ⟨_, by rw [he, State.instr, State.instr_ready _ _ _ _ _ h (by rw [hp]; exact State.retire_calm _ _ _ _ h.calm), hp], hP⟩

/-- A core that runs the instruction after it retires, from what the leading core held. -/
theorem State.core_retire (s : State) (c k : CoreId) (len : Nat) (r : Ret) (h : Alike s) (hk : k ∈ s.dev.pair c) :
    (s.retire c len r).dev.core k = (s.lead c).retired len r := by
  show (s.dev.retire c len r).core k = _
  rw [Dev.core_retire _ _ _ _ _ hk, State.core_of_pair s c k h hk]

/-- An instruction whose meaning is a plain retirement where `pre` holds. -/
theorem retiresIf_of (i : Instr) (c : CoreId) (len : Nat) (act : Dev → CoreSt → Act) (pre : CoreSt → Prop)
    (wr : CoreSt → List (Nat × Word)) (psr : CoreSt → Word) (he : ∀ s, exec i s = s.instr c len act)
    (ha : ∀ d x, pre x → act d x = .ret { wr := wr x, psr := psr x }) (hn : ∀ x, ((wr x).map (·.1)).Nodup)
    (hl : ∀ x, ∀ w ∈ wr x, w.1 < 16) : RetiresIf i c len pre wr psr := by
  intro s h hpre
  refine completes_ret i s c len act _ _ h (he s) (ha _ _ hpre) ⟨State.retire_only _ _ _ _, fun k hk => ?_⟩
  rw [State.core_retire _ _ _ _ _ h.alike hk, ← State.core_of_pair s c k h.alike hk]
  exact CoreSt.retired_spec _ _ _ _ (hn _) (hl _)

/-- An instruction whose meaning is a taken transfer where `pre` holds. -/
theorem jumps_of (i : Instr) (c : CoreId) (len : Nat) (act : Dev → CoreSt → Act) (pre : CoreSt → Prop)
    (dest : CoreSt → Word) (wr : CoreSt → List (Nat × Word)) (he : ∀ s, exec i s = s.instr c len act)
    (ha : ∀ d x, pre x → act d x = .ret { wr := wr x, psr := x.psr, dest := some (dest x) })
    (hn : ∀ x, ((wr x).map (·.1)).Nodup) (hl : ∀ x, ∀ w ∈ wr x, w.1 < 16) : Jumps i c len pre dest wr := by
  intro s h hpre
  refine completes_ret i s c len act _ _ h (he s) (ha _ _ hpre) ⟨State.retire_only _ _ _ _, fun k hk => ?_⟩
  rw [State.core_retire _ _ _ _ _ h.alike hk, ← State.core_of_pair s c k h.alike hk]
  exact CoreSt.jumped_spec _ _ _ _ (hn _) (hl _)

/-! ### Entry -/

/-- What the write of a TSB leaves. -/
theorem State.tsbStore_spec (ws : List Nat) (s : State) (k : Nat) :
    (∀ j < ws.length, (s.tsbStore k ws).mem.readN 4 (k + 4 * j) = ws.getD j 0 % 2 ^ 32) ∧
      (∀ a, a < k ∨ k + 4 * ws.length ≤ a → (s.tsbStore k ws).mem.read a = s.mem.read a) ∧
      (s.tsbStore k ws).pending = s.pending ∧ (s.tsbStore k ws).dev.regs = s.dev.regs ∧
      (s.tsbStore k ws).dev.cpu = s.dev.cpu := by
  induction ws generalizing s k with
  | nil => exact ⟨fun j h => absurd h (by simp), fun _ _ => rfl, rfl, rfl, rfl⟩
  | cons w t ih =>
    obtain ⟨h1, h2, h3, h4, h5⟩ := ih (s.ramStore k 4 w) (k + 4)
    have hd : (s.ramStore k 4 w).dev.regs = s.dev.regs ∧ (s.ramStore k 4 w).dev.cpu = s.dev.cpu := ⟨rfl, rfl⟩
    refine ⟨fun j hj => ?_, fun a ha => ?_, h3, h4.trans hd.1, h5.trans hd.2⟩
    · cases j with
      | zero =>
        show (State.tsbStore (s.ramStore k 4 w) (k + 4) t).mem.readN 4 (k + 4 * 0) = _
        rw [Mem.readN_congr 4 (s.ramStore k 4 w).mem _ _ fun b _ hb => h2 b (by omega)]
        exact Mem.readN_writeN_same 4 s.mem k w
      | succ j =>
        have := h1 j (by simpa using hj)
        rw [show k + 4 * (j + 1) = k + 4 + 4 * j by omega]
        exact this
    · show (State.tsbStore (s.ramStore k 4 w) (k + 4) t).mem.read a = _
      simp only [List.length_cons] at ha
      rw [h2 a (by omega)]
      exact Mem.read_writeN_out 4 s.mem k w a (by omega)

/-- PSR bit by bit after a put. -/
theorem psrPut_bit (p : Word) (lo w v i : Nat) (hi : i < 32) :
    (psrPut p lo w v).getLsbD i = if lo ≤ i ∧ i < lo + w then v.testBit (i - lo) else p.getLsbD i := by
  have t1 : ∀ n i : Nat, n.testBit i = decide (bits n i 1 = 1) := by
    intro n i; exact Nat.testBit_eq_decide_div_mod_eq
  unfold psrPut
  rw [BitVec.getLsbD_ofNat]
  simp only [hi, decide_true, Bool.true_and]
  split
  · rename_i h
    have e : bits (putBits p.toNat lo w v) lo w = v % 2 ^ w := bits_putBits _ _ _ _
    have e2 : (putBits p.toNat lo w v).testBit i = (bits (putBits p.toNat lo w v) lo w).testBit (i - lo) := by
      unfold bits
      rw [Nat.testBit_mod_two_pow, Nat.testBit_div_two_pow, show i - lo + lo = i by omega]
      simp; omega
    rw [e2, e, Nat.testBit_mod_two_pow]
    simp; omega
  · rename_i h
    rw [t1, bits_putBits_ne _ _ _ _ _ _ (by omega), ← t1]; rfl

/-- PSR after an exception's entry (R406). -/
theorem CoreSt.entered_psr (x : CoreSt) (e : Entry) (vb : Nat) (tsbp : Word) (h : e.prio = none) :
    (x.entered e vb tsbp).psr = x.psr &&& 0xFFFFE01D ||| 1 := by
  unfold CoreSt.entered
  simp only [h]
  apply BitVec.eq_of_getLsbD_eq
  intro i hi
  simp only [psrPut_bit _ _ _ _ _ hi, BitVec.getLsbD_or, BitVec.getLsbD_and]
  have : i = 0 ∨ i = 1 ∨ i = 2 ∨ i = 3 ∨ i = 4 ∨ i = 5 ∨ i = 6 ∨ i = 7 ∨ i = 8 ∨ i = 9 ∨ i = 10 ∨ i = 11 ∨ i = 12 ∨
      13 ≤ i := by omega
  rcases this with rfl | rfl | rfl | rfl | rfl | rfl | rfl | rfl | rfl | rfl | rfl | rfl | rfl | h13
  iterate 13 · simp
  have n1 : (4294959133#32).getLsbD i = true ∧ (1#32).getLsbD i = false := by
    have : ∀ i : Fin 32, 13 ≤ i.val → (4294959133#32).getLsbD i.val = true ∧ (1#32).getLsbD i.val = false := by decide
    exact this ⟨i, hi⟩ h13
  have r3 : ¬ (0 ≤ i ∧ i < 0 + 1) := by omega
  have r4 : ¬ (5 ≤ i ∧ i < 5 + 8) := by omega
  have r5 : ¬ (1 ≤ i ∧ i < 1 + 1) := by omega
  have r6 : ¬ (12 ≤ i ∧ i < 12 + 1) := by omega
  rw [if_neg r5, if_neg r6, if_neg r3, if_neg r4]
  have m1 : BitVec.getLsbD (0xFFFFE01D : Word) i = true := n1.1
  have m2 : BitVec.getLsbD (1 : Word) i = false := n1.2
  rw [m1, m2, Bool.and_true, Bool.or_false]

theorem tsbWords_length (x : CoreSt) (e : Entry) (a b : Nat) : (tsbWords x e a b).length = 24 := by
  simp [tsbWords]

theorem Dev.checkpoint_core (d : Dev) (k : CoreId) : d.checkpoint.core k = d.core k := by
  unfold Dev.checkpoint; split
  · rfl
  · cases k <;> rfl

theorem Dev.checkpoint_rd (d : Dev) (a : Nat) (h : a ≠ CORE_CKPT.addr 0) : d.checkpoint.rd a = d.rd a := by
  unfold Dev.checkpoint; split
  · rfl
  · exact Dev.rd_setR_ne _ _ _ _ _ h

theorem Dev.checkpoint_ckpt (d : Dev) :
    d.checkpoint.r CORE_CKPT = if d.split then d.r CORE_CKPT else (d.r CORE_CKPT + 1) % 2 ^ 32 := by
  unfold Dev.checkpoint
  cases hy : d.split
  · simp only [Bool.false_eq_true, if_false, Dev.r_setR_same]; rfl
  · simp

/-- The general registers in a TSB. -/
theorem tsbWords_gr (x : CoreSt) (e : Entry) (a b i : Nat) (hi : i < 16) :
    (tsbWords x e a b).getD (4 + i) 0 = (x.gr i).toNat := by
  simp only [tsbWords, List.getD_eq_getElem?_getD]
  rw [List.getElem?_append_left (by simp; omega), List.getElem?_append_right (by simp)]
  simp [hi]

/-- CYCLE and CKPT in a TSB. -/
theorem tsbWords_end (x : CoreSt) (e : Entry) (a b : Nat) :
    (tsbWords x e a b).getD 20 0 = a % 2 ^ 32 ∧ (tsbWords x e a b).getD 21 0 = b := by
  simp only [tsbWords, List.getD_eq_getElem?_getD]
  constructor <;> rw [List.getElem?_append_right (by simp)] <;> simp

/-- The number of the checkpoint that an entry takes. -/
def Dev.nextCkpt (d : Dev) (c : CoreId) : Nat := if d.split then d.cr (d.lead c) CORE_CKPT else d.r CORE_CKPT + 1

/-- The state in which an entry has written its TSB. -/
def State.tsbSaved (s : State) (c : CoreId) (e : Entry) : State :=
  s.tsbStore ((s.lead c).tsbp - 0x60).toNat (tsbWords (s.lead c) e s.dev.cycle (s.dev.nextCkpt c))

/-- The registers of the cores after an entry. -/
def State.tsbEntered (s : State) (c : CoreId) (e : Entry) : Dev :=
  (s.tsbSaved c e).dev.onCores ((s.tsbSaved c e).dev.pair c) fun x =>
    x.entered e (s.dev.cr (s.dev.lead c) CORE_VBASE) ((s.lead c).tsbp - 0x60)

theorem State.enter_eq (s : State) (c : CoreId) (e : Entry) (h : CanEnter s c) :
    s.enter c e = { s.tsbSaved c e with dev := (s.tsbEntered c e).checkpoint } := by
  obtain ⟨h1, h2, h3⟩ := h
  unfold State.enter
  rw [if_neg (by simp [h2])]
  have : tsbInSram ((s.dev.core (s.dev.lead c)).tsbp - 0x60).toNat = true := h1
  simp only [this, h3, Bool.not_true, Bool.false_eq_true, if_false]
  rfl

/-- What saving a TSB leaves of the device. -/
theorem State.tsbSaved_dev (s : State) (c : CoreId) (e : Entry) :
    (∀ a, (s.tsbSaved c e).dev.rd a = s.dev.rd a) ∧ (s.tsbSaved c e).dev.pair c = s.dev.pair c ∧
      (s.tsbSaved c e).dev.split = s.dev.split ∧ ∀ k, (s.tsbSaved c e).dev.core k = s.dev.core k := by
  obtain ⟨-, -, -, w4, w5⟩ :=
    State.tsbStore_spec (tsbWords (s.lead c) e s.dev.cycle (s.dev.nextCkpt c)) s ((s.lead c).tsbp - 0x60).toNat
  unfold State.tsbSaved
  generalize s.tsbStore _ _ = u at w4 w5
  have hr : ∀ a, u.dev.rd a = s.dev.rd a := fun a => by unfold Dev.rd; rw [w4]
  have hrr : ∀ (g : Reg) (n : Nat), u.dev.r g n = s.dev.r g n := fun g n => hr _
  refine ⟨hr, ?_, ?_, fun k => ?_⟩
  · unfold Dev.pair Dev.lead Dev.lockstep Dev.split Dev.b Dev.f; simp only [hrr]
  · unfold Dev.split Dev.b Dev.f; simp only [hrr]
  · cases k
    · show u.dev.cpu.a = s.dev.cpu.a; rw [w5]
    · show u.dev.cpu.b = s.dev.cpu.b; rw [w5]

/-- The cores and the registers after an entry. -/
theorem State.enter_dev (s : State) (c : CoreId) (e : Entry) (h : CanEnter s c) :
    (∀ k ∈ s.dev.pair c, (s.enter c e).dev.core k =
      (s.dev.core k).entered e (s.dev.cr (s.dev.lead c) CORE_VBASE) ((s.lead c).tsbp - 0x60)) ∧
    (∀ k, k ∉ s.dev.pair c → (s.enter c e).dev.core k = s.dev.core k) ∧
    (∀ a, a ≠ CORE_CKPT.addr 0 → (s.enter c e).dev.rd a = s.dev.rd a) ∧
    (s.enter c e).dev.r CORE_CKPT =
      if s.dev.split then s.dev.r CORE_CKPT else (s.dev.r CORE_CKPT + 1) % 2 ^ 32 := by
  obtain ⟨hr, hp, hl, hc⟩ := State.tsbSaved_dev s c e
  have e0 : (s.enter c e).dev = (s.tsbEntered c e).checkpoint := by rw [State.enter_eq s c e h]
  have hr2 : ∀ a, (s.tsbEntered c e).rd a = s.dev.rd a := fun a => by
    unfold State.tsbEntered; rw [Dev.rd_onCores, hr]
  rw [e0]
  refine ⟨fun k hk => ?_, fun k hk => ?_, fun a ha => ?_, ?_⟩
  · rw [Dev.checkpoint_core]; unfold State.tsbEntered
    rw [Dev.core_onCores _ _ _ _ (Dev.pair_nodup _ _), hp, if_pos hk, hc]
  · rw [Dev.checkpoint_core]; unfold State.tsbEntered
    rw [Dev.core_onCores _ _ _ _ (Dev.pair_nodup _ _), hp, if_neg hk, hc]
  · rw [Dev.checkpoint_rd _ _ ha, hr2]
  · have l1 : (s.tsbEntered c e).split = s.dev.split := by
      unfold Dev.split Dev.b Dev.f Dev.r; rw [hr2]
    have l2 : (s.tsbEntered c e).r CORE_CKPT = s.dev.r CORE_CKPT := hr2 _
    rw [Dev.checkpoint_ckpt, l1, l2]

/-- The memory after an entry. -/
theorem State.enter_mem (s : State) (c : CoreId) (e : Entry) (h : CanEnter s c) :
    (∀ j < 24, (s.enter c e).mem.readN 4 (((s.lead c).tsbp - 0x60).toNat + 4 * j) =
      (tsbWords (s.lead c) e s.dev.cycle (s.dev.nextCkpt c)).getD j 0 % 2 ^ 32) ∧
    SameMemBut s (s.enter c e) ((s.lead c).tsbp - 0x60).toNat 0x60 ∧ SameQueue s (s.enter c e) := by
  obtain ⟨w1, w2, w3, -, -⟩ :=
    State.tsbStore_spec (tsbWords (s.lead c) e s.dev.cycle (s.dev.nextCkpt c)) s ((s.lead c).tsbp - 0x60).toNat
  rw [tsbWords_length] at w1 w2
  have e1 : (s.enter c e).mem = (s.tsbSaved c e).mem := by rw [State.enter_eq s c e h]
  have e2 : (s.enter c e).pending = (s.tsbSaved c e).pending := by rw [State.enter_eq s c e h]
  exact ⟨fun j hj => by rw [e1]; exact w1 j hj, fun a ha => by rw [e1]; exact w2 a ha, e2.trans w3⟩

/-- The effect of an exception's entry (R406). -/
theorem State.enter_spec (s : State) (c : CoreId) (e : Entry) (ha : Alike s) (hc : CanEnter s c) (hp : e.prio = none)
    (hs : e.slot < 256) (hy : e.synd % 256 = 0) (hz : e.synd + 256 ≤ 2 ^ 32) (hf : e.faddr < 2 ^ 32) :
    Entered s (s.enter c e) c e.slot e.pc e.synd e.faddr := by
  obtain ⟨tc, to_, tr, tk⟩ := State.enter_dev s c e hc
  obtain ⟨w1, w2, w3⟩ := State.enter_mem s c e hc
  have lt : ∀ v : Word, v.toNat % 2 ^ 32 = v.toNat := fun v => Nat.mod_eq_of_lt v.isLt
  have hw : e.word = e.slot + e.synd := by unfold Entry.word; rw [Nat.mod_eq_of_lt hs]; omega
  refine { savedPc := (w1 0 (by omega)).trans (lt e.pc), savedPsr := (w1 1 (by omega)).trans (lt (s.lead c).psr)
           savedSynd := (w1 2 (by omega)).trans ?_, savedFaddr := (w1 3 (by omega)).trans (Nat.mod_eq_of_lt hf)
           savedGr := fun i hi => ?_, savedCycle := (w1 20 (by omega)).trans ?_
           savedCkpt := (w1 21 (by omega)).trans ?_
           memory := w2, queue := w3, regs := fun a ha => tr a (by simpa using ha), ckpt := tk, other := to_
           tsbp := fun j hj => ?_, psr := fun j hj => ?_, vector := fun j hj => ?_, gr := fun j hj i _ => ?_
           loops := fun j hj => ?_ }
  · show e.word % 2 ^ 32 = _
    rw [hw, Nat.mod_eq_of_lt]; omega
  · rw [Nat.add_assoc, show 16 + 4 * i = 4 * (4 + i) by omega, w1 (4 + i) (by omega), tsbWords_gr _ _ _ _ _ hi, lt]
  · rw [(tsbWords_end _ _ _ _).1, Nat.mod_mod]
  · rw [(tsbWords_end _ _ _ _).2]
    unfold Dev.nextCkpt
    split
    · exact Nat.mod_eq_of_lt (Dev.rd_lt _ _)
    · rfl
  · rw [tc j hj, State.core_of_pair s c j ha hj]; rfl
  · rw [tc j hj, CoreSt.entered_psr _ _ _ _ hp]
  · rw [tc j hj]; rfl
  · rw [tc j hj]; rfl
  · rw [tc j hj]; exact ⟨rfl, rfl, rfl⟩

end Sys2Proof.Machine
end

