-- ==== Sys2Proof/Tests/Slice0.lean ====
section
/-! SUPPORT. Tests: each is one step on a small state, its expected result taken from the spec; the ill-formed commands
that WellFormed refuses; and for each statement a state and operands that meet its hypotheses. -/
namespace Sys2Proof.Tests
open Sys2Proof.Machine
set_option maxRecDepth 8000

/-! ### The checks of WellFormed: an ill-formed command for each -/

/-- R36: an access of 3 bytes is no bus access. -/
theorem test_wf_size : Instr.wf (.registerWrite .dma 0x40000000#32 3 0#32) = false ∧
    Instr.wf (.coreDebugAccess true 0 0 0 false) = false := by decide

/-- R48: a decision brings the codes of 32 slices, no fewer. -/
theorem test_wf_decision : Instr.wf (.decision 0 0 (List.replicate 31 0) 0) = false := by decide

/-- R59: the pre-bias measurement has four windows of 16 samples, no more. -/
theorem test_wf_prebias : Instr.wf (.prebiasMeasurement 0 (List.replicate 65 0)) = false ∧
    Instr.wf (.prebiasMeasurement 0 (List.replicate 64 0)) = true := by decide

/-- R107: a frame has 20 edges; a partial one has fewer, and at least one. -/
theorem test_wf_truncated : Instr.wf (.intentFrameTruncated 0) = false ∧ Instr.wf (.intentFrameTruncated 20) = false ∧
    Instr.wf (.intentFrameTruncated 19) = true := by decide

/-- R197: a time that does not fit RT. -/
theorem test_wf_latency : Instr.wf (.ringCell 0 0 (2 ^ 32)) = false ∧ Instr.wf (.rtSet 0 (2 ^ 32)) = false ∧
    Instr.wf (.sigRelay 0 0 0 (2 ^ 32)) = false := by decide

/-- R347: a key of another length than a public key's. -/
theorem test_wf_unlock : Instr.wf (.debugUnlock 0 [] []) = false := by decide

/-- R470: an instruction that runs for no tick. -/
theorem test_wf_samples : Instr.wf (.evt 0 []) = false ∧ Instr.wf (.evt 0 [0]) = true := by decide

/-- R488: a transaction without a part, and one of 33 bytes. -/
theorem test_wf_host : Instr.wf (.page ⟨none, false, .good⟩) = false ∧
    Instr.wf (.mfrFwMailbox ⟨some (List.replicate 33 0), false, .good⟩) = false := by decide

/-- R503: sixteen samples to a bit. -/
theorem test_wf_samples16 : Instr.wf (.uartRxCharacter 0 (List.replicate 15 true)) = false := by decide

/-- R516: the prefetch line has 32 bytes. -/
theorem test_wf_line : Instr.wf (.qspiWindowRead .dma 0x60000000 4 (List.replicate 31 0)) = false := by decide

/-! ### Small states -/

/-- A small state: the PLL clocks the system domain, the fields listed, every other register 0, nothing in memory, no command
waiting. -/
def st (l : List (Fld × Nat × Nat)) : State :=
  { dev := ((SYSCTL_CLK_SRC, 0, 1) :: l).foldl (fun d x => d.setF x.1 x.2.1 x.2.2) {} }

/-- `s` with its device altered. -/
def alter (s : State) (f : Dev → Dev) : State := { s with dev := f s.dev }

/-- `s` in cycle `n`. -/
def later (s : State) (n : Nat) : State := alter s fun d => { d with now := n }

/-- A state that runs both cores in lockstep in CONFIGURE, alike, with the fields of `l` besides. -/
def paired (x : CoreSt) (l : List (Fld × Nat × Nat) := []) : State :=
  let s := st ([(CORE_STAT_LOCK, 0, 1), (SYSCTL_MODE_MODE, 0, 3)] ++ l)
  { s with dev := { s.dev with cpu := { a := x, b := x } } }

/-- A state in which the cores run apart, `x` being core A and `y` core B. -/
def apart (x y : CoreSt) (l : List (Fld × Nat × Nat) := []) : State :=
  let s := st ([(CORE_STAT_SPLIT, 0, 1), (SYSCTL_MODE_MODE, 0, 3)] ++ l)
  { s with dev := { s.dev with cpu := { a := x, b := y } } }

/-- A core that executes from SRAM in supervisor state, its TSBs at the highest place of SRAM. -/
def inSup : CoreSt := { pc := 0x20000100, psr := 1, tsbp := 0x20080000 }

/-- The same in user state. -/
def inUser : CoreSt := { inSup with psr := 0 }

/-- The same inside an atomic window. -/
def inWin : CoreSt := { inSup with psr := 0x21 }

/-- A core whose general register `i` holds `v i`. -/
def holding (x : CoreSt) (v : Nat → Word) : CoreSt := { x with g := Vector.ofFn fun i => v i.val }

/-! ### Witnesses: the core -/

/-- StepRunsFront. -/
theorem witness_front : ({ pending := [.checkpoint] } : State).pending = .checkpoint :: [] := rfl

/-- AluFunctionsRetire and every statement over a ready core: in lockstep, apart, and after core A was fenced, in
supervisor and in user state, for an instruction of 2 and of 4 bytes. -/
theorem witness_ready : Ready (paired inSup) .a 4 ∧ Ready (paired inUser) .b 2 ∧ Ready (apart inUser inSup) .b 4 ∧
    Ready (apart inWin inSup [(CORE_STAT_FENCED_A, 0, 1)]) .a 2 :=
  ⟨⟨by decide, by decide, ⟨_, rfl⟩, fun _ => rfl, ⟨rfl, .inl rfl⟩, rfl⟩, ⟨by decide, by decide, ⟨_, rfl⟩, fun _ => rfl, ⟨rfl, .inl rfl⟩, rfl⟩,
    ⟨by decide, by decide, ⟨_, rfl⟩, fun h => absurd h (by decide), ⟨rfl, .inr rfl⟩, rfl⟩,
    ⟨by decide, by decide, ⟨_, rfl⟩, fun h => absurd h (by decide), ⟨rfl, .inr rfl⟩, rfl⟩⟩

/-- The lowest fetch of SRAM and the highest. -/
theorem witness_ready_edges : Ready (paired { inSup with pc := 0x20000000 }) .a 4 ∧
    Ready (paired { inSup with pc := 0x2007FFFE }) .a 2 :=
  ⟨⟨by decide, by decide, ⟨_, rfl⟩, fun _ => rfl, ⟨rfl, .inl rfl⟩, rfl⟩, ⟨by decide, by decide, ⟨_, rfl⟩, fun _ => rfl, ⟨rfl, .inl rfl⟩, rfl⟩⟩

/-- LoadsReadSram, StoresWriteSram, IndexedAccesses: the lowest word and the highest byte of SRAM. -/
theorem witness_sram : SramFor (paired inSup) .a 0x20000000 4 ∧ SramFor (apart inSup inWin) .a 0x2007FFFF 1 :=
  ⟨⟨by decide, by decide, by decide, by decide, ⟨by decide, by decide⟩, rfl⟩,
    ⟨by decide, by decide, by decide, by decide, ⟨by decide, by decide⟩, rfl⟩⟩

/-- TransfersGoToTarget: the condition EQ holds, and does not; a register with an even target. -/
theorem witness_transfer : (({ inSup with psr := 0x40000001 } : CoreSt).psr.getLsbD 30 = true ∧ inSup.psr.getLsbD 30 = false) ∧
    (inSup.gr 3).getLsbD 0 = false := by decide

/-- LoopSetUp: outside a window, no loop active, and inner to an active loop that ends at the same place; the count of a
register, 0 and not; the instruction at the loop's end fetched. -/
theorem witness_loop : NoWindow (paired inSup) .a ∧ Nests inSup 0 0x20000104 ∧
    Nests { inSup with lc := #v[2, 0, 0], le := #v[0x20000104, 0, 0] } 1 0x20000104 ∧ NoLoopEnd inSup ∧
    (holding inSup fun _ => 7).gr 15 ≠ 0 ∧ inSup.gr 15 = 0 ∧
    ∃ h, (paired inSup).fetchAt .a 0x20000104 = (paired inSup, .ok h) := by
  refine ⟨?_, ⟨?_, ?_⟩, ⟨?_, ?_⟩, ?_, by decide, by decide, ⟨_, rfl⟩⟩ <;> (try unfold NoWindow) <;> (try unfold NoLoopEnd) <;> decide

/-- LoopEndTest: two loops that end at the PC, the inner one at its last turn, the outer one with another to come and at its
last turn too, and a third loop that ends elsewhere. -/
theorem witness_loop_end : ∀ n ∈ [1#32, 2#32],
    let x : CoreSt := { inSup with lc := #v[n, 1, 3], le := #v[0x20000100, 0x20000100, 0x20000200] }
    let again := fun m : Nat => (x.lc.getD m 0 ≠ 0 ∧ x.le.getD m 0 = x.pc) ∧ x.lc.getD m 0 ≠ 1
    Ready (paired x) .a 2 ∧ (n = 2 → again 0 ∧ ∀ m < 3, 0 < m → ¬ again m) ∧ (n = 1 → ∀ m < 3, ¬ again m) := by
  intro n hn
  simp only [List.mem_cons, List.not_mem_nil, or_false] at hn
  rcases hn with rfl | rfl <;>
    exact ⟨⟨by decide, by decide, ⟨_, rfl⟩, fun _ => rfl, ⟨rfl, .inl rfl⟩, rfl⟩, by decide, by decide⟩

/-- SpecialRegisterReads and SpecialRegisterWrites: supervisor and user, no replay. -/
theorem witness_special : inSup.psr.getLsbD 0 = true ∧ inUser.psr.getLsbD 0 = false ∧ (paired inSup).dev.cpu.replay = none := by
  decide

/-- WindowsOpenAndClose: a user window of exactly ATOM_MAX; a ready core inside a window with two instructions left, and with
one. -/
theorem witness_window : NoWindow (paired inUser) .a ∧ 32 ≤ ((paired inUser).lead .a).atomMax.toNat ∧
    (∀ n ∈ [1, 2], bits (0x21#32 + BitVec.ofNat 32 (0x40 * n)).toNat 6 6 = n) ∧
    Ready (paired { inSup with psr := 0xA1 }) .a 2 ∧ ((paired { inSup with psr := 0x61 }).lead .a).aw = true :=
  ⟨rfl, by decide, by decide, ⟨by decide, by decide, ⟨_, rfl⟩, fun _ => rfl, ⟨rfl, .inl rfl⟩, rfl⟩, by decide⟩

/-- TrapsEnter, ReservedFormsRaiseIllegal, ChecksRaise: a core that can enter, with debug closed and open. -/
theorem witness_enter : CanEnter (paired inSup) .a ∧ CanEnter (apart inSup inUser) .b ∧
    (paired inSup).dev.f SECURE_STAT_DBG = 0 ∧ (paired inSup [(SECURE_STAT_DBG, 0, 1)]).dev.f SECURE_STAT_DBG = 1 :=
  ⟨⟨by decide, by decide, by decide⟩, ⟨by decide, by decide, by decide⟩, by decide, by decide⟩

/-- ChecksRaise: inside a window; a window above ATOM_MAX; a misaligned and an aligned unmapped address. -/
theorem witness_checks : ((paired inWin).lead .a).aw = true ∧ Ready (paired inWin) .a 2 ∧
    ({ inUser with atomMax := 31 } : CoreSt).atomMax.toNat < 32 ∧ (inSup.gr 1 + 0x1002#32).toNat % 4 ≠ 0 ∧
    (inSup.gr 1 + 0xFFFFFFFC#32).toNat % 4 = 0 ∧ regionOf (inSup.gr 1 + 0xFFFFFFFC#32).toNat = none ∧
    regionOf 0x20080000 = none :=
  ⟨rfl, ⟨by decide, by decide, ⟨_, rfl⟩, fun _ => rfl, ⟨rfl, .inl rfl⟩, rfl⟩, by decide, by decide, by decide, by decide, by decide⟩

/-- A pair whose software event 120 is raised and enabled at priority `p`. -/
def raised (x : CoreSt) (p : Nat) : State :=
  let s := paired x
  let d := (s.dev.setR EVENT_ENr 3 0x01000000).setR EVENT_PRIOp 15 p
  { s with dev := { d with cpu := { d.cpu with swset := 1 } } }

/-- WaitForEvent, EventsAndCaches: an event of the lowest priority above IPL 0, none above IPL 1, and the event that is
taken, outside replay by a core that is in no handler's first instruction; one that is, and one in replay. -/
theorem witness_event : EventAbove (raised inSup 1).dev 0 ∧
    ¬ EventAbove (raised inSup 1).dev (bits (0x5#32).toNat 2 3) ∧
    (raised { inSup with psr := 3 } 1).dev.executes .a = true ∧ (raised inSup 1).dev.eventCore = .a ∧
    (raised inSup 1).dev.topEvent 0 = some 120 ∧ ((raised inSup 1).lead .a).fresh = false ∧
    (raised inSup 1).dev.cpu.replay = none ∧ (raised inSup 1).dev.split = false ∧ Alike (raised inSup 1) ∧
    CanEnter (raised inSup 1) .a ∧ ((raised { inSup with fresh := true } 1).lead .a).fresh = true ∧
    (alter (raised inSup 1) fun d => { d with cpu := { d.cpu with replay := some [] } }).dev.cpu.replay ≠ none :=
  ⟨⟨120, by decide⟩, by unfold EventAbove; decide, by decide, by decide, by decide, by decide, by decide, by decide,
    fun _ => rfl, ⟨by decide, by decide, by decide⟩, by decide, by decide⟩

/-- ReturnRestores: the lowest and the highest TSB of SRAM, held by nobody, clean and with an error in its last word; a TSBP
that names a word and one that does not. -/
theorem witness_return : tsbInSram 0x20000000 = true ∧ tsbInSram (0x20080000 - 0x60) = true ∧
    (∀ i < 24, WordClean (paired inSup) (0x2007FFA0 + 4 * i)) ∧ (paired inSup).dev.cpu.replay = none ∧
    (∀ a ∈ [0x20000000, 0x2007FFA0], (paired inSup).dev.tsbHeld .a a = false) ∧
    (let s := alter (paired inSup) fun d => { d with flash := { d.flash with ue := [0x20000000 + 4 * 23] } }
     0x20000000 + 4 * 23 ∈ s.dev.flash.ue ∧ ∀ j < 23, 0x20000000 + 4 * j ∉ s.dev.flash.ue) ∧
    (0x2007FFA0#32).toNat % 4 = 0 ∧ tsbInSram (0x2007FF9E#32).toNat = true ∧ (0x2007FF9E#32).toNat % 4 ≠ 0 := by
  refine ⟨by decide, by decide, fun i _ => ⟨?_, ?_⟩, by decide, by decide, ⟨by decide, by decide⟩, by decide, by decide,
    by decide⟩ <;>
    exact List.not_mem_nil

/-- A core at two ranges of SRAM, the second 16 bytes above the first, of `n` bytes. -/
def atRanges (n : Word) : CoreSt := holding inSup fun i => if i = 1 then 0x20000000 else if i = 2 then 0x20000040 else n

/-- BlockStepsMoveBytes: ranges inside SRAM that do and do not overlap, equal and different bytes, no byte left. -/
theorem witness_block : Ready (paired (atRanges 32)) .a 4 ∧ (∀ b, (paired (atRanges 32)).dev.bankHeld .dma b = false) ∧
    ((atRanges 32).gr 3).toNat = 32 ∧ ((atRanges 0).gr 3).toNat = 0 ∧
    (∀ i < 32, (paired (atRanges 32)).mem.read (0x20000000 + i) = (paired (atRanges 32)).mem.read (0x20000040 + i)) ∧
    Mem.read [(0x20000000, 1)] 0x20000000 ≠ Mem.read [(0x20000000, 1)] 0x20000040 :=
  ⟨⟨by decide, by decide, ⟨_, rfl⟩, fun _ => rfl, ⟨rfl, .inl rfl⟩, rfl⟩, fun _ => rfl, by decide, by decide, by decide, by decide⟩

/-- WindowLimitRaisesAtomic: a window that has been open for exactly the least limit, of a core that executes and of one that
has halted. -/
theorem witness_limit :
    let s := alter (paired inWin) fun d => { d with cpu := { d.cpu with cyc := 32 } }
    s.dev.executes .a = true ∧ Alike s ∧ CanEnter s .a ∧ (s.lead .a).aw = true ∧ s.dev.split = false ∧
    (s.lead .a).winAt + max 32 (bits (s.dev.cr (s.dev.lead .a) CORE_XWIN) 0 10) = s.dev.cycle ∧
    s.dev.cpu.replay = none ∧ (alter s fun d => d.setF SYSCTL_MODE_MODE 0 1).dev.executes .a = false :=
  ⟨by decide, fun _ => rfl, ⟨by decide, by decide, by decide⟩, by decide, by decide, by decide, by decide, by decide⟩

/-- CheckpointsAndSelfTest: a self-test that runs, its checkpoints able to enter; a checkpoint that is due by one
instruction, one that is not, one inside a window, one with the cores apart and one in replay. -/
theorem witness_self_test :
    let s := paired inSup
    let c : CpuSt := { a := inSup, b := inSup, ckA := inSup, ckB := inSup, selfTest := true }
    let u : State := { s with dev := { s.dev with cpu := c } }
    (u.dev.cpu.selfTest = true ∧ u.dev.split = false ∧ u.dev.cpu.safeDue = false ∧ u.dev.modeNow ≠ modeSafe ∧
      u.dev.b CORE_STAT_FENCED_A = false ∧
      tsbInSram (u.dev.cpu.ckA.tsbp - 0x60).toNat = true ∧ u.dev.f CORE_STAT_DBL = 0) ∧
    s.dev.lockstep = true ∧ ({ c with since := 4096 } : CpuSt).since = 4096 ∧ c.since < 4096 ∧ c.undo.length ≤ 992 ∧
      c.replayLog.length ≤ 192 ∧ c.ckDue = false ∧ ({ c with undo := List.replicate 993 (0, 0) } : CpuSt).undo.length = 993 ∧ s.dev.split = false ∧ (s.dev.core (s.dev.lead .a)).aw = false ∧ c.replay = none ∧
      (apart inSup inSup).dev.split = true ∧ ((paired inWin).dev.core ((paired inWin).dev.lead .a)).aw = true ∧
      ({ c with replay := some [] } : CpuSt).replay ≠ none := by decide

/-- HandoverSteps: every precondition of SPLIT to the image of the other bank; a handover that runs, before and after the
last block has passed, and after PARK; a state copy that ends in this cycle. -/
theorem witness_handover :
    let s := paired inSup [(SECURE_STAT_VERIFIED_A, 0, 1), (CORE_VBASE_VBASE, 0, 0x08200000), (CORE_SHBASEn_EN, 3, 1)]
    let t := apart inSup inSup [(CORE_HOSTAT_STATE, 0, 1)]
    (s.dev.lockstep = true ∧ s.dev.split = false ∧ s.dev.f CORE_STAT_FENCED_A = 0 ∧ s.dev.f CORE_STAT_FENCED_B = 0 ∧
      s.dev.modeNow = modeConfigure ∧ s.dev.r CORE_VBASE ≠ 0x08000000 ∧ bit (s.dev.r CORE_SHBASEn 3) 0 = true ∧
      s.dev.r CORE_SHBASEn 3 / 256 ≤ s.dev.r CORE_HOADDR / 256 ∧ s.dev.r CORE_HOADDR / 256 ≤ s.dev.r CORE_SHLIMn 3 / 256 ∧
      s.dev.f SECURE_STAT_VERIFIED_A = 1 ∧ s.dev.executes .b = true) ∧
    t.dev.executes .a = true ∧ t.dev.split = true ∧ t.dev.f CORE_HOSTAT_STATE = 1 ∧ t.dev.r SYSCTL_OWNER = 0 ∧
      s.dev.cpu.a.aw = false ∧ (paired inWin).dev.cpu.a.aw = true ∧ s.dev.b CORE_CTRL_DET_FORCE = false ∧
      (paired inSup [(CORE_CTRL_DET_FORCE, 0, 1)]).dev.b CORE_CTRL_DET_FORCE = true ∧
      (t.dev.setR SYSCTL_OWNER 0 0x7FFFF).r SYSCTL_OWNER = 0x7FFFF ∧
    (let j := alter t fun d => { d with cpu := { d.cpu with joining := true, joinAt := 7, cyc := 167 } }
     j.dev.cpu.joining = true ∧ j.dev.cpu.joinAt + 160 = j.dev.cycle ∧ j.dev.split = true) := by decide

/-! ### Witnesses: the device -/

/-- The conditions that most statements of the device share: powered, clocked, unlocked, nothing due at a boundary, together,
in REGULATE; and SAFE, which locks, and a fabric domain that stands. -/
theorem witness_device : (Powered (st []) ∧ Calm (st []) ∧ FabricRuns (st []) ∧ Unlocked (st [(SYSCTL_MODE_MODE, 0, 4)])) ∧
    ¬ FabricRuns (st [(SYSCTL_CLK_SRC, 0, 0)]) ∧ fabricRow .enumStart = true ∧
    ¬ Powered (alter (st []) fun d => { d with mode := { d.mode with dormant := true } }) ∧
    (st [(SYSCTL_MODE_MODE, 0, 5)]).dev.modeNow = modeSafe ∧ (st []).dev.split = false ∧
    (apart inSup inSup).dev.split = true := by
  refine ⟨⟨rfl, ⟨rfl, .inl rfl⟩, ?_, ?_⟩, ?_, rfl, ?_, by decide, by decide, by decide⟩
  · unfold FabricRuns; decide
  · unfold Unlocked; decide
  · unfold FabricRuns; decide
  · unfold Powered; decide

/-- A member of span channel 0 for rail 3, with ROLE `role`. -/
def member (role : Nat) (l : List (Fld × Nat × Nat) := []) : State :=
  alter (st ([(CHAIN_SPANc_STAT_ROLE, 0, role), (CHAIN_SPANc_STAT_RAIL, 0, 3)] ++ l)) fun d =>
    d.modSpan 0 fun c => { c with used := true }

/-- RailWritesStoreOrReject: a rail alone, the lead of a spanning rail that is enabled, and a follower; values at the ends of
their ranges; a TE_COUT of the first and of the second octave. -/
theorem witness_rail_writes :
    (st []).dev.spanOf 3 = none ∧ (member 1).dev.spanOf 3 = some 0 ∧ (member 1).dev.f CHAIN_SPANc_STAT_ROLE 0 = 1 ∧
    (member 1 [(RAIL_STAT_ENABLED, 3, 1)]).dev.b RAIL_STAT_ENABLED 3 = true ∧
    (member 2).dev.spanOf 3 = some 0 ∧ (member 2).dev.f CHAIN_SPANc_STAT_ROLE 0 ≠ 1 ∧
    ((BitVec.ofNat 16 0x8000).toInt ≤ 0 ∧ ¬ (BitVec.ofNat 16 0x7FFF).toInt ≤ 0x7FFE) ∧
    (1 < 5 * 2 ^ (0 + 0) ∧ 5 < 5 * 2 ^ (0 + 1) ∧ ∀ h < 1, 5 * 2 ^ (0 + h) ≤ 5) ∧
    (st []).dev.a RAIL_XTEDET_DSPAN 3 = 0 := by decide

/-- Rail `n` in phase `p`, with the fields of `l`. -/
def inPhase (n : Nat) (p : RailPhase) (l : List (Fld × Nat × Nat) := []) : State :=
  alter (st l) fun d => d.modRail n fun x => { x with phase := p }

/-- The pre-bias measurement of rail 7 after `k` samples. -/
def measuring (k : Nat) : State := alter (inPhase 7 .prebias) fun d => d.modLp 7 fun x => { x with preN := k }

/-- RailStartAndStop: a rail that is off, one that is enabled, one whose TON_DELAY ends in this cycle and one whose does not;
a pre-bias measurement that lacks samples, one whose last window qualifies and one of which none does; ENn in use; a rail
ready for POWER_GOOD and one that is not. -/
theorem witness_rail_start :
    ((st []).dev.b RAIL_STAT_ENABLED 7 = false ∧ 0x17 ∉ (st []).dev.cfg.queue) ∧
    (st [(RAIL_STAT_ENABLED, 7, 1)]).dev.b RAIL_STAT_ENABLED 7 = true ∧
    (st [(RAIL_PWM_ENPIN_USE, 7, 1)]).dev.b RAIL_PWM_ENPIN_USE 7 = true ∧
    (let s := inPhase 7 .tonDelay [(RAIL_SOFTSTART_TON_DELAY, 7, 1)]
     (s.dev.rail 7).phase = .tonDelay ∧ (s.dev.rail 7).startAt + 400 * s.dev.f RAIL_SOFTSTART_TON_DELAY 7 = 400 ∧
       s.dev.now < 400 ∧ (later s 400).dev.now = 400) ∧
    (∀ k ∈ [0, 48], ((measuring k).dev.rail 7).phase = .prebias ∧ ((measuring k).dev.rail 7).lp.preN = k ∧
      ((measuring k).dev.rail 7).lp.vpre = none ∧ ((measuring k).dev.rail 7).sq.swapTo = none) ∧
    ((measuring 48).dev.spanOf 7 = none ∧ (measuring 48).dev.f RAIL_VTARGET_VTARGET 7 ≤ 0x1F40) ∧
    (let s := alter (inPhase 7 .running [(RAIL_SOFTSTART_PG_DELAY, 7, 1)]) fun d =>
       d.modLp 7 fun x => { x with pgFrom := some 0 }
     (s.dev.rail 7).phase = .running ∧ s.dev.b RAIL_STAT_SOFTSTART 7 = false ∧ s.dev.b RAIL_STAT_SHUTTING 7 = false ∧
       s.dev.b RAIL_STAT_POWER_GOOD 7 = false ∧ (s.dev.rail 7).lp.pgFrom = some 0 ∧
       400 * s.dev.f RAIL_SOFTSTART_PG_DELAY 7 = (later s 400).dev.now) := by decide

/-- RailStartAndStop, the pre-bias windows: the last sample of the last window at the edge of its range and past it, of 16 and
of 64 samples. -/
theorem witness_prebias :
    let good := fun x : Int × Nat =>
      let off := [2000, 6000, 10000, 14000].getD (x.2 / 16) 14000 - x.1
      if x.2 % 16 = 15 ∧ x.2 < 64 ∧ -2048 < off ∧ off < 2047 then some x.1 else none
    ((List.replicate 16 (16047 : Int)).zipIdx 48).findSome? good = some 16047 ∧
    ((List.replicate 16 (16048 : Int)).zipIdx 48).findSome? good = none ∧
    ((List.replicate 64 (4048 : Int)).zipIdx 0).findSome? good = some 4048 ∧
    ((List.replicate 64 (20000 : Int)).zipIdx 0).findSome? good = none := by decide

/-- ExpertSetTakesForce: an unlocked rail, the three refusals, a set that is in order, in regulation and not, and a set that
waits. -/
theorem witness_expert :
    let u := (RAIL_CTRL_EXPERT_UNLOCK, 2, 1)
    let fine := [u, (RAIL_XDMAX_DMAX, 2, 0x3E0000), (RAIL_PWM_TSW, 2, 1)]
    (st [u]).dev.b RAIL_CTRL_EXPERT_UNLOCK 2 = true ∧ (st []).dev.b RAIL_CTRL_EXPERT_UNLOCK 2 = false ∧
    (st [u]).dev.f RAIL_XDMAX_DMAX 2 ≤ (st [u]).dev.f RAIL_XDMIN_DMIN 2 ∧
    (st (fine ++ [(RAIL_XCTL_DECIM, 2, 7)])).dev.f RAIL_XCTL_DECIM 2 = 7 ∧
    (st (fine ++ [(RAIL_XSEQ_TOFFMIN, 2, 1)])).dev.f RAIL_PWM_TSW 2 ≤
      (st (fine ++ [(RAIL_XSEQ_TOFFMIN, 2, 1)])).dev.f RAIL_XSEQ_TOFFMIN 2 ∧
    ((st fine).dev.f RAIL_XDMIN_DMIN 2 < (st fine).dev.f RAIL_XDMAX_DMAX 2 ∧
      ¬ 0x3E0000 < (st fine).dev.f RAIL_XDMAX_DMAX 2 ∧ (st fine).dev.f RAIL_XCTL_DECIM 2 ≠ 7 ∧
      (st fine).dev.f RAIL_XSEQ_TONMIN 2 + (st fine).dev.f RAIL_XSEQ_TOFFMIN 2 < (st fine).dev.f RAIL_PWM_TSW 2) ∧
    ((inPhase 2 .running fine).dev.rail 2).phase = .running ∧ ((inPhase 2 .idle fine).dev.rail 2).phase ≠ .running ∧
    ((inPhase 2 .running fine).dev.rail 2).wait = none ∧
    (let ws := [(0x144, 2 ^ 32 - 1)]
     (ws.map (·.1)).Nodup ∧ ∀ p ∈ ws, p.1 ∈ railExpertOffs ++ coefOffs ∧ p.2 < 2 ^ 32) := by decide

/-- DecisionTakesSamples and BoundariesAdvance: a settled rail that runs, that discharges while it shuts down, that measures
its pre-bias, that is idle; a slice that switches and one that does not. -/
theorem witness_decision :
    let s := inPhase 0 .running [(RAIL_STAT_ENABLED, 0, 1), (SLICE_STAT_ROLE, 31, 1)]
    (s.dev.f CHAIN_STAT_CKSTATE ≠ ckExpired ∧ (s.dev.rail 0).sq.pend = [] ∧ (s.dev.rail 0).sq.swapTo = none ∧
      s.dev.b RAIL_STAT_ENABLED 0 = true ∧ s.dev.b RAIL_STAT_SHUTTING 0 = false ∧ s.dev.sRail 31 = 0 ∧
      s.dev.spanOf 0 = none ∧ (s.dev.rail 0).lp.skip = 0) ∧
    (let x := inPhase 0 .discharge [(RAIL_STAT_SHUTTING, 0, 1)]
     (x.dev.rail 0).phase = .discharge ∧ x.dev.b RAIL_STAT_SHUTTING 0 = true ∧
       (x.dev.rail 0).sq.shutAt + 400 * x.dev.a RAIL_XDISTM_DIS_TMAX 0 ≤ x.dev.now) ∧
    (let p := measuring 47
     (p.dev.rail 7).phase = .prebias ∧ (p.dev.rail 7).lp.preN % 16 = 15 ∧ (p.dev.rail 7).lp.preN < 64 ∧
       (alter p fun d => d.setF RAIL_STAT_ENABLED 7 1).dev.b RAIL_STAT_ENABLED 7 = true) ∧
    ((inPhase 0 .idle).dev.rail 0).phase ∉ [.armed, .running, .discharge] ∧
    (s.dev.isOn 31 = true ∧ s.dev.sState 31 = stActive ∧ (s.dev.slice 31).bg.second = false ∧ (s.dev.slice 31).imbCnt < 7 ∧
      (s.dev.slice 31).base = 0 ∧ (s.dev.rail (s.dev.sRail 31)).phase ≠ .discharge) ∧
    ((inPhase 0 .discharge).dev.rail ((inPhase 0 .discharge).dev.sRail 31)).phase = .discharge ∧
    s.dev.isOn 30 = false := by decide

/-- HousekeepingDelivers: no PINMAP in force. -/
theorem witness_housekeeping : (st []).dev.cfg.pinmap = false ∧ (1799#16).toNat < 1800 ∧ ¬ (1800#16).toNat < 1800 := by decide

/-! ### Witnesses: Hawkmoth -/

/-- The frame 0x00000000 with TYPE `t` and its CRC. -/
def frame (t : Nat) : BitVec 40 := BitVec.ofNat 40 (t * 2 ^ 38 + crc8 [t * 2 ^ 6, 0, 0, 0])

/-- IntentPortTakesFrames: an open port that listens on rail 0 in regulation, after idle cycles, in the cycle of an edge and
at the least times after it, with a frame that an edge may make long, a stuck one and a closed one; a relayed frame in its
last cycle; frames with a good CRC and TYPE 0, with TYPE 3, and with a wrong CRC; a relay that is on. -/
theorem witness_intent :
    let s := st [(HM_CTRL_PORT_EN, 0, 1), (HMRAIL_CTRL_EN_INTENT, 0, 1), (RAIL_STAT_POWER_GOOD, 0, 1), (SYSCTL_MODE_MODE, 0, 4)]
    (s.dev.b HM_CTRL_PORT_EN = true ∧ s.dev.b HM_PORTSTAT_STUCK = false ∧ s.dev.modeNow ≠ modeSafe ∧ s.dev.hm.edgeAt = none) ∧
    (let e := alter s fun d => { d with hm := { d.hm with edgeAt := some 0 } }
     e.dev.hm.edgeAt = some 0 ∧ e.dev.now < max 8 (e.dev.f HM_PORTCFG_GAP) ∧ max 8 (e.dev.f HM_PORTCFG_GAP) ≤ 255 ∧
       ¬ 0 + max 8 (e.dev.f HM_PORTCFG_GAP) ≤ e.dev.now - 3 - 38 ∧
       0 + max 8 (e.dev.f HM_PORTCFG_GAP) = (later e 49).dev.now - 3 - 38 ∧
       0 + 8 = (later e 16).dev.now - 8 - 2 * (1 - 1) ∧ 0 + 512 = (later e 512).dev.now ∧ (later e 511).dev.now < 0 + 512) ∧
    (∀ o ∈ [true, false], (alter s fun d => { d with hm := { d.hm with edgeAt := some 0, longOpen := o } }).dev.hm.longOpen = o) ∧
    (let e := later (alter s fun d => { d with hm := { d.hm with longAt := some 98 } }) 100
     (e.dev.hm.longAt.filter fun x => decide (e.dev.now - 3 < x)) = some 98) ∧
    (let e := alter s fun d => ({ d with hm := { d.hm with relays := [(7, (frame 0).toNat)] } }.setR HM_TIME 0 9)
     e.pending = [] ∧ e.dev.hm.relays = [(7, (frame 0).toNat)] ∧ (e.dev.r HM_TIME + 1) % 2 ^ 32 = (7 + 3) % 2 ^ 32) ∧
    (s.dev.b HMRAIL_CTRL_EN_INTENT 0 = true ∧ s.dev.f HMRAIL_CTRL_TAG 0 = (frame 0).toNat / 2 ^ 32 % 2 ^ 6 ∧
      s.dev.b RAIL_STAT_POWER_GOOD 0 = true ∧ s.dev.b RAIL_STAT_SHUTTING 0 = false ∧ (s.dev.hr 0).act = none) ∧
    (∀ t ∈ [0, 1, 3], crc8 [(frame t).toNat / 2 ^ 32, 0, 0, 0] = (frame t).toNat % 2 ^ 8 ∧ (frame t).toNat / 2 ^ 38 = t) ∧
    crc8 [0, 0, 0, 0] ≠ (1#40).toNat % 2 ^ 8 ∧
    (st [(HM_PORTSTAT_STUCK, 0, 1)]).dev.b HM_PORTSTAT_STUCK = true ∧ (st []).dev.b HM_CTRL_PORT_EN = false ∧
    (st [(HM_CTRL_RELAY_EN, 0, 1)]).dev.b HM_CTRL_RELAY_EN = true ∧
    (st [(HM_CTRL_RELAY_EN, 0, 1)]).dev.f HM_RELAY_HI_BITS = (frame 0).toNat / 2 ^ 32 % 2 ^ 8 := by decide

/-- An ACTIVE prediction with a schedule of two segments. -/
def pred : Pred := { down := false, mr := 100, ts := 0, rise := 2, src := 0, preFrac := 1 }

/-- Rail 0 with `p` ACTIVE, its transient engine running. -/
def predicting (p : Pred) : State :=
  alter (st [(RAIL_TE_CTRL_EN, 0, 1), (RAIL_STAT_POWER_GOOD, 0, 1)]) fun d => d.modHr 0 fun h => { h with act := some p }

/-- PredictionsRunTheirCourse: a prediction whose bias starts and whose first segment only is due, with all of them due, one
that misses in this cycle, that is to be reversed, that has ended with and without a NEXT; and none: an observation whose
window has passed, an event to learn, an interval that has passed. -/
theorem witness_prediction :
    let s := predicting pred
    ((s.dev.hr 0).act = some pred ∧ pred.cancelled = false ∧ pred.preFrac ≠ 0 ∧ pred.j0 < max 1 pred.rise ∧
      pred.resized = none ∧ s.dev.teRuns 0 = true ∧ pred.hit = false ∧ pred.missed = false ∧ pred.down = false) ∧
    (let m := alter s fun d => d.setR HM_TIME 0 32
     (m.dev.hr 0).act = some pred ∧ 0 ≤ toS 32 (m.dev.r HM_TIME + 2 ^ 32 - (pred.ts + 8 * pred.wLate + 16 * pred.rise) % 2 ^ 32) ∧
       ¬ 0 ≤ toS 32 (s.dev.r HM_TIME + 2 ^ 32 - (pred.ts + 8 * pred.wLate + 16 * pred.rise) % 2 ^ 32)) ∧
    (0 ≤ toS 32 (s.dev.r HM_TIME + 2 ^ 32 - 0) ∧ ¬ 0 ≤ toS 32 (s.dev.r HM_TIME + 2 ^ 32 - 16)) ∧
    (∀ j < 2, 0 ≤ toS 32 (16 + 2 ^ 32 - 16 * j)) ∧
    (let r := alter s fun d => d.modHr 0 fun h => { h with revCause := true }
     (r.dev.hr 0).revCause = true ∧ (r.dev.hr 0).revOld = []) ∧
    (let p := { pred with rise := 0, preFrac := 0 }
     let e := predicting p
     (e.dev.hr 0).act = some p ∧ e.dev.due p.wEnd = true ∧ p.schedDone = true ∧ (e.dev.hr 0).hmb = 0 ∧
       ((alter e fun d => d.modHr 0 fun h => { h with next := some pred }).dev.hr 0).next = some pred) ∧
    s.dev.due pred.wEnd = false ∧ (s.dev.hr 0).next = none ∧ ((st []).dev.hr 0).act = none ∧
    (let o : Obs := ⟨7, 0, 0, 1⟩
     let l := fun b => alter (later (st [(HMRAIL_CTRL_LEARN, 0, b)]) 1) fun d =>
       (d.setR HM_TIME 0 8).modHr 0 fun h => { h with obs := [o], ev := [(0, some 4, 64, true)] }
     (l 0).dev.b HMRAIL_CTRL_LEARN 0 = false ∧ ((l 0).dev.hr 0).obs = [o] ∧
       0 ≤ toS 32 ((l 0).dev.r HM_TIME + 2 ^ 32 - (o.time + 8 * o.win) % 2 ^ 32) ∧
       (l 1).dev.b HMRAIL_CTRL_LEARN 0 = true ∧ (l 1).dev.spanOf 0 = none ∧ 0 < o.win ∧ o.win < 2 ^ 20 ∧ o.time < 2 ^ 32 ∧
       ((l 1).dev.hr 0).ev = [(o.time, some 4, 64, true)] ∧ ((l 1).dev.hr 0).sig = [] ∧ ((l 1).dev.hr 0).wrAt = none) ∧
    (let a := alter (st []) fun d => { d with hm := { d.hm with cyc := 400000 } }
     a.dev.hm.cyc = (a.dev.hr 0).ageAt + 400000 * 2 ^ a.dev.f HMRAIL_XLEARN_AGE_DIV 0 ∧ (a.dev.hr 0).sig = []) := by decide

/-- SignaturesAreLearned: an observation whose window has passed while no event is open, an event to learn with one
observation in its window, an empty table and one whose entry has its key; an interval that has passed and one that
lacks a cycle; entries that age, that lose confidence and that leave. -/
theorem witness_signatures :
    let o : Obs := ⟨7, 0xFFFF, 0, 1⟩
    let w := fun (l : List (Fld × Nat × Nat)) (sig : List (Word × Word)) => alter (st ((HMRAIL_CTRL_LEARN, 0, 1) :: l)) fun d =>
      d.modHr 0 fun h => { h with obs := [o], ev := [(4, some 8, 640, false)], sig := sig }
    let x : Word × Word := (0x8017FFFF, 0)
    let s := w [] [x]
    (s.dev.b HMRAIL_CTRL_LEARN 0 = true ∧ s.dev.spanOf 0 = none ∧ (s.dev.hr 0).ev = (4, some 8, 640, false) :: [] ∧
      (s.dev.hr 0).obs = [o] ∧ 0 ≤ tdiff 4 o.time ∧ tdiff 4 (tadd o.time (8 * o.win)) < 0 ∧
      (s.dev.hr 0).wrAt ≠ some (s.dev.now, 0) ∧ o.engine < 8) ∧
    (s.dev.hr 0).sig = [x] ∧ x.1.getLsbD 31 = true ∧ x.1.toNat % 2 ^ 19 = o.token % 2 ^ 16 + o.engine * 2 ^ 16 ∧
      x.1.getLsbD 19 = false ∧ x.1.toNat / 2 ^ 20 % 16 = 1 ∧ x.1.toNat / 2 ^ 24 % 16 = 0 ∧
    ((w [] []).dev.hr 0).sig = [] ∧
    (let p := alter (st []) fun d => d.modHr 0 fun h => { h with obs := [o, { o with win := 0 }] }
     (p.dev.hr 0).obs = [o] ++ { o with win := 0 } :: [] ∧ p.dev.b HMRAIL_CTRL_LEARN 0 = false ∧
       ¬ 0 ≤ toS 32 (p.dev.r HM_TIME + 2 ^ 32 - (o.time + 8 * o.win) % 2 ^ 32) ∧
       0 ≤ toS 32 (p.dev.r HM_TIME + 2 ^ 32 - (o.time + 8 * 0) % 2 ^ 32)) ∧ ((st []).dev.hr 0).ev = [] ∧
    (let a := fun k => alter (st []) fun d => { d with hm := { d.hm with cyc := k } }
     400000 * 2 ^ (a 400000).dev.f HMRAIL_XLEARN_AGE_DIV 0 ≤ (a 400000).dev.hm.cyc - ((a 400000).dev.hr 0).ageAt ∧
       ¬ 400000 * 2 ^ (a 399999).dev.f HMRAIL_XLEARN_AGE_DIV 0 ≤ (a 399999).dev.hm.cyc - ((a 399999).dev.hr 0).ageAt) ∧
    ((0x8F100000#32).toNat / 2 ^ 24 % 16 = 15 ∧ (0x8F200000#32).toNat / 2 ^ 20 % 16 = 2) := by decide

/-! ### Witnesses: calibration and stage faults -/

/-- Slice 31 in state `state` and step `step` of its calibration `c`. -/
def inCal (state step : Nat) (c : CalSt) (l : List (Fld × Nat × Nat) := []) : State :=
  alter (st ([(SLICE_STAT_ROLE, 31, 1), (SLICE_STAT_STATE, 31, state), (SLICE_STAT_CALSTEP, 31, step)] ++ l)) fun d =>
    d.modCal 31 fun _ => c

/-- CalibrationForms: the 256th offset code, a pulse that ends, results to be formed in CAL and in READMIT, ZMAX that ends in
both steps, after the last pulse, and where the ZERO condition holds. -/
theorem witness_calibration :
    (let s := inCal 4 2 { ofsN := 256 }
     s.dev.sState 31 = stCal ∧ s.dev.f SLICE_STAT_CALSTEP 31 = 2 ∧ (s.dev.slice 31).cal.ofsN = 256) ∧
    (let s := later (inCal 6 3 { pulsing := true }) 44
     (s.dev.slice 31).cal.pulsing = true ∧
       (s.dev.slice 31).cal.h0 + 2 * (2 * s.dev.calTh (s.dev.sRail 31) + 8) < s.dev.now + 5 ∧
       ¬ (s.dev.slice 31).cal.h0 + 2 * (2 * s.dev.calTh (s.dev.sRail 31) + 8) < s.dev.now + 4) ∧
    (let s := inCal 6 4 { a := 1, v := 1 }
     let c := (s.dev.slice 31).cal
     s.dev.sState 31 = stReadmit ∧ s.dev.f SLICE_STAT_CALSTEP 31 = 4 ∧ c.abort = false ∧ c.ret = false ∧ c.a ≠ 0 ∧
       c.a + c.b ≠ 0 ∧ c.v ≠ 0) ∧
    (let s := later (inCal 4 1 {}) 400
     let c := (s.dev.slice 31).cal
     c.abort = false ∧ c.ret = false ∧ c.passed = false ∧ s.dev.f SLICE_STAT_CALSTEP 31 = 1 ∧ c.pulsing = false ∧
       c.win.length ≠ 16 ∧ c.since + 400 * max 1 (s.dev.a RAIL_XCAL2_ZMAX (s.dev.sRail 31)) = s.dev.now) ∧
    (let s := fun n w => later (inCal 6 3 { pulses := n, win := w }) 400
     let most := fun n w => [4, 8, 16].getD ((s n w).dev.f RAIL_CAL_NPSEL ((s n w).dev.sRail 31)) 16
     ((s 3 []).dev.slice 31).cal.pulses < most 3 [] ∧ most 4 [] = ((s 4 []).dev.slice 31).cal.pulses ∧
       (let x := s 0 (List.replicate 16 0)
        (x.dev.slice 31).cal.win.length = 16 ∧
          spreadOf (x.dev.slice 31).cal.win ≤ x.dev.a RAIL_XCAL2_SPREAD (x.dev.sRail 31))) := by decide

/-- SliceCommandsAndStageFaults: a slice with a role, FAULTED and not, one without; a cluster whose window is open and
closed, over and not, with a slice attributed and without. -/
theorem witness_slices :
    let s := inCal 0 0 {}
    (s.dev.sRole 31 ≠ roleNone ∧ s.dev.sState 31 ≠ stFaulted) ∧ s.dev.sRole 30 = roleNone ∧
    (inCal 5 0 {}).dev.sState 31 = stFaulted ∧ s.dev.accum.ow.running = false ∧
    (s.dev.b CL_STAT_STGFLT 7 = false ∧ s.dev.b CL_STAT_ATTR_RUN 7 = false ∧ (s.dev.cluster 7).attr = false) ∧
    (let o := alter (st [(CL_STAT_ATTR_RUN, 7, 1)]) fun d => d.modCluster 7 fun c => { c with winEnd := 2 }
     o.dev.b CL_STAT_ATTR_RUN 7 = true ∧ o.dev.now < (o.dev.cluster 7).winEnd ∧
       (o.dev.cluster 7).winEnd ≤ (later o 2).dev.now ∧ (o.dev.cluster 7).attr = false) ∧
    ((alter s fun d => d.modCluster 7 fun c => { c with attr := true }).dev.cluster 7).attr = true := by decide

/-! ### Witnesses: the ring -/

/-- LanesAndClocks: a lane in each state, trained and starved, the root and another device, each clock state, REF at the port
and at the other with the listening time over and not, and a port that may not drive, and 2 ms of holdover. -/
theorem witness_lanes :
    (st [(CHAIN_UPORT_RX, 0, 2)]).dev.f CHAIN_UPORT_RX = 2 ∧ (st []).dev.f CHAIN_DPORT_RX ≠ 2 ∧
    (st [(CHAIN_STAT_ROOT, 0, 1)]).dev.b CHAIN_STAT_ROOT = true ∧ (st []).dev.b CHAIN_STAT_ROOT = false ∧
    ((st []).dev.f CHAIN_STAT_REF = 0 ∧ (st []).dev.f CHAIN_STAT_CKSTATE = ckLocked) ∧
    (∀ k ∈ [1, 2, 3], (st [(CHAIN_STAT_CKSTATE, 0, k)]).dev.f CHAIN_STAT_CKSTATE = k) ∧
    (let s := alter (later (st [(CHAIN_STAT_REF, 0, 1)]) 1000) fun d => d.modChain fun c => { c with pllOk := true, lockAt := 488 }
     s.dev.f CHAIN_STAT_REF = 1 - 0 ∧ s.dev.f CHAIN_STAT_CKSTATE = ckLocked ∧ s.dev.f CHAIN_UPORT_RX ≠ 3 ∧
       s.dev.chain.pllOk = true ∧ max s.dev.chain.lockAt (s.dev.lane 0).mendAt + 512 = s.dev.now ∧
       (later s 999).dev.now < max s.dev.chain.lockAt (s.dev.lane 0).mendAt + 512) ∧
    (let s := st [(CHAIN_STAT_REF, 0, 1), (CHAIN_UPORT_RX, 0, 3)]
     s.dev.b CHAIN_STAT_ROOT = false ∧ s.dev.f CHAIN_STAT_REF = 1 - 0 ∧ s.dev.f CHAIN_UPORT_RX = 3) ∧
    (let s := fun k => alter (later (st [(CHAIN_UPORT_RX, 0, k)]) 513) fun d => d.modLane 0 fun x => { x with good := 64, okAt := 1 }
     (∀ k ∈ [1, 3], (s k).dev.f CHAIN_UPORT_RX = k ∧ 64 ≤ ((s k).dev.lane 0).good) ∧
       ∀ k ∈ [1, 2], (s k).dev.f CHAIN_UPORT_RX = k ∧ ((s k).dev.lane 0).okAt + 512 = (s k).dev.now) ∧
    (let s := alter (st [(CHAIN_STAT_CKSTATE, 0, 1), (RAIL_STAT_ENABLED, 7, 1)]) fun d => d.modChain fun c =>
       { c with holdCyc := 800000 }
     s.dev.f CHAIN_STAT_CKSTATE = ckHoldover ∧ s.dev.anyEnabled = true ∧ s.dev.chain.holdCyc = 800000) ∧
    ((st []).dev.anyEnabled = false ∧ (st []).dev.b SYSCTL_CLK_SRC = true) := by
  decide

/-- A cell with the upper 28 bits `v` and its check code. -/
def cellOf (v : Nat) : Word := BitVec.ofNat 32 (16 * v + crcMsb 4 0x3 0xF (msbBits 28 v))

/-- CellsAreForwarded: sound cells of shares and of control, an unsound one, in time by the least tolerance and too late, on
a lane that runs. -/
theorem witness_cells :
    let s := st [(CHAIN_UPORT_RX, 0, 2), (CHAIN_STAT_POS, 0, 16), (CHAIN_UPORT_HEAD, 0, 1)]
    (∀ v ∈ [0, 0x8020000], (cellOf v).toNat % 16 = crcMsb 4 0x3 0xF (msbBits 28 ((cellOf v).toNat / 16)) ∧
      (cellOf v).toNat / 16 = v) ∧
    ((cellOf 0).toNat / 2 ^ 20 % 2 ^ 12 ≠ 0x802 ∧ (cellOf 0x8020000).toNat / 2 ^ 20 % 2 ^ 12 = 0x802) ∧
    (cellOf 0 ^^^ 1#32).toNat % 16 ≠ crcMsb 4 0x3 0xF (msbBits 28 ((cellOf 0 ^^^ 1#32).toNat / 16)) ∧
    (8 ≤ max 8 (s.dev.f CHAIN_XTIME_LATE_TOL) ∧ max 8 (s.dev.f CHAIN_XTIME_LATE_TOL) < 9) ∧
    s.dev.f CHAIN_UPORT_RX = 2 ∧ s.dev.b CHAIN_STAT_ROOT = false ∧ s.dev.f CHAIN_STAT_POS = 16 ∧
    s.dev.b CHAIN_UPORT_HEAD = true ∧ s.dev.b CHAIN_DPORT_HEAD = false ∧ (s.dev.lane 0).rx = [] := by decide

/-- RingTimeAndEnumeration: another device without a position, whose RT is set and whose wait is over, a root that can
enumerate, one that waits for lane 0 to return after its time, with and without a hint. -/
theorem witness_enumeration :
    let e := fun (h : Nat) => alter (st [(CHAIN_STAT_ROOT, 0, 1), (CHAIN_UPORT_RX, 0, 2), (CHAIN_DPORT_RX, 0, 3)]) fun d =>
      { d with now := 4000, chain := { d.chain with enumPhase := 1, enumAt := some 0 } }.setR BD_REG 8 h
    (let s := alter (later (st [(CHAIN_STAT_POS, 0, 16), (CHAIN_DPORT_RX, 0, 2)]) (256 * 1024)) fun d =>
       d.modChain fun c => { c with rtSet := true }
     s.dev.f CHAIN_STAT_POS = 16 ∧ s.dev.chain.sized = false ∧ s.dev.chain.rtSet = true ∧ s.dev.b CHAIN_STAT_ROOT = false ∧
       s.dev.f CHAIN_STAT_CKSTATE = ckLocked ∧ s.dev.chain.rtAt + 256 ≤ s.dev.now ∧ s.dev.f CHAIN_DPORT_RX = 2 ∧
       (s.dev.lane 1).upAt + 256 * 1024 = s.dev.now) ∧
    ((e 0).dev.b CHAIN_STAT_ROOT = true ∧ (e 0).dev.f CHAIN_UPORT_RX = 2 ∧ (e 0).dev.f CHAIN_DPORT_RX = 3 ∧
      (e 0).dev.chain.enumPhase = 1 ∧ (e 0).dev.chain.enumM = 0 ∧ (e 0).dev.chain.enumAt = some 0 ∧ (e 0).dev.now = 4000 ∧
      (e 0).dev.r BD_REG 8 / 2 ^ 31 % 2 = 0) ∧
    (e (2 ^ 31)).dev.r BD_REG 8 / 2 ^ 31 % 2 = 1 := by decide

/-- SpanMessagesTakeEffect: a follower led by position 5, a member and no member, one whose rail is ARMED; boundary bytes that
name a boundary and that name none; a BT0 that is less than 2^23 ahead and one that is not; a rail that takes a relayed
prediction; a target whose RT is reached and one whose RT is not. -/
theorem witness_span_messages :
    let s := member 2 [(CHAIN_SPANc_STAT_LEAD, 0, 5), (RAIL_STAT_POWER_GOOD, 3, 1), (HMRAIL_CTRL_EN_SIG, 3, 1)]
    ((s.dev.span 0).used = true ∧ s.dev.f CHAIN_SPANc_STAT_ROLE 0 = 2 ∧ s.dev.f CHAIN_SPANc_STAT_LEAD 0 = 5) ∧
    ((s.dev.span 0).bt0 = none ∧ ((alter s fun d => d.modSpan 0 fun c => { c with bt0 := some 0 }).dev.span 0).bt0 ≠ none) ∧
    ((s.dev.span 0).k = 0 ∧ s.dev.planBoundaries 3 + 1 < 128 ∧ (0 + 2 ^ 24 - s.dev.r CHAIN_RTIME % 2 ^ 24) % 2 ^ 24 < 2 ^ 23 ∧
      ¬ (2 ^ 23 + 2 ^ 24 - s.dev.r CHAIN_RTIME % 2 ^ 24) % 2 ^ 24 < 2 ^ 23) ∧
    ((alter s fun d => d.modRail 3 fun x => { x with phase := .armed }).dev.rail 3).phase = .armed ∧
    (0 ≤ toS 32 (s.dev.r CHAIN_RTIME + 2 ^ 32 - 0 % 2 ^ 32) ∧ toS 32 (s.dev.r CHAIN_RTIME + 2 ^ 32 - 1 % 2 ^ 32) < 0) ∧
    (s.dev.f CHAIN_SPANc_STAT_RAIL 0 = 3 ∧ s.dev.b RAIL_STAT_POWER_GOOD 3 = true ∧ s.dev.b RAIL_STAT_SHUTTING 3 = false ∧
      s.dev.b HMRAIL_CTRL_EN_SIG 3 = true ∧ (s.dev.hr 3).act = none) ∧
    (st []).dev.f CHAIN_SPANc_STAT_ROLE 0 = 0 ∧
    ((alter s fun d => d.modSpan 0 fun c => { c with target := [(2 ^ 16 - 1, 0), (0, 1)] }).dev.span 0).target =
      (2 ^ 16 - 1, 0) :: [(0, 1)] ∧ ((st []).dev.span 0).target = [] ∧ (s.dev.xferAhead 0 < 256) := by decide

/-- SpanChannelRuns: a member at BT0, and 7 cycles before it, whose rail is ARMED and is not; a follower in FOLLOW with its
last miss and in AUTO with 15 and 16 periods of shares; the deputy that takes over; a lead that is free, with a command and
with a plan position to give; the cut of a boundary reached and a part of a cycle short of it. -/
theorem witness_span_runs :
    let at0 := fun (s : State) => alter s fun d => d.modSpan 0 fun c => { c with
      vpre := some 0, bt0 := some 6, noneSeen := true, gotRun := 16, missRun := 1, e := 192 }
    let armed := alter (at0 (member 1)) fun d => d.modRail 3 fun x => { x with phase := .armed }
    ((armed.dev.span 0).used = true ∧ (armed.dev.span 0).vpre.isSome = true ∧ (armed.dev.rail 3).phase = .armed ∧
      (armed.dev.span 0).bt0 = some 6 ∧ -6 ≤ toS 32 (armed.dev.r CHAIN_RTIME + 2 ^ 32 - 6 % 2 ^ 32) ∧
      toS 32 (armed.dev.r CHAIN_RTIME + 2 ^ 32 - 7 % 2 ^ 32) < -6) ∧
    ((at0 (member 1)).dev.rail 3).phase ≠ .armed ∧
    (let s := at0 (member 2 [(CHAIN_SPANc_STAT_STATE, 0, 2)])
     s.dev.f CHAIN_SPANc_STAT_STATE 0 = spFollow ∧ max 1 (s.dev.f CHAIN_XTIME_MISS_LIM) = (s.dev.span 0).missRun) ∧
    (let s := alter (at0 (member 2 [(CHAIN_SPANc_STAT_STATE, 0, 3), (CHAIN_SPANc_STAT_LEAD, 0, 1)])) fun d =>
       d.setR CHAIN_RTIME 0 1024
     s.dev.f CHAIN_SPANc_STAT_LEAD 0 ≠ s.dev.f CHAIN_STAT_POS ∧ s.dev.f CHAIN_SPANc_STAT_ROLE 0 = 2 ∧ s.dev.f CHAIN_SPANc_STAT_STATE 0 = spAuto ∧ (s.dev.span 0).noneSeen = true ∧
       16 ≤ (s.dev.span 0).gotRun ∧ s.dev.f CHAIN_STAT_POS < 16 ∧ (1024 * max 1 (s.dev.f CHAIN_XTIME_LEAD_LIM) : Nat) =
         toS 32 (s.dev.r CHAIN_RTIME + 2 ^ 32 - (s.dev.span 0).autoAt % 2 ^ 32)) ∧
    (let s := at0 (member 2 [(CHAIN_SPANc_STAT_STATE, 0, 3)])
     0 ≤ toS 37 (32 * (s.dev.r CHAIN_RTIME + 6) + 2 ^ 37 - (s.dev.span 0).e) ∧
       ¬ 0 ≤ toS 37 (32 * (s.dev.r CHAIN_RTIME + 6) + 2 ^ 37 - 193)) ∧
    (let s := member 1
     s.dev.f CHAIN_SPANc_STAT_ROLE 0 = 1 ∧ (s.dev.span 0).cmd = 0 ∧ 15 ≠ s.dev.f CHAIN_STAT_POS ∧ 15 ∉ (s.dev.span 0).plan) ∧
    (let s := alter (member 1) fun d => d.modSpan 0 fun c => { c with plan := [15] }
     15 ∈ (s.dev.span 0).plan ∧ s.dev.takers 0 3 15 = []) ∧
    (let s := alter (member 1 [(CHAIN_STAT_M, 0, 2), (CHAIN_SPANc_MEMB_MEMBERS, 0, 2)]) fun d =>
       (d.modSpan 0 fun c => { c with plan := [15], ready := [(1, 1, true, 0)] })
     ((s.dev.span 0).plan.filter (· == 15)).length ≤ (s.dev.takers 0 3 15).length) ∧
    (let s := alter (member 1) fun d => d.modSpan 0 fun c => { c with cmd := 1 }
     (s.dev.span 0).cmd ≠ 0 ∧ (s.dev.span 0).k = (s.dev.span 0).cmdBound ∧
       0 ≤ toS 37 (32 * (s.dev.r CHAIN_RTIME + 6) + 2 ^ 37 - (s.dev.span 0).e) ∧
       ¬ 0 ≤ toS 37 (32 * (s.dev.r CHAIN_RTIME + 6) + 2 ^ 37 - 193)) ∧
    (st [(CHAIN_SPANCMDST_STATE, 0, 2)]).dev.f CHAIN_SPANCMDST_STATE = opDone ∧
    (∀ r ∈ [2, 3], let s := st [(CHAIN_SPANCMDST_STATE, 0, 4), (CHAIN_SPANCMDST_REASON, 0, r)]
      s.dev.f CHAIN_SPANCMDST_STATE = opFailed ∧ s.dev.f CHAIN_SPANCMDST_REASON = r) := by decide

/-! ### Witnesses: the bus and the planes -/

/-- BusAccesses: a core that owns a block and one that does not, no supervisor limit, the edges of holes, an open debug port,
a plane byte that nothing holds and one that the fabric holds. -/
theorem witness_bus :
    (∀ c, Master.dma ≠ .core c true) ∧ (st []).dev.flash.fillAt ≠ some (st []).dev.now ∧
    (let s := alter (st []) fun d => { d with flash := { d.flash with fillAt := some 0 } }
     s.dev.flash.fillAt = some s.dev.now) ∧
    ((apart inSup inSup).dev.r SYSCTL_OWNER).testBit 0 ≠ decide (CoreId.b = .b) ∧
    (0x10000 ≤ 0x10000 ∧ (0xFFFFFFFF#32).toNat ≥ 0xF0000400 ∧ (0x40000002#32).toNat % 4 ≠ 0) ∧
    (st [(SECURE_STAT_DBG, 0, 2)]).dev.f SECURE_STAT_DBG = 2 ∧ (st []).dev.bankHeld .jtag (sramBank 0x2007FFFC) = false ∧
    (∀ k < 4, (st []).dev.byteInForce [] 1 (0x17FFC + k) = false) ∧
    (st [(CFG_STAT_FABRIC_ON, 0, 1)]).dev.byteInForce [(0x30000040, 1), (0x30000040 + 2 ^ 33, 1)] 0 0 = true := by
  refine ⟨fun _ => by simp, by decide, by decide, by decide, by decide, by decide, by decide, by decide, by decide⟩

/-- PlanesAndRequests: the last word of the scrubber's pass, due and not, with a wrong cell, a fabric that stands and runs,
a rail enable that waits alone, a swap that waits for its sections, an enabled rail. -/
theorem witness_planes :
    (st []).dev.b CFG_CTRL_FABRIC_EN = false ∧ (st [(CFG_CTRL_FABRIC_EN, 0, 1)]).dev.b CFG_CTRL_FABRIC_EN = true ∧
    (st []).dev.b SYSCTL_CLK_SRC = true ∧ (st [(SYSCTL_CLK_SRC, 0, 0)]).dev.b SYSCTL_CLK_SRC = false ∧
    (let s := alter (later (st []) 4) fun d => d.modCfg fun c => { c with scrubPos := 49151, scrubAt := 4 }
     s.dev.cfg.scrubPos < 49152 ∧ s.dev.cfg.scrubAt ≤ s.dev.now ∧ (later s 3).dev.now < s.dev.cfg.scrubAt) ∧
    (∃ k < 4, ∃ c ∈ [0, 2 ^ 33, 2 ^ 34], Mem.read [(0x3004FFFC, 1)] (0x3004FFFC + k + c) ≠
      Mem.readPlane [(0x3004FFFC, 1)] (0x3004FFFC + k)) ∧
    (st []).dev.cfg.queue = [] ∧
    (let s := alter (st []) fun d => d.modCfg fun c => { c with queue := [0x17], qPlane := [(0x17, 0, 7)] }
     s.dev.cfg.queue = [0x10 + 7] ∧ s.dev.cfg.qPlane = [(0x10 + 7, 0, 7)] ∧
       (Chk.judge ⟨s.dev.unrequest 0x17, [], 0x17, 0, 7, 0⟩).isSome = true) ∧
    (let s := alter (st []) fun d => d.modCfg fun c => { c with devTo := some 1, swapOpen := true }
     (∀ n < 8, (s.dev.rail n).sq.swapTo = none) ∧ s.dev.cfg.devTo = some 1 ∧ s.dev.cfg.swapOpen = true ∧
       findSec (dirList s.mem 1) 4 0xFF = none ∧ findSec (dirList s.mem 1) 5 0xFF = none) ∧
    (∃ n < 8, (st [(RAIL_STAT_ENABLED, 7, 1)]).dev.b RAIL_STAT_ENABLED n = true) := by decide

/-! ### Witnesses: measurement and the log -/

/-- MeasurementCommands: an expert routing in range at its ends and out of it, an input free for its test and not, a test that
has taken its last sample, each check of a long operation failed and passed, and each way one ends. -/
theorem witness_measurement :
    ((st [(ACCUM_CTRL_EXPERT_UNLOCK, 0, 1)]).dev.b ACCUM_CTRL_EXPERT_UNLOCK = true ∧
      (st []).dev.b ACCUMu_CFG_HELD 63 = false ∧ (st []).dev.sourceOk 0x58 = true ∧ ¬ 0x61 ≤ 0x60 ∧
      (0x01000858#32).toNat / 256 % 16 = 8 ∧ (0x01000858#32).toNat &&& 0xFEF00000 = 0) ∧
    ((st []).dev.accum.ow.running = false ∧ (st []).dev.b RAIL_STAT_ENABLED 7 = false ∧
      ((st []).dev.slice 31).present = false ∧
      (let s := alter (st []) fun d => d.modSlice 31 fun x => { x with present := true }
       (s.dev.slice 31).present = true ∧ s.dev.sRole 31 = roleNone)) ∧
    (let s := alter (st []) fun d => { d with accum := { d.accum with ow :=
       { d.accum.ow with running := true, n := 256, kind := 1 } } }
     s.dev.accum.ow.running = true ∧ 256 ≤ s.dev.accum.ow.n ∧ s.dev.accum.ow.kind = 1 ∧ s.dev.accum.ow.waiting = []) ∧
    (let on := [(CFG_STAT_FABRIC_ON, 0, 1), (RAIL_STAT_ENABLED, 0, 1)]
     let cap := alter (st on) fun d => (d.setR ACCUM_LOPCFG 0 (1 + 61 * 2 ^ 8)).setR ACCUM_LOPCFG 1 (64 + 63 * 2 ^ 8)
     let swp := alter (st (on ++ [(RAIL_STAT_POWER_GOOD, 0, 1)])) fun d => ((d.setR ACCUM_LOPCFG 0 (1 + 2 ^ 24)).setR
       ACCUM_LOPCFG 1 4295).setR ACCUM_LOPCFG 2 (64 * 2 ^ 16)
     let c := fun (s : State) (k lo w : Nat) => s.dev.r ACCUM_LOPCFG k / 2 ^ lo % 2 ^ w
     (st []).dev.b CFG_STAT_FABRIC_ON = false ∧ (st [(ACCUM_LOPSTAT_STATE, 0, 1)]).dev.f ACCUM_LOPSTAT_STATE = 1 ∧
     (cap.dev.f ACCUM_LOPSTAT_STATE ≠ 1 ∧ cap.dev.b CFG_STAT_FABRIC_ON = true ∧ cap.dev.b RAIL_STAT_ENABLED 0 = true ∧
       c cap 0 0 4 = 1 ∧ c cap 0 8 6 = 61 ∧ c cap 0 16 3 = 0 ∧ c cap 1 0 7 = 64 ∧ c cap 1 8 7 = 63) ∧
     (swp.dev.b RAIL_STAT_POWER_GOOD 0 = true ∧ swp.dev.b RAIL_STAT_SHUTTING 0 = false ∧ c swp 0 0 16 = 1 ∧ c swp 0 24 8 = 1 ∧
       swp.dev.r ACCUM_LOPCFG 1 = 4295 ∧ c swp 2 16 7 = 64 ∧ swp.dev.spanOf 0 = none) ∧ (st on).dev.freeSpares 0 = []) ∧
    (let r := fun (f : LopSt → LopSt) => alter (later (st [(ACCUM_LOPSTAT_STATE, 0, 1)]) 400000) fun d => d.modLop f
     let late := (r fun x => { x with op := 1, c2 := 1 }).dev.accum.lop
     let waits := (r fun x => { x with op := 3 }).dev.accum.lop
     (late.op = 1 ∧ late.trig = false ∧ late.c2 % 2 ^ 16 ≠ 0 ∧ late.startAt + 400000 * (late.c2 % 2 ^ 16) = (r id).dev.now) ∧
       waits.op = 3 ∧ waits.cur = none ∧ waits.waitAt + 400000 * (waits.c0 / 2 ^ 8 % 2 ^ 8) ≤ (r id).dev.now) := by decide

/-- An entry of class `cls` and TYPE `typ`. -/
def entry (cls typ : Nat) : LogEnt := ⟨cls, typ, 0, 0, 0, [], 0, 0⟩

/-- A state whose log is `l`. -/
def logged (l : LogSt) (fs : List (Fld × Nat × Nat) := []) : State := alter (st fs) fun d => { d with log := l }

/-- LogCommands: an entry for the slot after one that is held, one that merges, an open incident that has been quiet, posts
of each kind, a queue of 47 and of 48 from earlier cycles, unread entries of which one is the oldest, a pinned slot and
another. -/
theorem witness_log :
    let x : SlotSt := { slot := 0, seq := 7, cls := 1, typ := 0x800, src := 0 }
    (let s := logged { intake := [entry 0 1], slots := [x] }
     s.dev.log.intake = [entry 0 1] ∧ s.dev.coalMode = false ∧ firstEmpty s.dev.log.slots 0 = some 1) ∧
    (let y := { x with coal := some 0 }
     let s := logged { intake := [entry 1 0x800], slots := [y] } [(LOG_INCID_OPEN, 0, 1)]
     s.dev.coalMode = true ∧ s.dev.mergeSlot (entry 1 0x800) = some y ∧ s.dev.b LOG_INCID_OPEN = true) ∧
    ((0x1800#32).toNat / 2 ^ 12 % 4 ≠ 0 ∧ 0x800 ≤ (0x1800#32).toNat % 2 ^ 12 ∧ (0x17FF#32).toNat % 2 ^ 12 < 0x800 ∧
      (0x0800#32).toNat / 2 ^ 12 % 4 = 0) ∧
    (let s := later (logged {} [(LOG_INCID_OPEN, 0, 1)]) 400000
     s.dev.b LOG_INCID_OPEN = true ∧ s.dev.log.quietAt + 400000 * max 1 (s.dev.f LOG_XCFG_QUIET) = s.dev.now) ∧
    (let s := later (logged { intake := List.replicate 48 (entry 1 0x800) }) 2
     ∀ x ∈ s.dev.log.intake, x.cyc ≠ s.dev.now / if s.dev.b SYSCTL_CLK_SRC then 2 else 8) ∧
    ((logged { intake := List.replicate 47 (entry 1 0x800) }).dev.log.intake.length < 48 ∧
      48 ≤ (logged { intake := List.replicate 48 (entry 1 0x800) }).dev.log.intake.length) ∧
    (let s := logged { slots := [x, { x with slot := 1, seq := 6 }], pinHost := some 2 }
     s.dev.log.pinCore = none ∧ ∃ y ∈ s.dev.log.slots, y.read = false ∧ s.dev.log.pinHost ≠ some y.slot) ∧
    (let s := logged { slots := [{ x with read := true }], pinCore := some 0 }
     s.dev.log.pinCore = some 0 ∧ s.dev.log.pinCore ≠ some 1 ∧ ∀ y ∈ s.dev.log.slots, y.read ≠ false) := by decide

/-! ### Witnesses: modes, resets, the watchdog, security -/

/-- A device that sleeps in STANDBY in phase `p` of its sleep. -/
def asleep (p : Nat) (l : List (Fld × Nat × Nat) := []) : State :=
  alter (st ((SYSCTL_MODE_MODE, 0, 1) :: l)) fun d => { d with mode := { d.mode with sleep := p } }

/-- ModesResetsAndWatchdog: a reset that is due with the ROM to wait in step 2, every condition of STANDBY, a warning that is
masked and one that is not, an enabled rail and none, SAFE entered in this cycle and before, each wake and one whose condition
does not hold, the watchdog at half its time, at its end and off, a boot that waits for the PLL and one whose wait is over. -/
theorem witness_modes :
    (let s := alter (st [(FLASHC_STAT_SCAN_DONE, 0, 1), (FLASHC_STAT_FCAL_OK, 0, 1), (SYSCTL_MODE_MODE, 0, 5)]) fun d =>
       { d with mode := { d.mode with due := some 255 } }
     s.dev.mode.due = some 255 ∧ s.dev.anyEnabled = false ∧ s.dev.flash.op ≠ 1 ∧ s.dev.sec.op = 0 ∧ s.dev.modeNow = modeSafe ∧
       s.dev.mode.nLow = false ∧ s.dev.b SYSCTL_CLK_PLL_LOCK = false ∧ s.dev.b FLASHC_STAT_SCAN_DONE = true ∧
       s.dev.b FLASHC_STAT_FCAL_OK = true) ∧
    ((Mem.fuseWrong []) = false ∧ Mem.lifecycle [] ≠ lcScrapped) ∧
    (let s := st [(SYSCTL_MODE_MODE, 0, 3), (CORE_STAT_LOCK, 0, 1)]
     s.dev.modeNow = modeConfigure ∧ s.dev.b CFG_CTRL_FABRIC_EN = false ∧ s.dev.flash.op = 0 ∧ s.dev.suspBlock = none ∧
       (∀ n < 16, s.dev.f CHn_STAT_STATE n = 0) ∧ s.dev.accum.lop.op = 0 ∧ s.dev.lockstep = true ∧
       s.dev.r SYSCTL_WAKEEN = 0) ∧
    ((st [(SYSCTL_XSUP_WARN_MASK, 0, 2 ^ 6)]).dev.f SYSCTL_XSUP_WARN_MASK).testBit 6 = true ∧
    (st [(RAIL_STAT_ENABLED, 7, 1)]).dev.anyEnabled = true ∧ (st [(SECURE_STAT_DBG, 0, 1)]).dev.debugOpen = true ∧
    (∀ p ∈ [1, 2, 3], (asleep p).dev.modeNow = modeStandby ∧ (asleep p).dev.mode.sleep = p) ∧
    (let s := alter (st [(SYSCTL_MODE_MODE, 0, 5)]) fun d => { d with mode := { d.mode with safeAt := some 7 } }
     s.dev.modeNow = modeSafe ∧ s.dev.mode.safeAt = some (later s 7).dev.now ∧ s.dev.mode.safeAt ≠ some (later s 8).dev.now) ∧
    (let s := fun a => alter (asleep 1 [(BD_CTRL_ALARM_EN, 0, a)]) fun d => d.setR SYSCTL_WAKEEN 0 (2 ^ 5)
     ((s 1).dev.r SYSCTL_WAKEEN).testBit 5 = true ∧ (s 1).dev.wakeHolds 5 = true ∧ (s 0).dev.wakeHolds 5 = false ∧
       (s 1).dev.enWired [] = false) ∧
    (let s := asleep 2 [(SYSCTL_WAKEEN_ALARM, 0, 1), (BD_CTRL_ALARM_EN, 0, 1)]
     s.dev.b SYSCTL_WAKEEN_ALARM = true ∧ s.dev.b BD_CTRL_ALARM_EN = true ∧ s.dev.bdTime = s.dev.bdAlarm) ∧
    (let s := alter (asleep 2) fun d => { d with mode := { d.mode with wakeAt := some (3, 15), edges := 3 } }
     s.dev.mode.wakeAt = some (3, 15) ∧ s.dev.mode.sleep = 2 ∧ 3 ≤ s.dev.mode.edges) ∧
    (let w := fun n => alter (st [(SYSCTL_WDOG_EN, 0, 1), (SYSCTL_WDOG_TIMEOUT, 0, 1), (SYSCTL_MODE_MODE, 0, 4)]) fun d =>
       { d with mode := { d.mode with wdog := n } }
     (w 16).dev.wdogOn = true ∧ (w 16).dev.wdogLimit = 2 * (w 16).dev.mode.wdog ∧
       (w 32).dev.wdogLimit ≤ (w 32).dev.mode.wdog ∧ ¬ (w 15).dev.wdogLimit ≤ 2 * (w 15).dev.mode.wdog) ∧
    (let s := alter (asleep 1) fun d => { d with mode := { d.mode with good := 1024 } }
     s.dev.mode.good = 1024 ∧ s.dev.mode.sleep = 1 ∧ s.dev.mode.sleepAt = s.dev.now ∧
       s.dev.mode.sleepAt ≠ (later s 1).dev.now ∧ (st []).dev.mode.good < 1024) ∧
    ((st []).dev.wdogOn = false ∧ (st []).dev.b BD_STAT_OSC_OK = false ∧
      (st [(BD_STAT_OSC_OK, 0, 1)]).dev.b BD_STAT_OSC_OK = true) ∧
    (let s := later (st [(SYSCTL_CLK_SRC, 0, 0), (SYSCTL_CLK_ROOT, 0, 1), (SYSCTL_MODE_MODE, 0, 2), (SECURE_STAT_BOOTSTEP, 0, 2)])
       4000000
     s.dev.mode.dormant = false ∧ s.dev.b SYSCTL_CLK_ROOT = true ∧ s.dev.modeNow = modeBoot ∧ s.dev.sec.romDone = false ∧
       s.dev.f SECURE_STAT_BOOTSTEP = 2 ∧ s.dev.b SYSCTL_CLK_PLL_LOCK = false ∧ s.dev.sec.romAt + 4000000 = s.dev.now) := by
  decide

set_option maxRecDepth 20000 in
/-- Blank fuses are complete. -/
theorem blank_fuses : Mem.completeFuses [] = [] := by decide

/-- ModesResetsAndWatchdog, the ROM: a device whose fuses are blank and whose calibration rows were found correct, with its
supplies and without. -/
theorem witness_rom_waits :
    let s := st [(FLASHC_STAT_FCAL_OK, 0, 1), (SYSCTL_RESETCAUSE_CAUSE, 0, 6)]
    let p := alter s fun d => { d with mode := { d.mode with dormant := true } }
    (RomWaits s false ∧ Powered s) ∧ RomWaits p p.dev.coldBoot ∧ ¬ Powered p :=
  have fuses : (Mem.completeFuses []).fuseWrong = false ∧ (Mem.completeFuses []).lifecycle ≠ lcScrapped := by
    rw [blank_fuses]; decide
  ⟨⟨⟨by decide, by decide, fuses.1, fuses.2⟩, rfl⟩, ⟨by decide, by decide, fuses.1, fuses.2⟩, by unfold Powered; decide⟩

/-- ModesResetsAndWatchdog, the keys: right and wrong, and a software reset with and without its bit. -/
theorem witness_keys : (0xC1EA#16).toNat = 0xC1EA ∧ (0xC3A5#16).toNat = 0xC3A5 ∧ (0#16).toNat ≠ 0xC3A5 ∧
    (0xA53C0001#32).toNat / 2 ^ 16 = 0xA53C ∧ (0xA53C0001#32).toNat % 2 = 1 ∧ (0xA53C0000#32).toNat % 2 = 0 ∧
    (0x5A0F#32).toNat % 2 ^ 16 = 0x5A0F := by decide

/-- SecurityCommands: a KMAC that is allowed and fits with its slot full and empty, one that does not fit, an operation that
runs and one that waits for its bank, an operation that the life cycle refuses; an unlock that is asked for and fails. -/
theorem witness_security :
    let s := alter (st [(SECURE_STAT_LC, 0, 2), (SECURE_OPLEN_LEN, 0, 16)]) fun d =>
      ((d.setR SECURE_OPSRC 0 0x20000000).setR SECURE_OPDST 0 0x20000000).setR SECURE_OPARG 0 0x4002
    let k := alter s fun d => { d with sec := { d.sec with keys := .replicate 8 [1] } }
    (s.dev.sec.op = 0 ∧ s.opAllowed 1 (s.dev.r SECURE_OPARG) = true ∧
      s.opBadArg 1 (s.dev.r SECURE_OPSRC) (s.dev.f SECURE_OPLEN_LEN) (s.dev.r SECURE_OPDST)
        (s.dev.r SECURE_OPARG) = false ∧ s.dev.key (s.dev.r SECURE_OPARG % 16) = []) ∧
    k.dev.key (k.dev.r SECURE_OPARG % 16) ≠ [] ∧
    (st []).opBadArg 1 0 16 0 0 = true ∧ (st []).opAllowed 5 0 = false ∧
    (∀ op ∈ [1, 9], (alter s fun d => { d with sec := { d.sec with op := op } }).dev.sec.op = op) ∧
    (let r := alter s fun d => { d with sec := { d.sec with op := 6, arg := 2 ^ 16, fed := true } }
     r.dev.flash.op = 0 ∧ (r.dev.core .a).aw = false ∧ (r.dev.core .b).aw = false ∧ r.secWaits = false ∧ r.dev.sec.op = 6 ∧ r.dev.sec.fed = true) ∧
    (let o := alter s fun d => { d with sec := { d.sec with op := 9, arg := 2 ^ 29 } }
     o.dev.sec.op = 9 ∧ o.fuseSteps o.dev.sec.op ≠ []) ∧
    (let w := alter s fun d => { d with flash := { d.flash with op := 2, addr := 0x08000000 }, sec := { d.sec with op := 4 } }
     w.dev.sec.op ≠ 0 ∧ w.secWaits = true) ∧
    (∀ op ∈ [2, 5, 8], let r := alter s fun d => { d with sec := { d.sec with op := op, fed := true } }
      r.dev.sec.op = op ∧ r.dev.sec.fed = true ∧ r.dev.flash.op = 0) ∧
    (let e := fun l => alter s fun d => { d with flash := { d.flash with fue := l } }
     (∃ k ∈ (e [0x08000000]).dev.flash.fue, bankAt s.dev.runBank ≤ k ∧ k < bankAt s.dev.runBank + 256) ∧
       (e []).dev.flash.fue = [] ∧ (e []).dev.flash.fce = [] ∧ (e []).dev.suspBlock = none) ∧
    (let b := alter s fun d => { d with sec := { d.sec with boots := 1 } }
     b.dev.sec.boots ≠ 0 ∧ s.dev.sec.boots = 0 ∧ ((2 : Fin 4).val ≠ 2 → s.dev.sec.boots ≠ 0)) ∧
    (s.dev.f SECURE_STAT_LC = 2 ∧ s.dev.f SECURE_STAT_DBG = 0 ∧ s.dev.sec.tries < 3 ∧ s.unlockOk 0 [] [] = false) ∧
    inSram (0x20080000 - 1793) 1793 = true ∧
    (st [(SECURE_OPSTAT_STATE, 0, 2)]).dev.f SECURE_OPSTAT_STATE = 2 := by decide

/-! ### Witnesses: RAM, flash, DMA -/

/-- RamAndFlashCommands: the scrubber's words clean, with a single-bit error and with an uncorrectable one; commands on the
first page and the last block, with a key and without, while one runs, suspended; ends of each kind. -/
theorem witness_flash :
    let s := alter (st [(FLASHC_XSCRUB_EN, 0, 1), (SYSCTL_MODE_MODE, 0, 3)]) fun d => d.setR FLASHC_ADDR 0 0x083FE000
    let f := fun (g : FlashSt → FlashSt) => alter s fun d => { d with flash := g d.flash }
    (let r := alter s fun d => { d with cpu := { d.cpu with cyc := 16 } }
     r.dev.b FLASHC_XSCRUB_EN = true ∧ r.dev.flash.scrubAt + max 16 (r.dev.f FLASHC_XSCRUB_STEP) = r.dev.cpu.cyc) ∧
    (st []).dev.b FLASHC_XSCRUB_EN = false ∧
    (scrubKey 0 ∉ s.dev.flash.ce ∧ scrubKey 0 ∉ s.dev.flash.ue) ∧
    scrubKey 0 ∈ (f fun x => { x with ce := [scrubKey 0] }).dev.flash.ce ∧
    scrubKey 147455 ∈ (f fun x => { x with ue := [scrubKey 147455] }).dev.flash.ue ∧
    (s.dev.modeNow ≠ modeSafe ∧ s.dev.flash.op = 0 ∧ 0x08000000 ≤ s.dev.r FLASHC_ADDR ∧ s.dev.r FLASHC_ADDR < 0x08400000 ∧
      s.dev.r FLASHC_ADDR % 0x2000 = 0 ∧ s.dev.suspBlock = none) ∧
    s.dev.flashWhy 1 0 0 ≠ 0 ∧ s.dev.flashWhy 2 0 0xF1A5 = 0 ∧
    (st [(FLASHC_SUSP_ACTIVE, 0, 1), (FLASHC_SUSP_BANK, 0, 1), (FLASHC_SUSP_BLOCK, 0, 255)]).dev.suspBlock = some 511 ∧
    (∀ op ∈ [1, 2, 5, 6], (f fun x => { x with op := op, addr := 0x083FFF00 }).dev.flash.op = op) ∧
    (let e := later (f fun x => { x with op := 2, addr := 0x083FE000, suspReq := true, incomplete := [511], fresh := some 7 })
       400007
     e.dev.flash.suspReq = true ∧ 0x08000000 ≤ e.dev.flash.addr ∧ e.dev.flash.addr < 0x08400000 ∧
       e.dev.flash.fresh = some 7 ∧ 7 + 400000 = e.dev.now ∧
       flashBlock e.dev.flash.addr ∈ e.dev.flash.incomplete) ∧
    (let r := later (f fun x => { x with op := 2, at_ := 0, done := 249 }) (8000 + 40000)
     let ran := r.dev.now - r.dev.flash.at_ - if r.dev.flash.fresh = none then 8000 else 0
     r.dev.flash.fresh = none ∧ min 250 (r.dev.flash.done + ran / 40000) = 250 ∧
       min 250 (r.dev.flash.done + (ran - 1) / 40000) = 249) ∧
    (let r := f fun x => { x with op := 6, fue := [0x083FE000], fce := [0x083FE008], addr := 0x083FDF00 }
     ∀ k ∈ r.dev.flash.fce ++ r.dev.flash.fue, flashPage k ≠ flashPage r.dev.flash.addr) ∧
    flashBlock s.dev.flash.addr ∉ s.dev.flash.incomplete ∧
    (st []).dev.pageBlank [(0x08000000, 0)] 0 = false := by decide

/-- DmaCommands: a descriptor of one word at the top of SRAM, the last of its chain, one of three words, and one that waits
for its trigger; a channel IDLE, running, waiting and in each further state; a channel of higher PRIO that is in FETCH and
one that is not. -/
theorem witness_dma :
    let a := 0x2007FFE0
    let m := (Mem.writeN [] 4 a 0x20000000).writeN 4 (a + 4) 0x20000004
    let m := (m.writeN 4 (a + 8) 4).writeN 4 (a + 12) 0x80
    let s : State := { mem := m, dev := (st [(CHn_STAT_STATE, 15, 1)]).dev.setR CHn_CUR 15 a }
    (s.dev.f CHn_STAT_STATE 15 = 1 ∧ s.dev.r CHn_CUR 15 = a ∧ s.dev.flash.ue = [] ∧ s.dev.flash.ce = []) ∧
    (s.mem.readN 4 a = 0x20000000 ∧ s.mem.readN 4 (a + 4) = 0x20000004 ∧ s.mem.readN 4 (a + 8) % 2 ^ 24 = 4 ∧
      s.mem.readN 4 (a + 12) = 0x80 ∧ a + 32 ≤ 0x20080000 ∧ a % 4 = 0) ∧
    (let m := ((m.writeN 4 a 0x20000000).writeN 4 (a + 4) 0x2000000C).writeN 4 (a + 8) 12
     m.readN 4 a = 0x20000000 ∧ m.readN 4 (a + 4) = 0x2000000C ∧ m.readN 4 (a + 8) % 2 ^ 24 = 12 ∧
       0x20000000 + 12 ≤ 0x2000000C ∧ s.dev.f DMA_XARB_BURST ≤ 8) ∧
    (let v := alter (st [(CHn_STAT_STATE, 0, 1), (CHn_STAT_STATE, 15, 1)]) fun d =>
       { d with dma := d.dma.setIfInBounds 15 { d.dma.getD 15 {} with last := true } }
     (v.dev.dma.getD 15 {}).last = true ∧ (∀ i < 15, (v.dev.dma.getD i {}).last = false) ∧
       (0 + 15 - 15) % 16 < (15 + 15 - 15) % 16 ∧ (v.dev.dma.getD 0 {}).move.moved.length < 2 ^ 24) ∧
    (0x80 + 2 ^ 16 + 2 ^ 9 * 127 < 2 ^ 32 ∧ s.dev.eventRaised 127 = false) ∧
    (let p := fun k => st [(CHn_STAT_STATE, 0, k), (CHn_CTRL_PRIO, 0, 1), (CHn_STAT_STATE, 15, 1)]
     (p 0).dev.b CHn_CTRL_PRIO 15 = false ∧ (p 0).dev.b CHn_CTRL_PRIO 0 = true ∧ (p 0).dev.f CHn_STAT_STATE 0 = 0 ∧
       (p 1).dev.f CHn_STAT_STATE 0 = 1) ∧
    (∀ k ∈ [4, 5], (st [(CHn_STAT_STATE, 15, k)]).dev.f CHn_STAT_STATE 15 = k) ∧
    (st []).dev.f CHn_STAT_STATE 15 = 0 ∧ (st [(CHn_STAT_STATE, 15, 2)]).dev.f CHn_STAT_STATE 15 = 2 := by decide

/-! ### Witnesses: the stitch engines -/

/-- A running engine 7 whose next word is `w`. -/
def fetching (w : Nat) (l : List (Fld × Nat × Nat) := []) : State :=
  alter (st ([(STITCHe_STAT_STATE, 7, 2), (STITCHe_GROUP_PINCOUNT, 7, 8)] ++ l)) fun d => d.setR2 STITCHe_IMEMw 7 0 w

/-- StitchInstructionsRun: an engine that fetches in a tick and one between ticks, its registers full and empty, a condition
that holds and one that does not, an edge on a pin from a sample that is known, a first tick, a pin that the engine has driven
for five cycles and for four, and an engine that does not run. -/
theorem witness_stitch :
    (let s := fetching (5 * 2 ^ 11 + 2047)
     2 ≤ s.dev.engState 7 ∧ s.dev.engState 7 ≠ 5 ∧ (s.dev.eng 7).inj = none ∧ (s.dev.eng 7).busy = false ∧
       s.dev.b STITCHe_STAT_INJ_RUN 7 = false ∧ s.dev.r2 STITCHe_IMEMw 7 (s.dev.f STITCHe_STAT_PC 7) = 5 * 2 ^ 11 + 2047 ∧
       s.dev.f STITCHe_GROUP_PINCOUNT 7 = 8 ∧ (s.dev.eng 7).tickAt ≤ s.dev.now ∧
       (s.dev.now - (s.dev.eng 7).tickAt) % max 1 (s.dev.r STITCHe_CLKDIV 7) = 0) ∧
    (let s := alter (later (fetching 0) 1) fun d => d.setR STITCHe_CLKDIV 7 2
     (s.dev.now - (s.dev.eng 7).tickAt) % max 1 (s.dev.r STITCHe_CLKDIV 7) ≠ 0) ∧
    (fetching 0 [(STITCHe_STAT_OFULL, 7, 1)]).dev.b STITCHe_STAT_OFULL 7 = true ∧
    (fetching 0 [(STITCHe_STAT_IFULL, 7, 1)]).dev.b STITCHe_STAT_IFULL 7 = true ∧
    (fetching 0).dev.b STITCHe_STAT_OFULL 7 = false ∧ (fetching 0).dev.b STITCHe_STAT_IFULL 7 = false ∧
    ((128 : Nat).testBit 7 = true ∧ ¬ ((fetching 0).dev.f STITCHe_PINS_IN 7).testBit 7 = true) ∧
    (∀ k ∈ [0, 1], let s := alter (fetching 0) fun d => d.modEng 7 fun x => { x with seen := k }
      (s.dev.eng 7).tickAt = s.dev.now ∧ (s.dev.eng 7).seen = k) ∧
    (let h : List (Nat × Nat × Nat) := [(0, 128, 128)]
     ((drivenAt 5 5 h).2.testBit 7 && (drivenAt 5 4 h).2.testBit 7) = true ∧ (drivenAt 4 5 h).2.testBit 7 = false) ∧
    ((fetching 0).dev.eng 7).fl.testBit 3 = false ∧ (st []).dev.engState 7 < 2 ∧
    (fetching 0 [(HM_CTRL_RELAY_EN, 0, 1)]).dev.b HM_CTRL_RELAY_EN = true ∧
    (∀ fr ∈ [true, false], let x : Handed := ⟨10, 7, fr, (frame 0).toNat⟩
     let s := alter (st [(HM_CTRL_RELAY_EN, 0, 1)]) fun d => ({ d with hm := { d.hm with handed := [x] } }.setR HM_TIME 0 9)
     s.pending = [] ∧ s.dev.hm.handed = [x] ∧ s.dev.hm.relays = [] ∧ (s.dev.r HM_TIME + 1) % 2 ^ 32 = x.at_ ∧ x.frame = fr ∧
       s.dev.b HM_CTRL_RELAY_EN = true ∧ (s.dev.hr 7).sig = []) ∧
    (let d := (fetching 0).dev
     (d.hsSet 7 8).eng 7 |>.setAt) = (fetching 0).dev.now := by decide

/-- R482: a set and a clear of the flag F3 in one cycle leave it set; a clear a cycle later clears it. -/
theorem test_set_wins :
    let d := (fetching 0).dev.hsSet 7 8
    ((d.hsClr 7 8 d.now).eng 7).fl = 8 ∧ ((d.hsClr 7 8 (d.now + 1)).eng 7).fl = 0 := by decide

/-- StitchControl: a start that asks for an engine and one that asks for none, a group that is ready and one that is being
checked, the latest one and an earlier one, a stop of a running engine, a restart in the cycle of a tick and before the next,
an injection that is taken and one that is not. -/
theorem witness_stitch_control :
    let g : StartGrp := { no := 1, members := 2 ^ 7, todo := [] }
    ((List.range 8).filter (fun e => (2 ^ 7 : Nat).testBit e && !(st []).dev.cfg.queue.contains (0x20 + e)) = [7] ∧
      (List.range 8).filter (fun e => (0 : Nat).testBit e && !(st []).dev.cfg.queue.contains (0x20 + e)) = []) ∧
    ((alter (st []) fun d => { d with stitch := { d.stitch with groups := [g] } }).dev.stitch.groups.find?
      fun g => g.todo.isEmpty && g.bad == 0) = some g ∧ g.members.testBit 7 = true ∧
    (let two := alter (st []) fun d => { d with stitch := { d.stitch with groups := [g, { g with members := 0xFF }] } }
     (∃ x ∈ two.dev.stitch.groups, x.members.testBit 7 = true) ∧
       two.dev.stitch.groups.filter (fun x => !x.members.testBit 7) = []) ∧
    (∀ k ∈ [1, 2], let s := alter (st []) fun d => { d with stitch := { d.stitch with groups := [g], asked := k } }
      s.dev.stitch.asked = k ∧ (g.no == s.dev.stitch.asked) = decide (k = 1)) ∧
    (∀ t ∈ [1, 3], let s := later (alter (fetching 0) fun d => (d.setR STITCHe_CLKDIV 7 2).modEng 7 fun x => { x with tickAt := t, seen := 1 }) 1
      (decide (s.dev.now ≤ (s.dev.eng 7).tickAt - max 1 (s.dev.r STITCHe_CLKDIV 7)) &&
        decide (s.dev.now < (s.dev.eng 7).tickAt)) = decide (t = 3)) ∧
    (st [(SYSCTL_MODE_MODE, 0, 5)]).dev.modeNow = modeSafe ∧
    ((st []).dev.stitch.groups.find? fun g => g.todo.isEmpty && g.bad == 0) = none ∧
    (2 ≤ (fetching 0).dev.engState 7 ∧ (fetching 0).dev.b STITCHe_STAT_INJ_PEND 7 = false ∧ stitchReserved 0 = false ∧
      stitchReserved 0xFFFF = true) ∧
    (st [(STITCH_CTRL_EXPERT_UNLOCK, 0, 1)]).dev.b STITCH_CTRL_EXPERT_UNLOCK = true := by decide

/-! ### Witnesses: the host port, the serial ports, timers and pins -/

/-- HostReads, HostWrites: a port with an address that does not stretch, on a page and on PAGE 0xFF; one that stretches; a
write that passes, one that WP refuses; a stretch at its limit; firmware ready and busy; BOOT, in which it is not; what is
no read: a write without data, short, long, and with a read; a pinned slot; an alert that is pending, with an address and
without. -/
theorem witness_host :
    let s := st [(HB_STAT_ADDR_VALID, 0, 1), (HB_CTRL_FW_READY, 0, 1), (HB_CTRL_REGRD_EN, 0, 1), (SYSCTL_MODE_MODE, 0, 3)]
    (s.dev.b HB_STAT_ADDR_VALID = true ∧ s.dev.b HB_STAT_STRETCH = false ∧ s.dev.f HB_STAT_PAGE ≠ 0xFF ∧
      s.dev.f HB_STAT_WP ≤ 0 ∧ s.dev.b HB_CTRL_PEC_REQ = false ∧ s.dev.b HB_CTRL_FW_READY = true ∧
      s.dev.b HB_CTRL_REGRD_EN = true) ∧
    (s.dev.b HB_FWCMD_VALID = false ∧ s.dev.modeNow ≠ 1 ∧ s.dev.cpu.replay = none ∧ s.dev.cpu.selfTest = false ∧
      s.dev.cpu.joining = false) ∧
    (st [(HB_FWCMD_VALID, 0, 1)]).dev.b HB_FWCMD_VALID = true ∧
    (let s := later (st [(HB_STAT_STRETCH, 0, 1), (HB_XTO_FWTO, 0, 255)]) 9600000
     s.dev.b HB_STAT_STRETCH = true ∧ s.dev.host.stretchAt + 40000 * min 240 (s.dev.f HB_XTO_FWTO) = s.dev.now) ∧
    (st [(HB_STAT_PAGE, 0, 0xFF)]).dev.f HB_STAT_PAGE = 0xFF ∧ 0x20 < (st [(HB_STAT_WP, 0, 0x40)]).dev.f HB_STAT_WP ∧
    (st [(HB_CTRL_PEC_REQ, 0, 1)]).dev.b HB_CTRL_PEC_REQ = true ∧
    hostReadable 0x40000000 = true ∧ hostReadable 0x40000002 = false ∧
    (∀ x ∈ [(⟨none, false, .none⟩ : HostXact), ⟨some [1], false, .none⟩, ⟨some [1, 2, 3], false, .none⟩, ⟨some [1], true, .none⟩],
      ¬ (x.read = true ∧ x.data = none)) ∧
    (st [(SYSCTL_MODE_MODE, 0, 2), (HB_CTRL_FW_READY, 0, 1)]).dev.modeNow = modeBoot ∧
    (rdiv (0x1333 * 4000) 4096 = 4800 ∧ fromLinear11 0xF010 10 = 40) ∧
    (logged { pinHost := some 5 }).dev.log.pinHost = some 5 ∧
    ((st [(HB_ALERT_PENDING, 0, 1)]).dev.f HB_ALERT_PENDING ≠ 0 ∧ (st [(HB_ALERT_PENDING, 0, 1)]).dev.b HB_STAT_ADDR_VALID = false) := by
  decide

/-- SerialCommands: a UART that hears with room for one entry and with none, after a stop bit that was low and after one
that was not, a head to send on a quiet line and on one that is not, one whose retry is due, a clash in HALF, a break of ten
bits; a QSPI command that runs, waits for a spill, polls, and has ended, with data to send, to read and none, after a
separate write enable and without; the window on, hit and missed; an entry to spill. -/
theorem witness_serial :
    let u := fun (l : List (Fld × Nat × Nat)) (f : UartSt → UartSt) => alter (st ((UART_CTRL_EN, 1, 1) :: l)) fun d => d.modUart 1 f
    let q := fun (x : QspiSt) => alter (st [(QSPI_CTRL_EN, 0, 1)]) fun d => { d with qspi := x }
    ((u [] id).dev.b UART_CTRL_EN 1 = true ∧ (u [] id).dev.b UART_STAT_HELDOFF 1 = false ∧
      ((u [] fun x => { x with rx := List.replicate 63 0 }).dev.ua 1).rx.length < 64 ∧
      64 ≤ ((u [] fun x => { x with rx := List.replicate 64 0 }).dev.ua 1).rx.length) ∧
    (let s := u [] fun x => { x with tx := [(false, 1)], path := 2 }
     (s.dev.ua 1).retry = false ∧ (s.dev.ua 1).tx.head? = some (false, 1) ∧ (s.dev.ua 1).path = 2 ∧
       [true][0]? = some true ∧ (s.dev.uaFrame 1 1)[0]? = some (!true)) ∧
    (let s := later (u [] fun x => { x with retry := true }) (11 * 16 * 2)
     (s.dev.ua 1).retry = true ∧ (s.dev.ua 1).lineAt + (11 + s.dev.f UART_XLINE_RETRY_SLOT 1) *
       ((16 * max 1 (s.dev.f UART_BAUD_DIV 1) + s.dev.f UART_BAUD_FRAC 1) * if s.dev.b SYSCTL_CLK_SRC then 2 else 8) = s.dev.now) ∧
    (∀ n ∈ [100, 101], let s := later (u [] fun x => { x with tx := [(true, 1)], busyTo := n, sentAt := 68, bitT := 32 }) 100
      (decide ((s.dev.ua 1).busyTo ≤ s.dev.now)) = decide (n = 100) ∧ 0 < (s.dev.ua 1).bitT) ∧
    (∀ v ∈ [true, false], ((u [] fun x => { x with low9 := v }).dev.ua 1).low9 = v) ∧
    (16 * 10 ≤ (0x0A0#16).toNat ∧ (0x0A0#16).toNat < 16 * max 16 ((u [] id).dev.f UART_XLINE_BRK_MAX 1)) ∧
    (let s := later (q { cmd := some 0, polling := true, pollFrom := 0, pollAt := 4000 }) 4000
     s.dev.qspi.polling = true ∧ s.dev.qspi.pollAt = s.dev.now ∧
       s.dev.qspi.pollFrom + 400000 * (s.dev.r QSPI_POLLTO % 2 ^ 16) < s.dev.now) ∧
    16 ≤ ((u [] fun x => { x with tx := List.replicate 16 (false, 0) }).dev.ua 1).tx.length ∧
    ((q {}).dev.qspi.cmd = none ∧ (q { cmd := some (2 ^ 26) }).dev.qspi.cmd = some (2 ^ 26) ∧ (2 ^ 26 : Nat).testBit 26 = true) ∧
    (∀ v ∈ [0, 2 ^ 25 + 2 ^ 16, 2 ^ 16], ∀ w ∈ [true, false], let s := q { cmd := some v, waits := w, wel := w }
      s.dev.qspi.cmd = some v ∧ s.dev.qspi.waits = w ∧ s.dev.qspi.wel = w ∧ s.dev.qspi.polling = false) ∧
    ((2 ^ 25 + 2 ^ 16 : Nat).testBit 25 = true ∧ min 256 ((2 ^ 16 : Nat) / 2 ^ 16 % 2 ^ 9) ≠ 0) ∧
    (q {}).dev.b QSPI_CTRL_EN = true ∧ (0x63FFFFFC#32).toNat < 0x64000000 ∧
    (q { line := some (0x63FFFFE0, List.replicate 32 0) }).dev.qspi.line = some (0x63FFFFE0, List.replicate 32 0) ∧
    Instr.wf (.qspiWindowRead .dma 0x63FFFFFC#32 4 (List.replicate 32 0)) = true ∧
    (logged { spill := [entry 0 1] }).dev.log.spill = [entry 0 1] := by decide

/-- R506: at reset a 0 bit of the PULSE path is low from sample 7 for 3 samples. R507: a collision in the start bit leaves the
line low for 9 samples. -/
theorem test_uart_wave :
    let d := alter (st []) (·.modUart 1 fun x => { x with path := 1 }) |>.dev
    (d.uaWave 1 false).findIdx? (!·) = some 6 ∧ (d.uaWave 1 false).count false = 3 ∧
      (uaCut (List.replicate 32 false) 0).count false = 9 := by decide

/-- TimersAndPins: a timer that reaches MATCH at its wrap and in one-shot mode, a write that is refused and one that is not,
a count written to MATCH and past it, while the timers run and while they are held; a timer that follows another; a pin that
FUNC gives a buffer and one that a claim gives, whose ball the device drives and does not. -/
theorem witness_timers :
    let t := fun (m : Nat) (c v : Nat) => alter (st [(TIMERt_CTRL_EN, 0, 1), (TIMERt_CTRL_MODE, 0, m)]) fun d =>
      (d.setR TIMERt_COUNT 0 c).setR TIMERt_MATCH 0 v
    ((t 0 (2 ^ 32 - 1) 0).dev.f TIMERt_CTRL_SLAVE 0 ≠ 3 ∧
      2 ^ (t 0 0 0).dev.f TIMERt_CTRL_PRESC 0 ≤ (t 0 0 0).dev.r TIMERt_RESID 0 + 1) ∧
    ((t 0 (2 ^ 32 - 1) 0).dev.counts 0 = true ∧ ((t 0 (2 ^ 32 - 1) 0).dev.r TIMERt_COUNT 0 + 1) % 2 ^ 32 =
      (t 0 (2 ^ 32 - 1) 0).dev.r TIMERt_MATCH 0) ∧
    ((t 2 0 1).dev.counts 0 = true ∧ (t 2 0 1).dev.f TIMERt_CTRL_MODE 0 = 2 ∧ (t 2 0 1).dev.r TIMERt_MATCH 0 = 1) ∧
    ((t 1 0 5).dev.f TIMERt_CTRL_MODE 0 = 1 ∧ (t 1 0 5).dev.r TIMERt_COUNT 0 = (t 1 0 5).dev.r TIMERt_RELOAD 0) ∧
    (st []).dev.counts 0 = false ∧ (6#32).toNat / 2 % 4 = 3 ∧ (4#32).toNat / 2 % 4 ≠ 3 ∧ (4#32).toNat / 2 ^ 8 % 8 = 0 ∧
    (let s := alter (st []) fun d => d.modCfg fun c => { c with pinmap := true, gpcfg := List.replicate 40 5 }
     s.dev.cfg.pinmap = true ∧ s.dev.cfg.gpcfg.getD 39 0 % 16 = 5 ∧ s.dev.gpio.edgeAt.getD 39 0 = 0) ∧
    (let s := later (alter (st []) fun d => { d with gpio := { d.gpio with edgeAt := .replicate 40 8 } }) 9
     s.dev.gpio.edgeAt.getD 39 0 - 1 + (s.dev.f GPIO_XFILT_FILT 0 + 1) * (if s.dev.b SYSCTL_CLK_SRC then 2 else 8) = s.dev.now) ∧
    (∀ p ∈ [0, 2], let s := alter (t 0 1 5) fun d => { d with mode := { d.mode with sleep := p } }
      (s.dev.r TIMERt_COUNT 0 ≠ (5#32).toNat ∧ s.dev.r TIMERt_MATCH 0 = (5#32).toNat) ∧ s.dev.r TIMERt_MATCH 0 ≠ (6#32).toNat ∧
        s.dev.mode.sleep = p) ∧
    (∀ k ∈ [2, 3, 4], let s := st [(TIMERt_CTRL_SLAVE, 15, k), (TIMERt_CTRL_EN, 15, 1)]
      s.dev.f TIMERt_CTRL_SLAVE 15 = k ∧ s.dev.f TIMERt_CTRL_MASTER 15 = 0 ∧ s.dev.timerOn 15 = true) ∧
    (let s := fun v => alter (st []) fun d => { d with gpio := { d.gpio with balls := List.replicate 24 (v, 0) } }
     ((s (2 ^ 39)).dev.gpio.balls.getD 4 (0, 0)).1.testBit 39 = true ∧ ((s 1).dev.gpio.balls.getD 4 (0, 0)).1.testBit 39 = false) ∧
    (let s := alter (st []) fun d => d.setR GPIO_CLAIM 1 (2 ^ 7)
     s.dev.cfg.pinmap = false ∧ (s.dev.r GPIO_CLAIM (39 / 32)).testBit (39 % 32) = true) := by decide

/-- IdleTick: a device whose fabric clock runs with RT about to wrap, one whose clock stands, one without its supplies; RT
behind, at and ahead of the root's time, the correction due and not; an erase; an edge of the slow clock that is due and one
that is not. -/
theorem witness_idle :
    (st []).pending = [] ∧
    (let s := alter (st []) fun d => d.setR CHAIN_RTIME 0 (2 ^ 32 - 1)
     s.dev.b SYSCTL_CLK_SRC = true ∧ s.dev.r CHAIN_RTIME = 2 ^ 32 - 1) ∧
    (∀ err ∈ [(-1 : Int), 0, 1], let s := alter (later (st []) 255) fun d => d.modChain fun c => { c with rtErr := err }
      s.dev.chain.rtErr = err ∧ ¬ s.dev.now + 1 < s.dev.chain.rtAt + 256 ∧ (later s 254).dev.now + 1 < s.dev.chain.rtAt + 256) ∧
    (alter (st []) fun d => { d with flash := { d.flash with op := 2 } }).dev.flash.op = 2 ∧
    (let s := fun p => alter (st [(BD_STAT_OSC_OK, 0, 1)]) fun d => { d with mode := { d.mode with phase := p } }
     400000000 = (s 399967232).dev.mode.phase + 32768 ∧ (s 399967231).dev.mode.phase + 32768 < 400000000 ∧
       (s 0).dev.b BD_STAT_OSC_OK = true ∧ (st []).dev.b BD_STAT_OSC_OK = false) ∧
    (st [(SYSCTL_CLK_SRC, 0, 0)]).dev.b SYSCTL_CLK_SRC = false ∧
    (alter (st []) fun d => { d with mode := { d.mode with dormant := true } }).dev.mode.dormant = true := by decide

/-- MemoryFormKept: a memory with entries in canonical form, and the step it takes. -/
theorem witness_memory_form :
    let s : State := { mem := [(0x08000000, 0), (0x20000000, 1)], pending := [.checkpoint] }
    MemInv s ∧ ∃ t, step s = .next t := ⟨by unfold MemInv; decide, _, rfl⟩

/-! ### One step on a small state -/

/-- The state after `i`. -/
def after (i : Instr) (s : State) : State :=
  match exec i s with
  | .next t => t
  | .fault _ => s
  | .refused _ => s

/-- Core A after `i` on a core whose g1 is `a` and whose g2 is `b`. -/
def ran (i : Instr) (a b : Word) : CoreSt :=
  (after i (paired (holding inSup fun k => if k = 1 then a else if k = 2 then b else 0))).dev.cpu.a

/-- R374: 0xFFFFFFFF + 1 gives 0 with Z and C, and no V; the destination may be a source. -/
theorem test_add_wraps : (ran (.add .a 1 1 2 true 0) 0xFFFFFFFF 1).gr 1 = 0 ∧
    (ran (.add .a 1 1 2 true 0) 0xFFFFFFFF 1).psr = 0x60000001 := by decide

/-- R374: 0x80000000 - 1 gives V; C is 1 where nothing is borrowed, 0 where something is. -/
theorem test_sub_flags : (ran (.sub .a 3 1 2 true 0) 0x80000000 1).psr = 0x30000001 ∧
    (ran (.sub .a 3 1 2 true 0) 0 1).psr = 0x80000001 := by decide

/-- R375: LSR by 32 gives 0 and the last bit out is bit 31; ASR by 33 gives copies of bit 31. -/
theorem test_shift_corners : (ran (.lsr .a 3 1 2 true 0) 0x80000000 32).psr = 0x60000001 ∧
    (ran (.asr .a 3 1 2 true 0) 0x80000000 33).gr 3 = 0xFFFFFFFF := by decide

/-- R376: DIVS by 0 gives 0xFFFFFFFF, REMS by 0 the dividend, the most negative number by -1 itself. -/
theorem test_div_corners : (ran (.divs .a 3 1 2 0) 7 0).gr 3 = 0xFFFFFFFF ∧ (ran (.rems .a 3 1 2 0) 7 0).gr 3 = 7 ∧
    (ran (.divs .a 3 1 2 0) 0x80000000 0xFFFFFFFF).gr 3 = 0x80000000 := by decide

/-- R376: the upper half of -1 × -1 is 0 signed and 0xFFFFFFFE unsigned. -/
theorem test_mul_high : (ran (.mulhs .a 3 1 2 0) 0xFFFFFFFF 0xFFFFFFFF).gr 3 = 0 ∧
    (ran (.mulhu .a 3 1 2 0) 0xFFFFFFFF 0xFFFFFFFF).gr 3 = 0xFFFFFFFE := by decide

/-- R384: PERM with the selectors 3, 2, 1, 0 from the least significant byte reverses rs1. -/
theorem test_perm : (ran (.perm .a 3 1 2 0o0123) 0x11223344 0).gr 3 = 0x44332211 := by decide

/-- R377: a halfword is read little-endian and extended by its sign. -/
theorem test_ldh : (after (.ldh .a 3 1 2) { paired (holding inSup fun _ => 0x20000000) with
    mem := [(0x20000003, 0x80)] }).dev.cpu.a.gr 3 = 0xFFFF8000 := by decide

/-- R371: PUSH at the lowest word but one of SRAM lowers g15 by 4 and stores there. -/
theorem test_push : (after (.push .a 2 0) (paired (holding inSup fun _ => 0x20000008))).mem =
    [(0x20000004, 0x08), (0x20000007, 0x20)] := by decide

/-- R370: a taken branch backwards by its largest offset. -/
theorem test_bcc16 : (ran (.bcc16 .a 14 0x40) 0 0).pc = 0x20000080 := by decide

/-- R404 and R405: SVC enters slot 10 of the vectors at VBASE with the next PC saved. -/
theorem test_svc : (after (.svc .a 5) (paired inSup)).dev.cpu.a.pc = 0x1A0 ∧
    (after (.svc .a 5) (paired inSup)).mem.readN 4 (0x20080000 - 0x60) = 0x20000102 ∧
    (after (.svc .a 5) (paired inSup)).mem.readN 4 (0x20080000 - 0x58) = 0x5000A := by decide

/-- R36: an access to a hole of the map ends in UNMAPPED. -/
theorem test_unmapped : (after (.registerWrite .dma 0x00010000 4 0) (st [])).dev.bus.err = 1 := by decide

/-- R55: VTARGET one above its range leaves the register and sets WR_REJ. -/
theorem test_vtarget : (after (.railVtargetWrite 7 0x1F41) (st [])).dev.r RAIL_VTARGET 7 = 0 ∧
    (after (.railVtargetWrite 7 0x1F41) (st [])).dev.r RAIL_FLAGS 7 = 1 := by decide

/-- R111: a frame with a wrong CRC is counted. -/
theorem test_intent_crc : (after (.intentFrame 1) (st [(HM_CTRL_PORT_EN, 0, 1)])).dev.f HM_CNT_ERR_CRC = 1 := by decide

/-- R198: a cell with a wrong check code is counted. -/
theorem test_cell : (after (.ringCell 0 (cellOf 0 ^^^ 1#32) 0) (st [])).dev.f CHAIN_CNT_U_CHK = 1 := by decide

/-- R282: software posts no TYPE below 0x800. -/
theorem test_swpost : (after (.logSwpost 0x17FF) (st [])).dev.b LOG_FLAGS_SWREJ = true ∧
    (after (.logSwpost 0x17FF) (st [])).dev.log.intake = [] := by decide

/-- R440: a flash command without the key is rejected with code 1. -/
theorem test_flash_key : (after (.flashErase 0) (st [(SYSCTL_MODE_MODE, 0, 3)])).dev.f FLASHC_REJ_CODE = 1 := by decide

/-- R463: START on a channel that is not IDLE is rejected. -/
theorem test_dma_start : (after (.dmaStart 15) (st [(CHn_STAT_STATE, 15, 1)])).dev.b CHn_FLAGS_START_REJ 15 = true := by decide

/-- R478, with the word that the spec gives for it: LDC C0 with FILL 1 and VALUE 0x1FF loads 0xFFFF. -/
theorem test_ldc : (after (.ldc 7 0 true 0x1FF [0]) (fetching 0x53FF)).dev.f STITCHe_CTR_C0 7 = 0xFFFF := by decide

/-- R493: PMBUS_REVISION reads 0x33. -/
theorem test_pmbus_revision : (after (.pmbusRevision ⟨none, true, .none⟩) (st [(HB_STAT_ADDR_VALID, 0, 1)])).dev.host.resp.head? =
    some 0x33 := by decide

/-- R515: a QSPI command with WREN and a three-byte address sends 0x06, its code and the address, high byte first. -/
theorem test_qspi : (after (.qspiCommand 0x08000120) (alter (st []) fun d => d.setR QSPI_ADDR 0 0x123456)).dev.qspi.sent =
    [0x06, 0x20, 0x12, 0x34, 0x56] := by decide

/-- R527: GPIO_SET of pin 39 through the upper register; bits above it have no pin. -/
theorem test_gpio_set : (after (.gpioSet 1 0xFFFFFFFF) (st [])).dev.r GPIO_OUT 1 = 0xFF := by decide

/-- The model's tick (log entry 2): with no command waiting a step counts one cycle. -/
theorem test_idle : ∃ t, step (st []) = .next t ∧ t.dev.now = 1 := ⟨_, rfl, by decide⟩

end Sys2Proof.Tests
end

section
/-! The integer functions of MULDIV, the bit functions of BITOP and the byte selections of PERM and PERMR (R376, R383,
R384): each function of the model as a function of bit vectors, and the instructions that put its value into rd. -/
namespace Sys2Proof.Machine

/-! ### Instructions that put a value into rd -/

/-- An instruction whose meaning on every core is to put `v` into rd. -/
theorem puts_of_put {i : Instr} {c : CoreId} {len : Nat} {rd : Fin 16} {act : Dev → CoreSt → Act} {v : CoreSt → Word}
    (he : ∀ s, exec i s = s.instr c len act) (ha : ∀ d x, act d x = x.put rd (v x)) : Puts i c len rd v :=
  retiresWith_of i c len act _ _ he ha (fun _ => List.pairwise_singleton _ _) fun _ w hw => by
    rw [List.mem_singleton.1 hw]; exact rd.isLt

theorem needZero_zero {w : Nat} (a : Act) : needZero (0 : BitVec w) a = a := if_pos rfl

/-- An instruction of the form of MULDIV whose function `f` takes the values `v`. -/
theorem puts_of_muldiv {i : Instr} {c : CoreId} {rd rs1 rs2 : Fin 16} {f : Word → Word → Word → Word} {v : CoreSt → Word}
    (he : ∀ s, exec i s = s.muldiv c rd rs1 rs2 0 f) (hv : ∀ x, f (x.gr rs1) (x.gr rs2) (x.gr rd) = v x) :
    Puts i c 4 rd v :=
  puts_of_put he fun _ x => by rw [needZero_zero, hv]

/-- An instruction of the form of BITOP whose function `f` takes the values `v`. -/
theorem puts_of_bitop {i : Instr} {c : CoreId} {rd rs1 : Fin 16} {f : Word → Word} {v : CoreSt → Word}
    (he : ∀ s, exec i s = s.bitop c rd rs1 0 f) (hv : ∀ x, f (x.gr rs1) = v x) : Puts i c 4 rd v :=
  puts_of_put he fun _ x => by rw [needZero_zero, hv]

/-! ### Products, quotients and remainders (R376) -/

/-- The upper half of a doubleword holds its signed value divided by 2^32, rounded down. -/
theorem extractLsb'_high_eq_ofInt (p : BitVec 64) : p.extractLsb' 32 32 = BitVec.ofInt 32 (p.toInt / 2 ^ 32) := by
  apply BitVec.eq_of_toNat_eq
  have hp := p.isLt
  rw [BitVec.extractLsb'_toNat, BitVec.toNat_ofInt, BitVec.toInt_eq_toNat_cond, Nat.shiftRight_eq_div_pow]
  split <;> omega

/-- The product of two sign-extended words is exact. -/
theorem toInt_mul_signExtend (a b : Word) : (a.signExtend 64 * b.signExtend 64).toInt = a.toInt * b.toInt := by
  have hu : a.toInt * b.toInt ≤ 2 ^ 62 := BitVec.toInt_mul_toInt_le
  have hl : -(2 ^ 62) ≤ a.toInt * b.toInt := BitVec.le_toInt_mul_toInt
  rw [BitVec.toInt_mul, BitVec.toInt_signExtend_of_le (by decide), BitVec.toInt_signExtend_of_le (by decide)]
  exact Int.bmod_eq_of_le (by omega) (by omega)

theorem mulHighS_eq (a b : Word) : mulHighS a b = (a.signExtend 64 * b.signExtend 64).extractLsb' 32 32 := by
  rw [extractLsb'_high_eq_ofInt, toInt_mul_signExtend, mulHighS]

theorem mulHighU_eq (a b : Word) : mulHighU a b = (a.zeroExtend 64 * b.zeroExtend 64).extractLsb' 32 32 := by
  apply BitVec.eq_of_toNat_eq
  have hab : a.toNat * b.toNat < 2 ^ 64 := calc
    a.toNat * b.toNat < 2 ^ 32 * 2 ^ 32 := Nat.mul_lt_mul'' a.isLt b.isLt
    _ = 2 ^ 64 := by decide
  rw [mulHighU, BitVec.extractLsb'_toNat, BitVec.toNat_ofNat, BitVec.toNat_mul, BitVec.toNat_setWidth_of_le (by decide),
    BitVec.toNat_setWidth_of_le (by decide), Nat.mod_eq_of_lt hab, Nat.shiftRight_eq_div_pow]

theorem quotU_eq (a b : Word) : quotU a b = if b = 0 then 0xFFFFFFFF#32 else a / b := by rw [quotU, BitVec.udiv_def]

theorem remU_eq (a b : Word) : remU a b = if b = 0 then a else a % b := by rw [remU, BitVec.umod_def]

/-- Settles O4: the model's halves of the exact product and its unsigned quotient and remainder are those of bit vectors;
its other functions are the statement's own. -/
theorem mulDivRetire : Obligations.MulDivRetire := fun _ _ _ _ =>
  ⟨puts_of_muldiv (f := fun a b _ => a * b) (fun _ => rfl) fun _ => rfl,
   puts_of_muldiv (f := fun a b _ => mulHighS a b) (fun _ => rfl) fun _ => mulHighS_eq _ _,
   puts_of_muldiv (f := fun a b _ => mulHighU a b) (fun _ => rfl) fun _ => mulHighU_eq _ _,
   puts_of_muldiv (f := fun a b _ => quotS a b) (fun _ => rfl) fun _ => rfl,
   puts_of_muldiv (f := fun a b _ => quotU a b) (fun _ => rfl) fun _ => quotU_eq _ _,
   puts_of_muldiv (f := fun a b _ => remS a b) (fun _ => rfl) fun _ => rfl,
   puts_of_muldiv (f := fun a b _ => remU a b) (fun _ => rfl) fun _ => remU_eq _ _,
   puts_of_muldiv (f := fun a b old => old + a * b) (fun _ => rfl) fun _ => rfl⟩

/-! ### The bits of a word, most significant first (R383) -/

theorem bit_toNat {w : Nat} (a : BitVec w) (i : Nat) : bit a.toNat i = a.getLsbD i := by
  rw [BitVec.getLsbD, Nat.testBit_eq_decide_div_mod_eq]; rfl

@[simp] theorem length_msbBits (w v : Nat) : (msbBits w v).length = w := by
  induction w with
  | zero => rfl
  | succ w ih => rw [msbBits, List.length_cons, ih]

theorem getElem_msbBits (w v i : Nat) (h : i < (msbBits w v).length) : (msbBits w v)[i] = bit v (w - 1 - i) := by
  induction w generalizing i with
  | zero => exact absurd h (Nat.not_lt_zero i)
  | succ w ih =>
    cases i with
    | zero => rfl
    | succ i =>
      simp only [msbBits, List.getElem_cons_succ]
      rw [ih, show w + 1 - 1 - (i + 1) = w - 1 - i by omega]

theorem length_wordBits (a : Word) : (wordBits a).length = 32 := length_msbBits _ _

theorem getElem_wordBits (a : Word) (i : Nat) (h : i < (wordBits a).length) : (wordBits a)[i] = a.getMsbD i := by
  have hi : i < 32 := length_wordBits a ▸ h
  rw [BitVec.getMsbD_eq_getLsbD, decide_eq_true hi, Bool.true_and, ← bit_toNat]
  exact getElem_msbBits _ _ _ _

theorem wordBits_reverse (a : Word) : (wordBits a).reverse = wordBits a.reverse := by
  refine List.ext_getElem (by simp only [List.length_reverse, length_wordBits]) fun i h _ => ?_
  have hi : i < 32 := by simpa only [List.length_reverse, length_wordBits] using h
  rw [List.getElem_reverse, getElem_wordBits, getElem_wordBits, BitVec.getMsbD_reverse, length_wordBits,
    BitVec.getMsbD_eq_getLsbD, decide_eq_true (by omega), Bool.true_and, show 32 - 1 - (32 - 1 - i) = i by omega]

theorem foldl_msbBits (w v acc : Nat) :
    (msbBits w v).foldl (fun n b => 2 * n + b2n b) acc = acc * 2 ^ w + v % 2 ^ w := by
  induction w generalizing acc with
  | zero => simp [msbBits, Nat.mod_one]
  | succ w ih =>
    have hb : b2n (bit v w) = v / 2 ^ w % 2 := by
      rcases Nat.mod_two_eq_zero_or_one (v / 2 ^ w) with h | h <;> simp [b2n, bit, h]
    rw [msbBits, List.foldl_cons, ih, hb, Nat.mod_pow_succ, Nat.add_mul, Nat.mul_comm 2 acc, Nat.mul_assoc acc,
      ← Nat.pow_succ', Nat.mul_comm (v / 2 ^ w % 2), Nat.add_comm (v % 2 ^ w), Nat.add_assoc]

theorem ofBits_wordBits (a : Word) : ofBits (wordBits a) = a.toNat := by
  have h := foldl_msbBits 32 a.toNat 0
  rw [Nat.mod_eq_of_lt a.isLt, Nat.zero_mul, Nat.zero_add] at h
  exact h

theorem rbit_eq (a : Word) : rbit a = a.reverse := by
  rw [rbit, wordBits_reverse, ofBits_wordBits, BitVec.ofNat_toNat, BitVec.setWidth_eq]

/-! ### Counts of bits (R383) -/

theorem countP_msbBits {w : Nat} (a : BitVec w) (n : Nat) : (msbBits n a.toNat).countP id = a.cpopNatRec n 0 := by
  induction n with
  | zero => rfl
  | succ n ih =>
    rw [msbBits, List.countP_cons, ih, BitVec.cpopNatRec_succ, BitVec.cpopNatRec_eq (0 + _), bit_toNat]
    cases a.getLsbD n <;> rfl

theorem popc_eq (a : Word) : popc a = a.cpop := by rw [popc, wordBits, countP_msbBits]; rfl

/-- The leading zeros among the bits n to 0 of a word, and the bits above them, are what the library counts. -/
theorem runOf_msbBits {w : Nat} (a : BitVec w) (n : Nat) (h : n < w) :
    BitVec.ofNat w (runOf false (msbBits (n + 1) a.toNat) + (w - 1 - n)) = a.clzAuxRec n := by
  induction n with
  | zero =>
    rw [BitVec.clzAuxRec_zero, msbBits, bit_toNat]
    cases a.getLsbD 0
    · simp only [runOf, msbBits, beq_self_eq_true, if_true, Bool.false_eq_true, if_false]
      congr 1; omega
    · simp [runOf]
  | succ n ih =>
    rw [BitVec.clzAuxRec_succ, msbBits, bit_toNat, ← ih (by omega)]
    cases a.getLsbD (n + 1)
    · simp only [runOf, beq_self_eq_true, if_true, Bool.false_eq_true, if_false]
      congr 1; omega
    · simp [runOf]

theorem clz_eq (a : Word) : clz a = a.clz := runOf_msbBits a 31 (by decide)

theorem ctz_eq (a : Word) : ctz a = a.ctz := by
  rw [ctz, wordBits_reverse, BitVec.ctz_eq_reverse_clz]
  exact clz_eq a.reverse

theorem runOf_le_length (b : Bool) (l : List Bool) : runOf b l ≤ l.length := by
  induction l with
  | nil => exact Nat.le_refl 0
  | cons x t ih => rw [runOf]; split <;> simp only [List.length_cons] <;> omega

/-- Every element inside the run equals `b`. -/
theorem getElem_of_lt_runOf (b : Bool) (l : List Bool) (i : Nat) (hi : i < runOf b l) (h : i < l.length) : l[i] = b := by
  induction l generalizing i with
  | nil => exact absurd h (Nat.not_lt_zero i)
  | cons x t ih =>
    rw [runOf] at hi
    split at hi
    · cases i with
      | zero => exact eq_of_beq ‹_›
      | succ i => exact ih i (by omega) (Nat.lt_of_succ_lt_succ h)
    · exact absurd hi (Nat.not_lt_zero i)

/-- The element that ends the run differs from `b`. -/
theorem getElem_runOf_ne (b : Bool) (l : List Bool) (h : runOf b l < l.length) : l[runOf b l] ≠ b := by
  induction l with
  | nil => exact absurd h (Nat.not_lt_zero _)
  | cons x t ih =>
    by_cases hx : x = b
    · have hr : runOf b (x :: t) = runOf b t + 1 := by rw [runOf, if_pos (beq_iff_eq.2 hx)]
      simp only [hr, List.getElem_cons_succ]
      exact ih (by rw [hr] at h; exact Nat.lt_of_succ_lt_succ h)
    · have hr : runOf b (x :: t) = 0 := by rw [runOf, if_neg (by simpa using hx)]
      simpa only [hr, List.getElem_cons_zero] using hx

theorem length_drop_wordBits (a : Word) : ((wordBits a).drop 1).length = 31 := by rw [List.length_drop, length_wordBits]

theorem getElem_drop_wordBits (a : Word) (i : Nat) (h : i < ((wordBits a).drop 1).length) :
    ((wordBits a).drop 1)[i] = a.getLsbD (30 - i) := by
  have hi : i < 31 := length_drop_wordBits a ▸ h
  rw [List.getElem_drop, getElem_wordBits, BitVec.getMsbD_eq_getLsbD, decide_eq_true (by omega), Bool.true_and,
    show 32 - 1 - (1 + i) = 30 - i by omega]

theorem toNat_cls (a : Word) : (cls a).toNat = runOf a.msb ((wordBits a).drop 1) := by
  have h := runOf_le_length a.msb ((wordBits a).drop 1)
  rw [length_drop_wordBits] at h
  rw [cls, BitVec.toNat_ofNat, Nat.mod_eq_of_lt (by omega)]

theorem cls_spec (a : Word) : (cls a).toNat ≤ 31 ∧ (∀ i < (cls a).toNat, a.getLsbD (30 - i) = a.msb) ∧
    ((cls a).toNat < 31 → a.getLsbD (30 - (cls a).toNat) ≠ a.msb) := by
  have hle := runOf_le_length a.msb ((wordBits a).drop 1)
  rw [toNat_cls, ← length_drop_wordBits a]
  refine ⟨hle, fun i hi => ?_, fun h => ?_⟩
  · rw [← getElem_drop_wordBits a i (by omega)]
    exact getElem_of_lt_runOf _ _ i hi _
  · rw [← getElem_drop_wordBits a _ h]
    exact getElem_runOf_ne _ _ h

/-! ### The bytes of a word (R383, R384) -/

theorem byteOf_eq (a : Word) (j : Nat) : byteOf a j = (a.extractLsb' (8 * j) 8).toNat := by
  rw [BitVec.extractLsb'_toNat, Nat.shiftRight_eq_div_pow]; rfl

theorem toNat_append_byte {w : Nat} (x : BitVec w) (b : BitVec 8) : (x ++ b).toNat = x.toNat * 2 ^ 8 + b.toNat := by
  rw [BitVec.toNat_append, ← Nat.shiftLeft_add_eq_or_of_lt b.isLt, Nat.shiftLeft_eq]

theorem wordOf_toNat (b0 b1 b2 b3 : BitVec 8) :
    wordOf b0.toNat b1.toNat b2.toNat b3.toNat = b3 ++ b2 ++ b1 ++ b0 := by
  apply BitVec.eq_of_toNat_eq
  rw [wordOf, BitVec.toNat_ofNat, toNat_append_byte, toNat_append_byte, toNat_append_byte]
  omega

theorem wordOf_eq_append (n : Nat → Nat) (p : Nat → BitVec 8) (h : ∀ j, n j = (p j).toNat) :
    wordOf (n 0) (n 1) (n 2) (n 3) = p 3 ++ p 2 ++ p 1 ++ p 0 := by rw [h, h, h, h, wordOf_toNat]

theorem revBytes_eq (a : Word) : revBytes a =
    a.extractLsb' (8 * 0) 8 ++ a.extractLsb' (8 * 1) 8 ++ a.extractLsb' (8 * 2) 8 ++ a.extractLsb' (8 * 3) 8 := by
  simp only [revBytes, byteOf_eq, wordOf_toNat]

theorem revHalves_eq (a : Word) : revHalves a =
    a.extractLsb' (8 * 2) 8 ++ a.extractLsb' (8 * 3) 8 ++ a.extractLsb' (8 * 0) 8 ++ a.extractLsb' (8 * 1) 8 := by
  simp only [revHalves, byteOf_eq, wordOf_toNat]

/-- Byte `k` of the eight bytes of `a` and `b`, as a bit vector. -/
def srcByte (a b : Word) (k : Nat) : BitVec 8 :=
  if k < 4 then a.extractLsb' (8 * k) 8 else b.extractLsb' (8 * (k - 4)) 8

theorem permSrc_eq (a b : Word) (k : Nat) : permSrc a b k = (srcByte a b k).toNat := by
  rw [permSrc, srcByte, byteOf_eq, byteOf_eq, apply_ite BitVec.toNat]

theorem bits_mul (v k j q : Nat) (hq : 2 ^ k = q) : bits v (k * j) k = v / q ^ j % q := by
  rw [bits, Nat.pow_mul, hq]

theorem permBytes_eq (a b : Word) (func : Nat) :
    let p := fun j => srcByte a b (func / 8 ^ j % 8)
    permBytes a b func = p 3 ++ p 2 ++ p 1 ++ p 0 := by
  intro p
  have hp : ∀ j, permSrc a b (bits func (3 * j) 3) = (p j).toNat := fun j => by
    rw [bits_mul func 3 j 8 (by decide)]
    exact permSrc_eq _ _ _
  exact wordOf_eq_append (fun j => permSrc a b (bits func (3 * j) 3)) p hp

/-- The byte that a nibble of PERMR's selectors chooses. -/
theorem permNibble_eq (a b : Word) (n : Nat) :
    (if n ≥ 8 then 0 else permSrc a b n) = (if 8 ≤ n then 0#8 else srcByte a b n).toNat := by
  by_cases h : 8 ≤ n
  · rw [if_pos h, if_pos h]; rfl
  · rw [if_neg h, if_neg h, permSrc_eq]

theorem permNibbles_eq (a b sel : Word) :
    let n := fun j => sel.toNat / 16 ^ j % 16
    let p := fun j => if 8 ≤ n j then 0#8 else srcByte a b (n j)
    permNibbles a b sel = p 3 ++ p 2 ++ p 1 ++ p 0 := by
  intro n p
  let m := fun j => bits sel.toNat (4 * j) 4
  have hp : ∀ j, (if m j ≥ 8 then 0 else permSrc a b (m j)) = (p j).toNat := fun j => by
    rw [show m j = n j from bits_mul sel.toNat 4 j 16 (by decide)]
    exact permNibble_eq _ _ _
  exact wordOf_eq_append (fun j => if m j ≥ 8 then 0 else permSrc a b (m j)) p hp

/-- Settles O7: the counts and reversals name the library's, `cls` is the run of sign bits below bit 31, and PERM and PERMR
choose among the bytes of `srcByte`. -/
theorem bitAndByteFunctionsRetire : Obligations.BitAndByteFunctionsRetire := fun _ _ _ _ _ =>
  ⟨puts_of_bitop (f := clz) (fun _ => rfl) fun _ => clz_eq _,
   ⟨cls, puts_of_bitop (f := cls) (fun _ => rfl) fun _ => rfl, cls_spec⟩,
   puts_of_bitop (f := ctz) (fun _ => rfl) fun _ => ctz_eq _,
   puts_of_bitop (f := popc) (fun _ => rfl) fun _ => popc_eq _,
   puts_of_bitop (f := revBytes) (fun _ => rfl) fun _ => revBytes_eq _,
   puts_of_bitop (f := revHalves) (fun _ => rfl) fun _ => revHalves_eq _,
   puts_of_bitop (f := rbit) (fun _ => rfl) fun _ => rbit_eq _,
   puts_of_put (fun _ => rfl) fun _ _ => congrArg _ (permBytes_eq _ _ _),
   puts_of_muldiv (f := permNibbles) (fun _ => rfl) fun _ => permNibbles_eq _ _ _⟩

end Sys2Proof.Machine
end
